-- ==== Sys2Proof/Word.lean ====
section
/-! DEFINITION. The word types of the XE5120 model: 32-bit register words and bytes of frames and buffers. -/
namespace Sys2Proof

/-- A register word: every register of the device is one 32-bit DW (R31, R37). -/
abbrev Word := BitVec 32

/-- A byte of a frame, a buffer or a flash sector. -/
abbrev Byte := BitVec 8

/-- A byte sequence in the order of transmission. -/
abbrev Bytes := List Byte

end Sys2Proof
end

