-- ==== Sys2Proof/Syntax.lean ====
section
/-! DEFINITION. The commands of the XE5120: one constructor for each row of the opcode table. -/
namespace Sys2Proof

/-- What a message of channel S or M carries (R14, R15): status; marshal traffic; preannouncements, lock apply commands and time
corrections; register requests and completions; interrupts; change-log entries. -/
inductive LinkMsg where
  | status | safety | timing | register | interrupt | logEntry
  deriving DecidableEq, Repr


/-- What a die-to-die flit carries (R14): part of a frame, a capture record, or a message of channels S and M. -/
inductive FlitItem where
  | frame (id : Nat) (express : Bool) (bytes : Nat)
  | record (id : Nat) (bytes : Nat)
  | message (kind : LinkMsg) (bytes : Nat)
  deriving DecidableEq, Repr

/-- What the 16-bit check code of a flit shows (R18). -/
inductive FlitCheck where
  | good | corrected | uncorrectable
  deriving DecidableEq, Repr

/-- The delimiter of what a MAC receives (R106): a whole or express frame, a first fragment, a continuation with its
fragment count, a verify or respond mPacket, or the further bytes of what is already in reception. -/
inductive Smd where
  | whole | start | cont (k : Nat) | verify | respond | more
  deriving DecidableEq, Repr

/-- How a received frame or fragment ends (R102, R106): a valid FCS, a valid mCRC, neither (an FCS mismatch or a PCS
error code), or not yet: these are its bytes so far. -/
inductive FragEnd where
  | fcs | mcrc | neither | open_
  deriving DecidableEq, Repr

/-- The requesters of berths (R256). -/
inductive Reqr where
  | express | ingress | fabric | capture | host
  deriving DecidableEq, Repr


/-- What IEC 62351-6 makes of the authentication extension of a GOOSE or SV frame: where its key identifier, its counter and its tag lie from
its first byte on, its length and its tag's, and the bytes authenticated, from the header's APPID on (R248, log entry 238). -/
structure SealExt where
  authOff : Nat
  authLen : Nat
  keyOff : Nat
  ivOff : Nat
  tagOff : Nat
  tagLen : Nat
  len : Nat
  deriving DecidableEq, Repr

/-- The supplies (R504). -/
inductive Rail where
  | vddFe | vddMsh | vddTm | vddNl | vddhNl | vddFl | vddhFl | vddD2d | vddHphy | hbmVddc | hbmVddq | hbmVpp | vddAux
  deriving DecidableEq, Repr

/-- The commands: one constructor for each row of the opcode table, with the operands that the rules of that row name. -/
inductive Instr where
  /-- FLIT_RECEIVE (R18): The receiving die checks one die-to-die flit and delivers, corrects or discards what it carries as its channel requires. -/
  | flitReceive (t dir slice : Nat) (chk : FlitCheck) (items : List FlitItem)
  /-- FLIT_REPLAY (R18): On a replay request on channel S or M, the sender resends from its 64-flit replay buffer. -/
  | flitReplay (t dir slice : Nat)
  /-- EPOCH_PREANNOUNCE (R88): When master time is 20 µs before a boundary, the generator issues its number, stamp and any lock or step flag. -/
  | epochPreannounce (miss : List Nat)
  /-- EPOCH_BOUNDARY (R87): A domain reaches a preannounced epoch boundary and carries out the actions bound to it. -/
  | epochBoundary
  /-- MEMORY_REQUEST (R37): A BAR0, management-core or JTAG request of 1 to 16 DW is taken as ordered register accesses or refused whole. -/
  | memoryRequest (t o page off : Nat) (write bad : Bool) (dws : List Word) (be par : List Nat)
  /-- REGISTER_WRITE (R33): A write to a register without a row of its own behaves by its access code and is logged. -/
  | registerWrite (t o page off : Nat) (v : Word) (be : Nat)
  /-- RC_READ (R36): A read of an RC register returns its value and clears the bits returned as 1. -/
  | rcRead (t o page off : Nat)
  /-- LO_WORD_READ (R37): A read of a _LO or word-A register latches the matching upper words for the reading origin. -/
  | loWordRead (t o page off : Nat)
  /-- POSTED_WRITE_LAND (R35): A WP write lands in its target domain and clears POSTED_PENDING. -/
  | postedWriteLand (t page : Nat)
  /-- CHAMBER_WRITE (R43): A chamber write to an unfrozen page stages the value and marks the word dirty. -/
  | chamberWrite (t o page off : Nat) (v : Word) (be : Nat)
  /-- SOFT_RST (R34): PG_CTL.SOFT_RST while EN = 0 starts a soft reset of the block. -/
  | softRst (t o page : Nat)
  /-- SOFT_RESET_DONE (R34): The soft reset completes, restoring reset values and clearing dirty marks and SOFT_RST_PENDING. -/
  | softResetDone (t page : Nat)
  /-- CHAMBER_SYNC (R39): PG_CTL.CHAMBER_SYNC copies every live register into its chamber word and clears all dirty marks. -/
  | chamberSync (t o page : Nat)
  /-- PAGE_ENABLE (R96): A write setting PG_CTL.EN runs the page check and enables the block or refuses with ENABLE_REFUSED. -/
  | pageEnable (t o page : Nat)
  /-- PAGE_DISABLE (R97): Clearing PG_CTL.EN stops the block, powering down a port's lanes. -/
  | pageDisable (t o page : Nat)
  /-- LOCK_MEMBER_WRITE (R42): A write of PG_CTL.LOCK_MEMBER is accepted in FILL of a host cycle or refused with LOCK_REJECT. -/
  | lockMemberWrite (t o page : Nat) (member : Bool)
  /-- BEGIN (R41): CTL_LOCK_CMD.BEGIN opens a host-owned lock cycle in FILL or is refused while busy. -/
  | lockBegin (t o : Nat)
  /-- GO (R41): CTL_LOCK_CMD.GO moves FILL to LEVEL or refuses the cycle at once. -/
  | lockGo (t o : Nat)
  /-- ABORT (R41): CTL_LOCK_CMD.ABORT refuses a cycle in FILL, LEVEL, or READY before its apply preannouncement. -/
  | lockAbort (t o : Nat)
  /-- CLEAR (R41): CTL_LOCK_CMD.CLEAR returns the engine from DONE or REFUSED to IDLE. -/
  | lockClear (t o : Nat)
  /-- MARSHAL_REQUEST (R41): The marshal's MSH_LOCK_CMD.GO requests a marshal-owned cycle on the named pages, or is held one deep. -/
  | marshalRequest (t : Nat)
  /-- PREEMPT_TIMEOUT (R41): A host cycle held in FILL for 16 epochs while a marshal request waits is refused PREEMPTED. -/
  | preemptTimeout (t : Nat)
  /-- LEVELLING_RESULT (R45): Page and cross-block checks complete and the cycle moves to READY or is refused. -/
  | levellingResult (t : Nat)
  /-- LEVEL_TIMEOUT (R41): Levelling without a result 2 epochs after GO refuses the cycle LEVEL_TIMEOUT. -/
  | levelTimeout (t : Nat)
  /-- LOCK_CONFIRM (R51): When every member page confirms, the cycle enters DONE, logs LOCK_APPLY and a held marshal request starts. -/
  | lockConfirm (t : Nat)
  /-- OLD_COPY_RELEASE (R48): When no frame of the previous generation remains, pages drop the old copy and OLD_COPY clears. -/
  | oldCopyRelease (t : Nat)
  /-- TABLE_WRITE (R520): An accepted DW write to a page's window range updates the table and joins a batch. -/
  | tableWrite (t o page off : Nat) (v : Word) (be : Nat)
  /-- LOG_RD_SEQ_WRITE (R58): A write of CTL_LOG_RD_SEQ releases ring records or is discarded when out of range. -/
  | logRdSeqWrite (t o : Nat) (v : Word)
  /-- LOG_DMA_COPY (R60): A written record is copied to the host ring and CTL_LOG_DMA_HEAD is advanced. -/
  | logDmaCopy (t : Nat)
  /-- PM_OVERFLOW (R63): A performance counter wraps from 2^48 − 1 to 0 and sets PM_OVF. -/
  | pmOverflow (t page k : Nat)
  /-- PM_OVF_FREEZE (R63): Eight cycles after an overflow with OVF_FREEZE = 1, RUN clears. -/
  | pmOvfFreeze (t page : Nat)
  /-- PM_CLEAR (R32): PG_PM_CTL.CLEAR sets the page's eight counters to zero. -/
  | pmClear (t o page : Nat)
  /-- SNAP (R64): CTL_SNAP_CMD.SNAP requests a snapshot at the next preannounced boundary. -/
  | snap (t o : Nat)
  /-- FREEZE (R64): CTL_SNAP_CMD.FREEZE requests a counter freeze at the next preannounced boundary. -/
  | freeze (t o : Nat)
  /-- THAW (R64): CTL_SNAP_CMD.THAW requests a counter restart at the next preannounced boundary. -/
  | thaw (t o : Nat)
  /-- EOI (R65): A write of 1 to CTL_IRQ_EOI re-arms a vector for the writer's target. -/
  | eoi (t o vec : Nat)
  /-- IRQ_HOLDOFF_EXPIRY (R65): When CTL_IRQ_HOLDOFF has passed on a re-armed vector whose OR is still 1, the message is sent again. -/
  | irqHoldoffExpiry (t target vec : Nat)
  /-- SERVO_INPUT (R81): An offset input from TIM_SERVO_OFS or a 1PPS stamp runs the PI loop and the servo state table. -/
  | servoInput (t : Nat)
  /-- SERVO_SOURCE_TIMEOUT (R83): No input for SRC_TIMEOUT moves LOCKED to HOLDOVER or ACQUIRING to FREE. -/
  | servoSourceTimeout (t : Nat)
  /-- HOLDOVER_LIMIT (R83): After LIMIT minutes in HOLDOVER the servo enters FREE and raises HO_EXPIRED. -/
  | holdoverLimit (t : Nat)
  /-- SERVO_MODE_WRITE (R83): Writing TIM_SERVO_CFG.MODE to 0 returns the servo to FREE. -/
  | servoModeWrite (t o : Nat) (v : Word)
  /-- REPLICA_CORRECTION (R70): Every 1 µs the TM replica counter receives a correction on channel M slot 1. -/
  | replicaCorrection (t : Nat) (err : Int)
  /-- REF_SELECT (R80): A write of TIM_REF_CFG.SEL starts a change of time PLL reference. -/
  | refSelect (t o sel : Nat)
  /-- REFERENCE_SWITCH (R80): Within 1 ms the time PLL is steered to the new reference without a step. -/
  | referenceSwitch (t ok : Nat)
  /-- REFERENCE_LOSS (R513): The selected reference disappears; TIM_REF_STAT shows it and the PLL holds its frequency. -/
  | referenceLoss (t ref : Nat)
  /-- TXTS_POP (R78): TIM_TXTS_POP removes the head entry of the two-step stamp FIFO. -/
  | txtsPop (t o : Nat)
  /-- RCLK_SQUELCH (R84): A recovered-clock output is held low when its lane loses signal or lock with SQUELCH_EN = 1. -/
  | rclkSquelch (t : Nat) (outB : Bool)
  /-- RCLK_RESUME (R84): 10 ms after lock returns, a squelched recovered-clock output resumes. -/
  | rclkResume (t : Nat) (outB : Bool)
  /-- PPS_IN_EDGE (R85): A 1PPS input edge is stamped, then accepted or rejected. -/
  | ppsInEdge (raw : Nat)
  /-- PPS_OUT_EDGE (R86): The 1PPS output rises at each whole second of the time base, with the 10 MHz edge aligned. -/
  | ppsOutEdge (t : Nat)
  /-- EPOCH_RUN (R88): Setting TIM_EPOCH_CTL.RUN starts the epoch generator at the next eligible boundary. -/
  | epochRun (t o : Nat)
  /-- STEP (R89): TIM_STEP_CMD.STEP commits a forward step, applied at once before RUN or at the next unissued boundary. -/
  | timStep (t o : Nat)
  /-- SET (R89): TIM_STEP_CMD.SET loads the step registers as absolute time before RUN, refused afterwards. -/
  | setTime (t o : Nat)
  /-- LANES_READY (R97): Every port lane shows SIGNAL, CDR_LOCK and ADAPT_DONE and the port moves from ACQUIRE to ALIGN. -/
  | lanesReady (t c locks : Nat)
  /-- AN37_COMPLETE (R97): Clause 37 auto-negotiation completes on a 1000BASE-X port with AN37_EN = 1. -/
  | an37Complete (t c : Nat) (pause : Bool)
  /-- ADAPT_TIMEOUT (R97): Adaptation not complete in 10 ms (NRZ) or 60 ms (PAM4) restarts it. -/
  | adaptTimeout (t c : Nat)
  /-- PORT_UP (R97): Lock and deskew held for UP_HOLD move the port from ALIGN to UP. -/
  | portUp (t c skew : Nat)
  /-- LANE_LOSS (R97): A lane losing SIGNAL or CDR_LOCK in ALIGN or LOCAL_FAULT returns the port to ACQUIRE. -/
  | laneLoss (t n : Nat) (signal : Bool)
  /-- LOCAL_FAULT (R97): A local fault held for DOWN_HOLD takes an UP port to LOCAL_FAULT. -/
  | localFault (t c cause : Nat)
  /-- REMOTE_FAULT (R97): Remote fault received for DOWN_HOLD takes an UP port to REMOTE_FAULT. -/
  | remoteFault (t c : Nat)
  /-- LOCAL_FAULT_CLEAR (R97): The local fault condition clears and the port returns to ALIGN. -/
  | localFaultClear (t c : Nat)
  /-- REMOTE_FAULT_CLEAR (R97): Remote fault absent for 128 blocks returns the port to ALIGN. -/
  | remoteFaultClear (t c : Nat)
  /-- SEND_RF (R112): A write changing LIC_LINK_CFG.SEND_RF forces remote fault and changes whether the port is up for traffic. -/
  | sendRf (t o c : Nat) (on : Bool)
  /-- FRAME_RECEIVE (R102): A network channel receives one frame, stamps it, checks it and passes it toward the pipelines. -/
  | frameReceive (t c : Nat) (smd : Smd) (b : Bytes) (fin : FragEnd) (v : Nat)
  /-- PAUSE_EXPIRY (R108): A class's pause timer runs out and the class becomes eligible. -/
  | pauseExpiry (t c k : Nat)
  /-- VERIFY_TIMEOUT (R104): verifyTime passes without a respond; a further verify is sent or verification FAILS. -/
  | verifyTimeout (t c : Nat)
  /-- PREEMPT_FRAGMENT (R105): The MAC closes the current fragment with its mCRC at the first allowed byte boundary for a ready express frame. -/
  | preemptFragment (t c : Nat)
  /-- PAUSE_TRANSMIT (R111): The LIC sends a PAUSE or PFC frame requested by the pacer. -/
  | pauseTransmit (t c : Nat)
  /-- FRAME_TRANSMIT (R212): At a frame boundary the transmit MAC chooses and starts the next frame. -/
  | frameTransmit (t c : Nat)
  /-- FRAME_TRANSMIT_END (R203): A frame's last bit leaves the MDI, ending its in-flight count and returning staging credit. -/
  | frameTransmitEnd (t c : Nat)
  /-- FLANE_UP (R100): After adaptation, codeword lock and 1 ms of continuous lock an F-lane or baton lane becomes UP. -/
  | flaneUp (t : Nat) (baton : Bool) (n : Nat) (locked : Bool)
  /-- FLANE_DOWN (R100): Loss of signal, CDR or codeword lock returns the lane to ADAPT and is reported. -/
  | flaneDown (t : Nat) (baton : Bool) (n what : Nat)
  /-- LANE_CTL_WRITE (R113): A change of polarity, loopback, RATE or lane EN returns the lane's port or lane to ACQUIRE or ADAPT. -/
  | laneCtlWrite (t o page off : Nat) (v : Word)
  /-- EYE_UPDATE (R113): An adapted receiver updates its EYE monitor at least once per millisecond. -/
  | eyeUpdate (t grp n eye corr unc sym : Nat)
  /-- SDH_FRAME (R118): The framer handles one received STM frame position: alignment, overhead, parity and defect counts. -/
  | sdhFrame (t ch : Nat) (line : Bytes)
  /-- LOS_ENTRY (R121): Lane signal low or no transitions for 20 µs declares LOS. -/
  | losEntry (t ch : Nat)
  /-- CONSEQUENT_ACTION (R122): Within 250 µs of a defect's entry or exit its consequent actions start or end. -/
  | consequentAction (t ch : Nat)
  /-- TU_MULTIFRAME (R125): A VC-12 multiframe is demapped with majority-voted justification. -/
  | tuMultiframe (t trib : Nat)
  /-- SDH_TX_FRAME (R123): The device builds one transmitted STM frame on its own clock. -/
  | sdhTxFrame (t ch : Nat)
  /-- PW_PAYLOAD_CLOSE (R128): A pseudowire payload closes and its packet enters the PAC pipeline. -/
  | pwPayloadClose (t pw : Nat)
  /-- JB_PLAYOUT (R132): At each packet time the jitter buffer plays one slot or all ones. -/
  | jbPlayout (t pw : Nat)
  /-- PM_SECOND (R135): A one-second period ends and its ES, SES and BBE are judged. -/
  | pmSecond (t ch : Nat)
  /-- BIN_COMPLETE (R137): 10 s after a bin boundary the previous bin is marked COMPLETE. -/
  | binComplete (t : Nat)
  /-- PM_ALIGN_WRITE (R138): A write of SDH_PM_ALIGN marks the current bins SUSPECT and closes them at the next boundary. -/
  | pmAlignWrite (t o : Nat) (v : Word)
  /-- DISPATCH (R142): Each cycle the dispatcher hands dispatchable frames to active pipelines. -/
  | dispatch (t : Nat)
  /-- PIPE_IDLE (R145): A withdrawn pipeline finishes its frames and signals PIPE_IDLE. -/
  | pipeIdle (t : Nat)
  /-- PIPELINE_RELEASE (R147): 88 cycles after dispatch the pipeline releases the parsed, classified frame. -/
  | pipelineRelease (t : Nat) (badAct badCnt : Bool)
  /-- REORDER_COMPLETION (R148): A completion reaches the reorder stage and is released in sequence order. -/
  | reorderCompletion (t src seq : Nat) (x : Bool)
  /-- REORDER_TIMEOUT (R149): A head completion missing 2 µs after a later one arrived is skipped and reported. -/
  | reorderTimeout (t src : Nat)
  /-- SCAN_SLOT (R159): The background scanner checks the parity of one classifier slot. -/
  | scanSlot (t : Nat) (bad : Option Nat)
  /-- BULK_LOOKUP (R167): A bulk frame completes its table lookups and next-hop rewrite. -/
  | bulkLookup (t id : Nat) (bad : List Nat)
  /-- LEARN_COMMIT (R184): The learning engine commits a queued request as insert, move or notify. -/
  | learnCommit (t : Nat)
  /-- NOTIFY_POP (R185): FTB_NTF_POP removes the head of the notify FIFO. -/
  | notifyPop (t o : Nat)
  /-- AGE_VISIT (R187): The sweeper visits one dynamic entry and clears HIT, sets AGED or removes it. -/
  | ageVisit (t : Nat) (flow now : Bool)
  /-- ADD (R190): An FTB ADD command inserts or replaces an entry. -/
  | ftbAdd (t tab : Nat) (bad : Bool)
  /-- DELETE (R190): An FTB DELETE command removes an entry. -/
  | ftbDelete (t tab : Nat) (bad : Bool)
  /-- SEARCH (R190): An FTB SEARCH command returns an entry and its index. -/
  | ftbSearch (t tab : Nat) (bad : Bool)
  /-- NEXT (R190): An FTB NEXT command returns the next valid entry and opens or continues a walk. -/
  | ftbNext (t tab : Nat) (bad : Bool)
  /-- FLUSH (R190): An FTB FLUSH command removes matching MAC entries. -/
  | ftbFlush (t tab : Nat)
  /-- LPM_LOOKUP (R190): An FTB LPM_LOOKUP command returns the longest matching route. -/
  | lpmLookup (t tab : Nat) (bad : Option Nat)
  /-- WALK_CLOSE (R190): An FTB WALK_CLOSE command ends the slot's walk. -/
  | walkClose (t tab : Nat)
  /-- WALK_TIMEOUT (R190): A walk without a NEXT for one second ends. -/
  | walkTimeout (t tab : Nat)
  /-- PORT_DOWN_FLUSH (R190): A queued flush of a down port's learned entries runs. -/
  | portDownFlush (t : Nat)
  /-- NODE_REBUILD (R195): A failed LPM node is rebuilt from the route store. -/
  | nodeRebuild (t : Nat)
  /-- TABLE_SCAN (R195): The FTB scanner reads a table word and handles any parity error. -/
  | tableScan (t tab idx route bad : Nat)
  /-- COUNTER_READ (R194): A read of a counter's W0 latches W1–W3 and clears the pair under READ_CLEAR. -/
  | counterRead (t o page off : Nat)
  /-- EXPRESS_LOOKUP (R204): The express lookup stage resolves the contract's destination and admits or refuses the frame. -/
  | expressLookup (t bus : Nat) (bad : List Nat)
  /-- COMMITMENT (R213): The crossbar releases an admitted frame toward its egress or channel X. -/
  | commitment (t id n : Nat)
  /-- VERDICT (R213): The frame's verdict arrives; a bad one discards before commitment or makes a false start after. -/
  | verdict (t id : Nat)
  /-- REPIN_HOLD_END (R224): A re-pinned flow's first frame is sent once its old path drains or 2 µs pass. -/
  | repinHoldEnd (t id n : Nat)
  /-- HIST_CLEAR (R226): A histogram's CLEAR zeroes its bins, COUNT and MAX and sets MIN. -/
  | histClear (t o h : Nat)
  /-- HIST_COUNT_READ (R226): A read of COUNT latches the bins, MIN and MAX. -/
  | histCountRead (t o h : Nat)
  /-- NODE_AGE (R232): A dynamic node entry silent for NODE_AGE is removed. -/
  | nodeAge (t k : Nat)
  /-- SEAL_VERDICT (R251): A seal unit gives its verdict or tag after the frame's end status. -/
  | sealVerdict (t u : Nat) (ext : Option SealExt) (cmp : Bool)
  /-- SEAL_RETURN (R249): The marshal's SEAL_RETURN GO returns a withdrawn unit to service. -/
  | sealReturn (t u : Nat)
  /-- BERTH_REQUEST (R256): A requester's berth request passes pool accounting and takes a berth or is refused. -/
  | berthRequest (t : Nat) (r : Reqr) (id : Nat)
  /-- BULK_ADMIT (R263): At frame end the basin runs its checks and admits the frame to its queue. -/
  | bulkAdmit (t id : Nat)
  /-- BERTH_FREE (R259): A berth or deep berth is freed after a bitmap check. -/
  | berthFree (t party idx : Nat) (deep : Bool)
  /-- MOVER_START (R265): On-chip use reaching ON_PCT starts the mover. -/
  | moverStart (t : Nat)
  /-- MOVER_STOP (R265): On-chip use below OFF_PCT stops the mover. -/
  | moverStop (t : Nat)
  /-- DEEP_WRITE_CONFIRM (R265): MEM confirms a deep berth write and the moved frames' berths are freed. -/
  | deepWriteConfirm (t : Nat)
  /-- DEEP_READ (R267): A moved frame within 64 KiB of its queue head is read from its deep berths. -/
  | deepRead (t q : Nat)
  /-- BASIN_FLUSH_GO (R274): BAS_FLUSH_CMD.GO starts a flush of the named queue. -/
  | basinFlushGo (t o : Nat)
  /-- DOWN_FLUSH (R272): A channel leaving UP with FLUSH_ON_DOWN = 1 flushes its egress sub-queues. -/
  | downFlush (t : Nat)
  /-- FLUSH_DONE (R274): The last queue of a flush is empty of flushed frames. -/
  | flushDone (t : Nat)
  /-- AGER_VISIT (R275): The ager drops head frames older than AGE_LIMIT. -/
  | agerVisit (t q : Nat)
  /-- GRANT (R282): The pacer selects a queue through the tree and grants its head frame. -/
  | grant (t p : Nat) (bad : Option (Nat × Nat))
  /-- CREDIT_RETURN (R284): The LIC returns a frame's length to the channel's staging credit. -/
  | creditReturn (t : Nat)
  /-- REFILL_VISIT (R288): A refill engine refills one node's buckets. -/
  | refillVisit (t lvl bad : Nat)
  /-- GATE_NOTICE (R299): The pacer sends a gate change to the egress MAC 2 µs ahead. -/
  | gateNotice (t c : Nat)
  /-- GATE_APPLY (R299): The MAC applies a gate notice at its instant. -/
  | gateApply (t c : Nat)
  /-- GATE_MISS (R299): Without a newer notice the MAC closes every bulk gate. -/
  | gateMiss (t c : Nat)
  /-- PFC_JUDGE (R301): Every 100 ns HELD is judged per class for XOFF, XON and refresh. -/
  | pfcJudge (t c : Nat)
  /-- BARGE_RECEIVE (R311): A lane receiver checks one barge and handles it by type. -/
  | bargeReceive (t f : Nat) (cw : Bool) (r : Bytes)
  /-- BARGE_SEND (R312): At each barge boundary a lane sends its first available barge. -/
  | bargeSend (t f : Nat)
  /-- HELLO_SEND (R316): A lane in PROBE or JOINED sends HELLO each HELLO_US. -/
  | helloSend (t f : Nat)
  /-- HELLO_TIMEOUT (R316): No valid HELLO for 3 × HELLO_US takes a lane DOWN or HOLD. -/
  | helloTimeout (t f : Nat)
  /-- PAIR_HOLD_EXPIRY (R316): A lane in HOLD for PAIR_HOLD goes DOWN. -/
  | pairHoldExpiry (t f : Nat)
  /-- FLOOD_REFRESH (R318): An originator refreshes its ANNOUNCE, ASSIGN or LSA. -/
  | floodRefresh (t ty : Nat)
  /-- FLOOD_FORGET (R318): A flooded item unrefreshed for 350 ms is forgotten. -/
  | floodForget (t ty orig : Nat)
  /-- MASTER_ASSIGN (R319): After SETTLE without new ANNOUNCE the master assigns addresses. -/
  | masterAssign (t : Nat)
  /-- ROUTE_COMPUTE (R323): FAB completes a route computation and raises ROUTE_CHANGE. -/
  | routeCompute (t : Nat)
  /-- EXPRESS_FRAME_TIMEOUT (R327): 1 µs without the next barge ends an open express frame. -/
  | expressFrameTimeout (t f : Nat)
  /-- GAP_RULE (R332): A gap 20 µs at a context's head is skipped and the frame in progress ended bad. -/
  | gapRule (t c : Nat)
  /-- ACK_SEND (R333): The destination sends or repeats an ACK entry for a context. -/
  | ackSend (t c : Nat)
  /-- TREE_FRAME_TIMEOUT (R335): 1 µs without the next TREE barge drops the open tree frame. -/
  | treeFrameTimeout (t f : Nat)
  /-- UNREACH_TIMEOUT (R339): A device without a valid path for UNREACH_MS is declared unreachable. -/
  | unreachTimeout (t v : Nat)
  /-- TRAINING_DONE (R347): A controller finishes training and zero fill, reaching READY or TRAIN_FAIL. -/
  | trainingDone (t c : Nat) (fail : Option (Nat × Nat)) (rwin wwin lane repaired : Nat)
  /-- RETRAIN (R348): MEM_C_CTL.RETRAIN restarts training of a controller in TRAIN_FAIL. -/
  | retrain (t o c : Nat)
  /-- DRIFT_CHECK (R349): Every 100 ms the controller checks eye drift and moves centres. -/
  | driftCheck (t c moves rwin wwin lane : Nat)
  /-- MEM_READ_REQUEST (R354): A controller accepts a read or back-pressures its requester. -/
  | memReadRequest (t req addr n : Nat)
  /-- MEM_WRITE_REQUEST (R354): A controller accepts a write into its queue or back-pressures. -/
  | memWriteRequest (t req addr : Nat) (b : Bytes)
  /-- COMMAND_ISSUE (R350): The controller issues its next command by the scheduling rules. -/
  | commandIssue (t c : Nat)
  /-- READ_RETURN (R351): A read's data returns checked by ECC. -/
  | readReturn (t c req : Nat) (ce : List (Nat × Nat)) (ue : Option (Nat × Nat × Nat))
  /-- REFRESH (R352): A due per-bank refresh is issued or postponed. -/
  | refresh (t c bank temp : Nat)
  /-- PATROL_SCRUB (R356): The scrub reads one unit and conditionally writes back corrections. -/
  | patrolScrub (t c : Nat)
  /-- DIAG_READ (R359): MEM_C_DIAG_CMD.READ fetches one granule, raw or corrected. -/
  | diagRead (t o c : Nat) (raw : Bool)
  /-- DIAG_READ_DONE (R359): The diagnostic read completes and DIAG_STAT reports DONE. -/
  | diagReadDone (t c ecc syn : Nat) (err : Bytes)
  /-- RECORD_STAGE (R369): ARC copies a capture record into the filling extent. -/
  | recordStage (t id : Nat)
  /-- CLOSE_MS_TIMEOUT (R370): CLOSE_MS after its first record, the filling extent closes. -/
  | closeMsTimeout (t : Nat)
  /-- CLOSE_NOW (R370): ARC_CMD.CLOSE_NOW closes the filling extent. -/
  | closeNow (t o : Nat)
  /-- DROP_STAGED (R372): ARC_CMD.DROP_STAGED frees CLOSED extents, marking them LOST. -/
  | dropStaged (t o : Nat)
  /-- EXTENT_ASSIGN (R381): The oldest CLOSED extent is assigned to the next UP target. -/
  | extentAssign (t : Nat)
  /-- SEGMENT_QUEUE (R377): ARC queues the next WRITE segment toward the target. -/
  | segmentQueue (t k : Nat)
  /-- ATP_ACK (R372): A matching ACK archives the extent and frees its slot. -/
  | atpAck (t : Nat)
  /-- MISSING (R372): A MISSING reply returns the extent to SENDING for the listed segments. -/
  | atpMissing (t : Nat)
  /-- REFUSED (R372): A REFUSED reply resends or reassigns the extent. -/
  | atpRefused (t : Nat)
  /-- ACK_TIMEOUT (R372): No ACK within ACK_TIMEOUT resends COMMIT or fails the target. -/
  | ackTimeout (t k : Nat)
  /-- PROBE (R379): Every PROBE_MS ARC probes every enabled target. -/
  | atpProbe (t : Nat)
  /-- PROBE_ACK (R380): A PROBE_ACK moves the target to UP or FULL. -/
  | probeAck (t : Nat)
  /-- RETRIEVAL_GO (R383): ARC_RET_CMD.GO starts an index lookup. -/
  | retrievalGo (t o : Nat)
  /-- RETRIEVAL_CONTINUE (R383): ARC_RET_CMD.CONTINUE resumes a lookup after 64 results. -/
  | retrievalContinue (t o : Nat)
  /-- RETRIEVAL_DONE (R383): The lookup completes and raises RET_DONE. -/
  | retrievalDone (t : Nat)
  /-- REPLAY_GO (R385): ARC_RPL_CMD.GO starts replay of a slot's records. -/
  | replayGo (t o : Nat)
  /-- REPLAY_STOP (R385): ARC_RPL_CMD.STOP ends the replay. -/
  | replayStop (t o : Nat)
  /-- REPLAY_FRAME (R385): One replay frame is sent at no more than RPL_RATE. -/
  | replayFrame (t : Nat)
  /-- PAIR_POLICY_WRITE (R392): A marshal write of PAIR_POLICY releases the reset mute and drives the role table from SOLO. -/
  | pairPolicyWrite (t o : Nat) (v : Word)
  /-- BATON_TALLY (R397): A baton lane receives one tally and handles it by type. -/
  | batonTally (t lane : Nat) (b : Bytes)
  /-- RANGE_RESEND (R400): The active member resends NACKed ranges within 5 µs. -/
  | rangeResend (t : Nat)
  /-- LINK_WAIT_EXPIRY (R394): LINK_WAIT without a HELLO makes the member ACTIVE. -/
  | linkWaitExpiry (t : Nat)
  /-- BEAT_SEND (R399): Every 8 µs a member sends BEAT or HELLO on each UP lane. -/
  | beatSend (t : Nat)
  /-- RECORD_BUILD (R401): At T(N+1) + 2 µs the active member builds and stripes the epoch record. -/
  | recordBuild (t : Nat)
  /-- RECORD_LATE (R400): A record not whole 10 µs before T(N+2) is late and sends the standby to SYNC. -/
  | recordLate (t : Nat)
  /-- RECORD_APPLY (R402): At T(N+2) the standby applies the record against its own. -/
  | recordApply (t : Nat)
  /-- BATON_LOSS (R400): No valid tally on any lane for 12 µs declares the baton lost. -/
  | batonLoss (t : Nat)
  /-- FAULT_DECLARED (R403): The active member detecting a cause enters FAULT, names T and holds bulk. -/
  | faultDeclared (t mateServo mateUp : Nat)
  /-- MATE_PG_LOW (R403): PAIR_MATE_PG low for 1 µs triggers cause 0x09. -/
  | matePgLow (t : Nat)
  /-- SILENCE (R404): Two silent epochs trigger cause 0x08 unless PAIR_BEAT_I vetoes it. -/
  | silence (t : Nat) (edge : Bool)
  /-- TAKEOVER (R405): At T the new active member unmutes, releases the hold and takes over. -/
  | takeover (t : Nat)
  /-- HANDOVER (R410): PAIR_CMD.HANDOVER starts a handover at the named epoch or is refused. -/
  | handover (t o : Nat)
  /-- HANDOVER_INSTANT (R394): At the handover instant the roles swap. -/
  | handoverInstant (t : Nat)
  /-- FORCE_FAULT (R403): PAIR_CMD.FORCE_FAULT declares cause 0x07. -/
  | forceFault (t o : Nat)
  /-- RESYNC (R394): PAIR_CMD.RESYNC moves FAULT to LINK. -/
  | resync (t o : Nat)
  /-- FULL_COPY (R408): The active member sends a full copy as COPY tallies. -/
  | fullCopy (t : Nat)
  /-- SYNC_DONE (R409): A member in SYNC meeting every condition becomes STANDBY. -/
  | syncDone (t : Nat)
  /-- TOWPATH_FRAME (R427): A towpath frame is accepted as a command or discarded. -/
  | towpathFrame (t : Nat) (laneB : Bool) (b : Bytes)
  /-- SUBMIT (R425): MSH_PET_CTL.SUBMIT passes the mailbox command to the marshal. -/
  | petSubmit (t o : Nat)
  /-- CANCEL (R425): MSH_PET_CTL.CANCEL zeroes the window and releases the owner. -/
  | petCancel (t o : Nat)
  /-- COMMAND_JUDGE (R419): The marshal takes the next command and judges its checks in order. -/
  | commandJudge (t : Nat)
  /-- BANK_COPY_GO (R200): MSH_BANK_COPY.GO copies the express bank in force into the shadow bank. -/
  | bankCopyGo (t o : Nat)
  /-- STANDING_ORDERS (R424): After reset the marshal tests SRAM, loads slot 0 and executes the standing orders. -/
  | standingOrders (t : Nat) (sramBad : Bool)
  /-- STATUS_SEND (R429): The marshal sends a STATUS message periodically and after each device event. -/
  | statusSend (t : Nat)
  /-- SEAL_CLAIM (R433): A SEAL_LOCK claim takes a free console or is discarded. -/
  | sealClaim (t o : Nat) (v : Word)
  /-- SEAL_RELEASE (R433): The holder releases the console and its buffers are zeroed. -/
  | sealRelease (t o : Nat) (v : Word)
  /-- GMAC_GEN (R434): A console GMAC_GEN job starts. -/
  | gmacGen (t o : Nat)
  /-- GMAC_VERIFY (R434): A console GMAC_VERIFY job starts. -/
  | gmacVerify (t o : Nat)
  /-- GCM_ENC (R434): A console GCM_ENC job starts. -/
  | gcmEnc (t o : Nat)
  /-- GCM_DEC (R434): A console GCM_DEC job starts. -/
  | gcmDec (t o : Nat)
  /-- CONSOLE_JOB_DONE (R436): A console job completes after its fixed time. -/
  | consoleJobDone (t : Nat)
  /-- CONSOLE_LEASE_EXPIRY (R437): 100 ms without the holder's access releases the console. -/
  | consoleLeaseExpiry (t : Nat)
  /-- HEAT_IDLE_TIMEOUT (R439): No PIPE_IDLE by 1.5 µs fails the heat as NOT_IDLE. -/
  | heatIdleTimeout (t : Nat)
  /-- HEAT_RESULT (R439): The self-test result is due by 1,980 µs. -/
  | heatResult (t : Nat) (diff : Option Nat)
  /-- ST_FORCE (R440): MSH_ST_FORCE adds a pipeline to the suspect set. -/
  | stForce (t o : Nat) (v : Word)
  /-- ST_UNRETIRE (R440): MSH_ST_UNRETIRE schedules a heat of a retired pipeline. -/
  | stUnretire (t o : Nat) (v : Word)
  /-- LOCKSTEP_MISMATCH (R441): A lockstep mismatch halts the marshal. -/
  | lockstepMismatch (t : Nat)
  /-- MARSHAL_CLOCK_LOSS (R441): No marshal clock edge for 2 µs halts the marshal. -/
  | marshalClockLoss (t : Nat)
  /-- SRAM_SCRUB (R441): The marshal SRAM scrub corrects errors or halts on an uncorrectable one. -/
  | sramScrub (t ces : Nat) (ue : Bool)
  /-- KEY_SLOT_SCRUB (R441): A key slot parity error zeroises the slot. -/
  | keySlotScrub (t slot : Nat) (bad : Bool)
  /-- MEMTEST_CELL (R441): The march tests one free express store cell and removes a failing cell. -/
  | memtestCell (t : Nat) (bad : Bool)
  /-- RNG_HEALTH_FAIL (R441): The random source fails its health test. -/
  | rngHealthFail (t : Nat)
  /-- DOORBELL (R452): A BAR4 doorbell write sets a ring tail or is discarded. -/
  | doorbell (t f off : Nat) (v : Word) (whole bad : Bool)
  /-- RX_DMA (R453): A punted frame is written to the next receive descriptor. -/
  | rxDma (t u : Nat) (desc : List Word) (reads : List (Option Nat))
  /-- TX_DMA (R454): A transmit descriptor and frame are fetched and handed on or refused. -/
  | txDma (t u : Nat) (desc : List Word) (data : Bytes) (reads : List (Option Nat))
  /-- DMA_ERROR (R460): A completion error puts the pair in ERROR. -/
  | dmaError (t u : Nat) (data : Bool) (tx : Option (List Word))
  /-- DMA_TIMEOUT (R460): No completion within 50 ms puts the pair in ERROR. -/
  | dmaTimeout (t u : Nat) (tx : Option (List Word))
  /-- ITR_EXPIRY (R463): When a pair's ITR interval ends, a pending message is sent. -/
  | itrExpiry (t u : Nat)
  /-- POST (R456): A POST on an EMPTY mailbox slot posts the message. -/
  | mbxPost (t o k len : Nat)
  /-- MAILBOX_ACK (R456): The receiver's ACK empties the slot. -/
  | mailboxAck (t o k seq : Nat)
  /-- VF_FLR (R458): A VF function-level reset clears its pairs, punt queues and slots. -/
  | vfFlr (t v : Nat)
  /-- VF_FLR_DONE (R458): The VF reset completes within 10 ms. -/
  | vfFlrDone (t v : Nat)
  /-- PF_FLR (R458): A PF function-level reset resets every function's host state. -/
  | pfFlr (t : Nat)
  /-- HOT_RESET (R458): A hot reset, link down or PERST# resets the host interface. -/
  | hotReset (t : Nat)
  /-- DIRTY_SWAP (R462): HIF_DIRTY_CMD.SWAP starts a dirty-bitmap swap. -/
  | dirtySwap (t o f : Nat)
  /-- SWAP_COMPLETE (R462): The swap completes and raises DIRTY_SWAP. -/
  | swapComplete (t f : Nat)
  /-- STOP (R462): STOP in a function entry halts descriptor fetches. -/
  | dmaStop (t o f : Nat)
  /-- STOPPED (R462): Outstanding DMA completes and STOPPED is set. -/
  | dmaStopped (t f : Nat)
  /-- PCIE_LINK_CHANGE (R464): The PCIe link enters or leaves DL_Active. -/
  | pcieLinkChange (t : Nat) (up : Bool) (speed width vfs : Nat)
  /-- DEVICE_RESET (R466): DEV_PG falling or DEV_RST_N low resets the whole device. -/
  | deviceReset (t : Nat) (pg : Bool)
  /-- RESET_RELEASE (R466): DEV_RST_N rising with DEV_PG high releases reset. -/
  | resetRelease (t mode : Nat)
  /-- RESET_ARM (R468): 0xA5C3_0F1E to CTL_RST_ARM arms a software reset. -/
  | resetArm (t o : Nat) (v : Word)
  /-- RESET (R468): CTL_RST_CMD.RESET while armed resets the device. -/
  | swReset (t o : Nat)
  /-- RESET_SELF_RELEASE (R468): 1 ms after a software or JTAG reset the device releases itself. -/
  | resetSelfRelease (t mode : Nat)
  /-- FUSE_SENSE_DONE (R476): Fuse sensing completes and each word is resolved. -/
  | fuseSenseDone (t : Nat) (seen : List (Nat × List Word))
  /-- BANK_CHECK (R489): The ROM's check of a bank completes. -/
  | bankCheck (t err : Nat)
  /-- STARTUP_RECORD (R492): The ROM applies the next start-up configuration record. -/
  | startupRecord (t : Nat) (timeout : Bool)
  /-- PAGE_STATE_CHANGE (R470): A page's readiness state changes. -/
  | pageStateChange (t p : Nat) (pass : Bool)
  /-- CONFIRM (R495): CTL_FW_CMD.CONFIRM makes the active bank preferred. -/
  | fwConfirm (t o : Nat)
  /-- TRY_OTHER (R495): CTL_FW_CMD.TRY_OTHER sets the other bank for one try. -/
  | tryOther (t o : Nat)
  /-- RECOVERY (R495): CTL_FW_CMD.RECOVERY sets FORCE_RECOVERY. -/
  | recovery (t o : Nat)
  /-- CHECK_OTHER (R495): CTL_FW_CMD.CHECK_OTHER starts a check of the other bank. -/
  | checkOther (t o : Nat)
  /-- CHECK_DONE (R495): The other-bank check completes. -/
  | checkDone (t : Nat) (err : Bool)
  /-- FLASH_READ (R496): CTL_FLASH_CMD.READ copies 256 bytes into the window. -/
  | flashRead (t o : Nat)
  /-- FLASH_PROGRAM (R496): CTL_FLASH_CMD.PROGRAM writes the window to flash. -/
  | flashProgram (t o : Nat)
  /-- FLASH_ERASE (R496): CTL_FLASH_CMD.ERASE erases a 64 KiB sector. -/
  | flashErase (t o : Nat)
  /-- FLASH_DONE (R496): A flash command completes. -/
  | flashDone (t : Nat) (err : Bool)
  /-- VERIFY (R485): CTL_PKV_CMD.VERIFY starts an ECDSA P-384 check. -/
  | pkvVerify (t o : Nat) (root : Bool)
  /-- VERIFY_DONE (R485): The verifier returns its code after 3.2 ms. -/
  | verifyDone (t : Nat)
  /-- FUSE_PROG (R481): CTL_FUSE_PROG GO starts a fuse burn or is denied. -/
  | fuseProg (t o : Nat) (v : Word)
  /-- BURN_DONE (R481): The burn is verified and logged. -/
  | burnDone (t : Nat) (failed : List Nat)
  /-- RAIL_UNDERVOLTAGE (R507): A rail below minimum for 2 µs resets the device. -/
  | railUndervoltage (t : Nat) (rail : Rail) (uv : Nat)
  /-- PLL_LOCK_LOSS (R507): A core PLL losing lock for 10 µs resets the device. -/
  | pllLockLoss (t : Nat)
  /-- THERM_TRIP (R511): A sensor reaching 120 °C drives THERM_TRIP_N low. -/
  | thermTrip (t : Nat)
  /-- IDCODE (R515): JTAG IDCODE selects the identification register. -/
  | idcode (t : Nat)
  /-- SAMPLE_PRELOAD (R515): JTAG SAMPLE/PRELOAD selects the boundary register in service. -/
  | samplePreload (t : Nat)
  /-- EXTEST (R516): JTAG EXTEST drives the boundary register and takes the device out of service. -/
  | extest (t : Nat)
  /-- EXTEST_PULSE (R516): JTAG EXTEST_PULSE runs 1149.6 testing out of service. -/
  | extestPulse (t : Nat)
  /-- EXTEST_TRAIN (R516): JTAG EXTEST_TRAIN runs 1149.6 testing out of service. -/
  | extestTrain (t : Nat)
  /-- HIGHZ (R516): JTAG HIGHZ floats the pins out of service. -/
  | highz (t : Nat)
  /-- CLAMP (R516): JTAG CLAMP holds the pins with bypass out of service. -/
  | clamp (t : Nat)
  /-- REGACC (R515): JTAG REGACC issues one register access with origin 0x7E. -/
  | regacc (t w : Nat)
  /-- DEVRESET (R515): JTAG DEVRESET resets the device with cause JTAG. -/
  | devreset (t : Nat)
  /-- BYPASS (R515): JTAG BYPASS selects the 1-bit bypass register. -/
  | bypass (t ir : Nat)
  /-- LOS_EXIT (R121): Lane signal high with transitions and no 20 µs gap for 125 µs clears LOS on an SDH channel. -/
  | losExit (t ch : Nat)
  /-- TOWPATH_LINK_CHANGE (R427): A towpath lane gains or loses its 1000BASE-X link, with Clause 37 completion, changing UP_A, UP_B and AN_DONE in MSH_TP_STAT. -/
  | towpathLinkChange (t : Nat) (laneB up an : Bool)
  /-- MANAGEMENT_CORE_RESET (R426): A reset of a management core abandons or completes its petition and releases the seal console it holds. -/
  | managementCoreReset (t c : Nat)
  /-- RST_ARM_EXPIRY (R468): 100 µs after a write of 0xA5C3_0F1E to CTL_RST_ARM, the software reset disarms. -/
  | rstArmExpiry (t : Nat)
  /-- BANK_COPY_DONE (R200): A bank copy started by MSH_BANK_COPY.GO completes within 1 ms, clearing EXP_BANK_STAT.COPY_BUSY and reopening the shadow bank to window writes. -/
  | bankCopyDone (t : Nat)
  deriving DecidableEq, Repr

end Sys2Proof
end

