-- ==== Sys2Proof/Decode.lean ====
section
/-! DEFINITION. Commands as words: the opcode table gives no row of this block any bits, so no word spells a command. -/
namespace Sys2Proof

/-- The command that a word spells by the table's bits: none, since no row of the table gives bits (log entry 18). -/
def decodeTableWord (_nbits _w : Nat) : Option Instr := none

end Sys2Proof
end

