-- ==== Sys2Proof/Machine/Bits.lean ====
section
/-! DEFINITION. Bit fields, byte order, two's complement and the check codes that the manual names (R517, R54, R69). -/
namespace Sys2Proof.Machine

/-- The 32-bit word that a number leaves in a register. -/
def w32 (n : Nat) : Word := BitVec.ofNat 32 n

/-- The field of `n` bits of a word that starts at bit `lo`. -/
def fld (w : Word) (lo n : Nat) : Nat := w.toNat / 2 ^ lo % 2 ^ n

/-- Bit `i` of a word. -/
def bitOf (w : Word) (i : Nat) : Bool := w.toNat / 2 ^ i % 2 == 1

/-- The word with its field of `n` bits at `lo` replaced by `v`. -/
def setFld (w : Word) (lo n v : Nat) : Word :=
  w32 (w.toNat / 2 ^ (lo + n) * 2 ^ (lo + n) + v % 2 ^ n * 2 ^ lo + w.toNat % 2 ^ lo)

/-- One bit as a number. -/
def b2n (b : Bool) : Nat := if b then 1 else 0

/-- The field of `n` bits of a number that starts at bit `lo`. -/
def nfld (w lo n : Nat) : Nat := w / 2 ^ lo % 2 ^ n

/-- Bit `i` of a number. -/
def nbit (w i : Nat) : Bool := w / 2 ^ i % 2 == 1

/-- The low `n` bits of `w`, read as two's complement. -/
def sgn (w n : Nat) : Int :=
  let v := w % 2 ^ n
  if v < 2 ^ (n - 1) then (v : Int) else (v : Int) - 2 ^ n

/-- The `n`-bit two's complement pattern of an integer. -/
def unsgn (v : Int) (n : Nat) : Nat := (v % (2 ^ n : Int)).toNat

/-- `v` limited to the range from `lo` to `hi`. -/
def clampI (v lo hi : Int) : Int := if v < lo then lo else if hi < v then hi else v

/-- Addition that stays at `top`. -/
def satAdd (a b top : Nat) : Nat := if a + b ≤ top then a + b else top

/-! Bytes. -/

/-- A byte sequence read most significant byte first. -/
def beNat (b : Bytes) : Nat := b.foldl (fun a x => a * 256 + x.toNat) 0

/-- A byte sequence read least significant byte first. -/
def leNat : Bytes → Nat
  | [] => 0
  | x :: r => x.toNat + 256 * leNat r

/-- `n` bytes of `v`, least significant first. -/
def toLE : Nat → Nat → Bytes
  | 0, _ => []
  | n + 1, v => BitVec.ofNat 8 v :: toLE n (v / 256)

/-- `n` bytes of `v`, most significant first. -/
def toBE (n v : Nat) : Bytes := (toLE n v).reverse

/-- `n` bytes starting at `off`. -/
def sub (b : Bytes) (off n : Nat) : Bytes := (b.drop off).take n

/-- The big-endian field of `n` bytes at `off`. -/
def beAt (b : Bytes) (off n : Nat) : Nat := beNat (sub b off n)

/-- Byte `off`, zero when the sequence is shorter. -/
def byteAt (b : Bytes) (off : Nat) : Nat := (b.getD off 0).toNat

/-- `b` with the bytes at `off` overwritten by `v`. -/
def splice (b : Bytes) (off : Nat) (v : Bytes) : Bytes := b.take off ++ v ++ b.drop (off + v.length)

/-- `n` zero bytes. -/
def zeros (n : Nat) : Bytes := List.replicate n 0

/-! Check codes. -/

/-- One bit of a reflected CRC register. -/
def crcBitR (poly reg : Nat) : Nat := if reg % 2 == 1 then (reg / 2) ^^^ poly else reg / 2

/-- One byte of a reflected CRC. -/
def crcByteR (poly reg : Nat) (x : Byte) : Nat :=
  let r := reg ^^^ x.toNat
  let f := crcBitR poly
  f (f (f (f (f (f (f (f r)))))))

/-- CRC-32C (Castagnoli, reflected) with the register started at `seed` (R517). -/
def crc32cSeed (seed : Nat) (b : Bytes) : Nat := (b.foldl (crcByteR 0x82F63B78) (seed % 2 ^ 32)) ^^^ 0xFFFFFFFF

/-- The unseeded CRC-32C (R517). -/
def crc32c (b : Bytes) : Nat := crc32cSeed 0xFFFFFFFF b

/-- The Ethernet FCS of a frame, least significant byte first. -/
def fcsOf (b : Bytes) : Bytes := toLE 4 ((b.foldl (crcByteR 0xEDB88320) 0xFFFFFFFF) ^^^ 0xFFFFFFFF)

/-- The bits of a byte sequence, most significant first. -/
def bitsOf (b : Bytes) : List Bool := b.flatMap (fun x => (List.range 8).map (fun i => x.getLsbD (7 - i)))

/-- Whole bytes of a bit sequence, most significant bit first. -/
def bytesOf : Nat → List Bool → Bytes
  | 0, _ => []
  | n + 1, l => BitVec.ofNat 8 ((l.take 8).foldl (fun a b => a * 2 + b2n b) 0) :: bytesOf n (l.drop 8)

/-- One bit of a most-significant-first CRC register of `w` bits. -/
def crcBitF (w poly reg : Nat) : Nat :=
  if reg / 2 ^ (w - 1) % 2 == 1 then (reg * 2 % 2 ^ w) ^^^ poly else reg * 2 % 2 ^ w

/-- One byte of a most-significant-first CRC of `w` bits. -/
def crcByteF (w poly reg : Nat) (x : Byte) : Nat :=
  let r := reg ^^^ (x.toNat * 2 ^ (w - 8))
  let f := crcBitF w poly
  f (f (f (f (f (f (f (f r)))))))

/-- A most-significant-first CRC of `w` bits started at `init`, without a final XOR. -/
def crcF (w poly init : Nat) (b : Bytes) : Nat := b.foldl (crcByteF w poly) init

/-! Stamps. A stamp is a time since the PTP epoch in units of 2^-16 ns (R69). -/

/-- One nanosecond in stamp units. -/
def nsU : Nat := 65536

/-- One second in stamp units. -/
def secU : Nat := 1000000000 * nsU

/-- The stamp of `s` seconds, `ns` nanoseconds and a fraction of 2^-16 ns. -/
def mkStamp (s ns fr : Nat) : Nat := s * secU + ns * nsU + fr

/-- Seconds of a stamp. -/
def stSec (t : Nat) : Nat := t / secU % 2 ^ 48

/-- Nanoseconds of a stamp. -/
def stNs (t : Nat) : Nat := t % secU / nsU

/-- Fraction of a stamp, in 2^-16 ns. -/
def stFr (t : Nat) : Nat := t % nsU

/-- Word A of the stamp layout: nanoseconds (R69). -/
def stampA (t : Nat) : Word := w32 (stNs t)

/-- Word B of the stamp layout: seconds [15:0] and the fraction (R69). -/
def stampB (t : Nat) : Word := w32 (stSec t % 65536 * 65536 + stFr t)

/-- Word C of the stamp layout: seconds [47:16] (R69). -/
def stampC (t : Nat) : Word := w32 (stSec t / 65536)

/-- The stamp that three layout words hold. -/
def ofStampWords (a b c : Word) : Nat :=
  mkStamp (c.toNat * 65536 + b.toNat / 65536) a.toNat (b.toNat % 65536)

/-- A stamp word A is valid when its nanoseconds do not exceed 999,999,999 (R69). -/
def stampAValid (a : Word) : Bool := a.toNat ≤ 999999999

/-- The stamp as twelve big-endian bytes: seconds, nanoseconds, fraction. -/
def stampBE (t : Nat) : Bytes := toBE 6 (stSec t) ++ toBE 4 (stNs t) ++ toBE 2 (stFr t)

end Sys2Proof.Machine
end

