-- ==== Sys2Proof/Machine/Crypto.lean ====
section
/-! DEFINITION. AES, GCM and GMAC as the manual names them for the seal units, the key store and the console (R245, R431, R434). -/
namespace Sys2Proof.Machine

/-! ## AES (FIPS 197), on numbers of one byte -/

/-- Entries 0 to 63 of the S-box. -/
def aesBox0 : List Nat :=
  [ 0x63, 0x7c, 0x77, 0x7b, 0xf2, 0x6b, 0x6f, 0xc5, 0x30, 0x01, 0x67, 0x2b, 0xfe, 0xd7, 0xab, 0x76,
    0xca, 0x82, 0xc9, 0x7d, 0xfa, 0x59, 0x47, 0xf0, 0xad, 0xd4, 0xa2, 0xaf, 0x9c, 0xa4, 0x72, 0xc0,
    0xb7, 0xfd, 0x93, 0x26, 0x36, 0x3f, 0xf7, 0xcc, 0x34, 0xa5, 0xe5, 0xf1, 0x71, 0xd8, 0x31, 0x15,
    0x04, 0xc7, 0x23, 0xc3, 0x18, 0x96, 0x05, 0x9a, 0x07, 0x12, 0x80, 0xe2, 0xeb, 0x27, 0xb2, 0x75 ]

/-- Entries 64 to 127 of the S-box. -/
def aesBox1 : List Nat :=
  [ 0x09, 0x83, 0x2c, 0x1a, 0x1b, 0x6e, 0x5a, 0xa0, 0x52, 0x3b, 0xd6, 0xb3, 0x29, 0xe3, 0x2f, 0x84,
    0x53, 0xd1, 0x00, 0xed, 0x20, 0xfc, 0xb1, 0x5b, 0x6a, 0xcb, 0xbe, 0x39, 0x4a, 0x4c, 0x58, 0xcf,
    0xd0, 0xef, 0xaa, 0xfb, 0x43, 0x4d, 0x33, 0x85, 0x45, 0xf9, 0x02, 0x7f, 0x50, 0x3c, 0x9f, 0xa8,
    0x51, 0xa3, 0x40, 0x8f, 0x92, 0x9d, 0x38, 0xf5, 0xbc, 0xb6, 0xda, 0x21, 0x10, 0xff, 0xf3, 0xd2 ]

/-- Entries 128 to 191 of the S-box. -/
def aesBox2 : List Nat :=
  [ 0xcd, 0x0c, 0x13, 0xec, 0x5f, 0x97, 0x44, 0x17, 0xc4, 0xa7, 0x7e, 0x3d, 0x64, 0x5d, 0x19, 0x73,
    0x60, 0x81, 0x4f, 0xdc, 0x22, 0x2a, 0x90, 0x88, 0x46, 0xee, 0xb8, 0x14, 0xde, 0x5e, 0x0b, 0xdb,
    0xe0, 0x32, 0x3a, 0x0a, 0x49, 0x06, 0x24, 0x5c, 0xc2, 0xd3, 0xac, 0x62, 0x91, 0x95, 0xe4, 0x79,
    0xe7, 0xc8, 0x37, 0x6d, 0x8d, 0xd5, 0x4e, 0xa9, 0x6c, 0x56, 0xf4, 0xea, 0x65, 0x7a, 0xae, 0x08 ]

/-- Entries 192 to 255 of the S-box. -/
def aesBox3 : List Nat :=
  [ 0xba, 0x78, 0x25, 0x2e, 0x1c, 0xa6, 0xb4, 0xc6, 0xe8, 0xdd, 0x74, 0x1f, 0x4b, 0xbd, 0x8b, 0x8a,
    0x70, 0x3e, 0xb5, 0x66, 0x48, 0x03, 0xf6, 0x0e, 0x61, 0x35, 0x57, 0xb9, 0x86, 0xc1, 0x1d, 0x9e,
    0xe1, 0xf8, 0x98, 0x11, 0x69, 0xd9, 0x8e, 0x94, 0x9b, 0x1e, 0x87, 0xe9, 0xce, 0x55, 0x28, 0xdf,
    0x8c, 0xa1, 0x89, 0x0d, 0xbf, 0xe6, 0x42, 0x68, 0x41, 0x99, 0x2d, 0x0f, 0xb0, 0x54, 0xbb, 0x16 ]

/-- The S-box. -/
def aesSub (x : Nat) : Nat :=
  if x < 64 then aesBox0.getD x 0 else if x < 128 then aesBox1.getD (x - 64) 0
  else if x < 192 then aesBox2.getD (x - 128) 0 else aesBox3.getD (x - 192) 0

/-- Multiplication by x in the AES field. -/
def xtime (a : Nat) : Nat := if a < 128 then a * 2 else (a * 2 - 256) ^^^ 0x1B

/-- Lists of bytes added in the field. -/
def xorL : List Nat → List Nat → List Nat
  | a :: r, b :: t => (a ^^^ b) :: xorL r t
  | l, [] => l
  | [], l => l

/-- Round constants. -/
def aesRcon (i : Nat) : Nat := [0x01, 0x02, 0x04, 0x08, 0x10, 0x20, 0x40, 0x80, 0x1B, 0x36].getD i 0

/-- The expanded key, newest word first, in words of four bytes; `nk` words of key. -/
def aesExpand (nk : Nat) : Nat → List (List Nat) → List (List Nat)
  | 0, w => w
  | n + 1, w =>
    let i := w.length
    let t := w.headD []
    let t := if i % nk = 0 then
        xorL ((t.drop 1 ++ t.take 1).map aesSub) [aesRcon (i / nk - 1), 0, 0, 0]
      else if 6 < nk && i % nk = 4 then t.map aesSub else t
    aesExpand nk n (xorL (w.getD (nk - 1) []) t :: w)

/-- Groups of four. -/
def fours : Nat → List Nat → List (List Nat)
  | 0, _ => []
  | n + 1, l => l.take 4 :: fours n (l.drop 4)

/-- The round keys of a key of 16 or 32 bytes, 16 bytes each. -/
def aesKeys (key : List Nat) : List (List Nat) :=
  let nk := key.length / 4
  let w := (aesExpand nk (4 * (nk + 7) - nk) (fours nk key).reverse).reverse.flatten
  (List.range (nk + 7)).map (fun i => (w.drop (16 * i)).take 16)

/-- SubBytes and ShiftRows. -/
def aesShift (b : List Nat) : List Nat :=
  [0, 5, 10, 15, 4, 9, 14, 3, 8, 13, 2, 7, 12, 1, 6, 11].map (fun i => aesSub (b.getD i 0))

/-- MixColumns. -/
def aesMix : List Nat → List Nat
  | a :: b :: c :: d :: r =>
    let t := a ^^^ b ^^^ c ^^^ d
    (a ^^^ t ^^^ xtime (a ^^^ b)) :: (b ^^^ t ^^^ xtime (b ^^^ c)) :: (c ^^^ t ^^^ xtime (c ^^^ d)) ::
      (d ^^^ t ^^^ xtime (d ^^^ a)) :: aesMix r
  | l => l

/-- The rounds after the first key addition. -/
def aesRounds : List (List Nat) → List Nat → List Nat
  | [], b => b
  | [k], b => xorL (aesShift b) k
  | k :: ks, b => aesRounds ks (xorL (aesMix (aesShift b)) k)

/-- One block under the round keys. -/
def aesBlock (ks : List (List Nat)) (b : List Nat) : List Nat := aesRounds (ks.drop 1) (xorL b (ks.headD []))

/-! ## GCM (SP 800-38D), blocks as numbers of 128 bits -/

/-- The bytes of a number, most significant first. -/
def natBytes (n v : Nat) : List Nat := (List.range n).map (fun i => v / 256 ^ (n - 1 - i) % 256)

/-- A byte list as a number, most significant first. -/
def bytesNat (l : List Nat) : Nat := l.foldl (fun a x => a * 256 + x) 0

/-- The block cipher on a number of 128 bits. -/
def aesNat (ks : List (List Nat)) (x : Nat) : Nat := bytesNat (aesBlock ks (natBytes 16 x))

/-- The product in the field of GCM: the bits of `x` from the most significant down, with `v` the running multiple. -/
def gmulLoop (x : Nat) : Nat → Nat → Nat → Nat
  | 0, z, _ => z
  | n + 1, z, v =>
    let z := if x / 2 ^ n % 2 = 1 then z ^^^ v else z
    gmulLoop x n z (if v % 2 = 1 then (v / 2) ^^^ (0xE1 * 2 ^ 120) else v / 2)

def gmul (x y : Nat) : Nat := gmulLoop x 128 0 y

/-- Blocks of 16 bytes, the last padded with zeros. -/
def blocks16 : Nat → List Nat → List Nat
  | 0, _ => []
  | n + 1, l => if l.isEmpty then [] else bytesNat ((l.take 16) ++ List.replicate (16 - (l.take 16).length) 0) :: blocks16 n (l.drop 16)

/-- GHASH over additional data and ciphertext. -/
def ghash (h : Nat) (aad ct : List Nat) : Nat :=
  (blocks16 (aad.length / 16 + 1) aad ++ blocks16 (ct.length / 16 + 1) ct ++ [aad.length * 8 * 2 ^ 64 + ct.length * 8]).foldl
    (fun y x => gmul (y ^^^ x) h) 0

/-- Counter mode from counter block `c` on. -/
def gctr (ks : List (List Nat)) : Nat → Nat → List Nat → List Nat
  | 0, _, _ => []
  | n + 1, c, l =>
    if l.isEmpty then []
    else (xorL (l.take 16) (natBytes 16 (aesNat ks c))).take (l.take 16).length ++
      gctr ks n (c / 2 ^ 32 * 2 ^ 32 + (c + 1) % 2 ^ 32) (l.drop 16)

/-- GCM encryption or decryption of a text under a 96-bit IV. -/
def gcmCrypt (key : List Nat) (iv : Nat) (text : List Nat) : List Nat :=
  gctr (aesKeys key) (text.length / 16 + 1) (iv * 2 ^ 32 + 2) text

/-- The GCM tag of additional data and ciphertext under a 96-bit IV. -/
def gcmTag (key : List Nat) (iv : Nat) (aad ct : List Nat) : Nat :=
  let ks := aesKeys key
  ghash (aesNat ks 0) aad ct ^^^ aesNat ks (iv * 2 ^ 32 + 1)

/-- GMAC: the tag over additional data alone (R245). -/
def gmac (key : List Nat) (iv : Nat) (aad : List Nat) : Nat := gcmTag key iv aad []

/-- Bytes as numbers. -/
def natsOf (b : Bytes) : List Nat := b.map (·.toNat)

end Sys2Proof.Machine
end

