-- ==== Sys2Proof/Config.lean ====
section
/-! DEFINITION. The values that the manual leaves open: opaque, so that no proof can lean on one (log entries 10 to 14). -/
namespace Sys2Proof.Config

/-- RX_FIXED of a port row and FEC code, in 2^-8 ns: R73 says that the manual does not list it (log entry 10). -/
opaque rxFixed : Nat → Nat → Nat

/-- TX_FIXED of a port row and FEC code, in 2^-8 ns (R73, log entry 10). -/
opaque txFixed : Nat → Nat → Nat

/-- What AM_LOCK reads on a locked port whose PCS has no alignment markers (R97, log entry 220). -/
opaque amWithoutMarkers : Bool

/-- A value that the manual leaves open, by the number of the draw (log entry 11). -/
opaque freeValue : Nat → Nat

/-- PG_HWREV of a page: R32 gives no number (log entry 12). -/
opaque hwRev : Nat → Nat

/-- FAIL_REASON of a page whose check refuses a window that closes before it opens, where its table names none (R90, log entry 240). -/
opaque windowReason : Nat → BitVec 8

/-- The 32 check bits of a burst: R355 does not give the code (log entry 13). -/
opaque hbmCheck : Nat → Nat

/-- The playout phase in ns that an epoch record reports for a pseudowire: no rule holds the playout instant (log entry 14). -/
opaque playoutPhase : Nat → Nat → Nat

/-- What byte `i` of a C-3 subframe holds: the spec leaves the places to G.707 and gives none (log entry 223). -/
opaque c3Place : Nat → Nat

/-- Fixed stuff and overhead bytes of a transmitted SDH signal that the spec gives no value, by position (log entry 224). -/
opaque sdhOther : Nat → Nat

/-- The rate that clock recovery sets, before its capture range: by CLK_MODE, the last rate and the two measures of its reference (R133, log
entry 225). -/
opaque clockRate : Nat → Int → Nat → Nat → Int

/-- The version field of IDCODE by silicon revision, where it is not B0 (R515, log entry 257). -/
opaque idVersion : Nat → Nat

end Sys2Proof.Config
end

