-- ==== Sys2Proof/Machine/Sparse.lean ====
section
/-! DEFINITION. Sparse tables and sets in one canonical form: keys strictly rising, and no entry that equals what an unlisted key reads as. -/
namespace Sys2Proof.Machine

/-- A sparse table: an unlisted key reads as the default that its reader names. -/
abbrev Tab (α : Type) := List (Nat × α)

/-- The value at a key. -/
def look {α : Type} (d : α) : Tab α → Nat → α
  | [], _ => d
  | (k, v) :: r, i => if i = k then v else look d r i

/-- The entry at a key, when one is listed. -/
def find? {α : Type} : Tab α → Nat → Option α
  | [], _ => none
  | (k, v) :: r, i => if i = k then some v else find? r i

/-- The table with a listed entry written, whatever its value. -/
def ins {α : Type} (m : Tab α) (i : Nat) (x : α) : Tab α :=
  match m with
  | [] => [(i, x)]
  | (k, v) :: r =>
    if i < k then (i, x) :: (k, v) :: r
    else if i = k then (i, x) :: r
    else (k, v) :: ins r i x

/-- The table without a key. -/
def del {α : Type} (m : Tab α) (i : Nat) : Tab α := m.filter (fun e => !(e.1 == i))

/-- The table with one key written; the default removes the entry. -/
def put {α : Type} [DecidableEq α] (d : α) (m : Tab α) (i : Nat) (x : α) : Tab α :=
  match m with
  | [] => if x = d then [] else [(i, x)]
  | e :: r => if x = d then del (e :: r) i else ins (e :: r) i x

/-- Keys strictly rising. -/
def rising {α : Type} : Tab α → Bool
  | [] => true
  | [_] => true
  | (a, _) :: (b, y) :: r => decide (a < b) && rising ((b, y) :: r)

/-- The canonical form of a table with one default. -/
def Tab.wf {α : Type} [DecidableEq α] (d : α) (m : Tab α) : Bool :=
  rising m && m.all (fun e => !(decide (e.2 = d)))

/-- The canonical form of a table whose default depends on the key. -/
def Tab.wfBy {α : Type} [DecidableEq α] (d : Nat → α) (m : Tab α) : Bool :=
  rising m && m.all (fun e => !(decide (e.2 = d e.1)))

/-- Membership in a sorted set of numbers. -/
def has (m : List Nat) (i : Nat) : Bool := m.contains i

/-- The set with one element more. -/
def add (m : List Nat) (i : Nat) : List Nat :=
  match m with
  | [] => [i]
  | k :: r => if i < k then i :: k :: r else if i = k then k :: r else k :: add r i

/-- The set without an element. -/
def rem (m : List Nat) (i : Nat) : List Nat := m.filter (fun k => !(k == i))

/-- The numbers from `a` up, `n` of them. -/
def upto (a n : Nat) : List Nat := (List.range n).map (· + a)

end Sys2Proof.Machine
end

