-- ==== Sys2Proof/Machine/State.lean ====
section
/-! DEFINITION. The state of the XE5120 as plain data: the register file, the tables, and for each block the queues, engines and counters that the manual gives it; and State.reset, the machine right after reset release. -/
namespace Sys2Proof.Machine

/-- Reasons to stop with a fault. The XE5120 has no command that halts the whole block, so no meaning raises one. -/
inductive Fault where
  /-- Raised by no command of this model; present because a block's outcome has this third form. Safe. -/
  | none_raised
  deriving DecidableEq, Repr

/-- Reasons to refuse a command. -/
inductive Refusal where
  /-- The command has no meaning yet: raised only by an arm of exec that names its mnemonic. Safe. -/
  | notModelled (mnemonic : String)
  deriving DecidableEq, Repr

/-! ## Die-to-die link (R13-R19) -/

/-- The link between the dies: per slice and direction (key 64 * direction + slice). -/
structure DieLink where
  /-- Uncorrectable flits of the epoch in progress, per slice and direction (R19). -/
  uncorr : Tab Nat := []
  /-- Uncorrectable flits checked at or after the issued boundary, which open the next epoch's counts (R19, R21). -/
  uncorrNext : Tab Nat := []
  /-- The D2D fault state (R19). -/
  fault : Bool := false
  /-- Corrected flits delivered, per channel and direction (R18). -/
  corrected : Tab Nat := []
  /-- Frames discarded at the wrong channel, per channel (R13). -/
  wrong : Tab Nat := []
  /-- Frames discarded with an uncorrectable flit, per channel (R18). -/
  lostFrames : Tab Nat := []
  /-- The replay buffer of each direction of channels S and M, newest last, at most 64 flits (R18). -/
  replayBuf : Tab (List (List FlitItem)) := []
  /-- Flits withheld until a requested replay, per direction and channel (R18). -/
  awaiting : Tab (List (List FlitItem)) := []
  /-- Messages of channels S and M delivered, per direction and channel. -/
  delivered : Tab Nat := []
  /-- Flits of channel M sent in each direction: the next one's place in its group of eight slots is this modulo 8 (R15). -/
  slotsSent : Tab Nat := []
  /-- The place in its channel's ascending order of slices that the next flit to deliver holds, per direction and channel (R16). -/
  nextPlace : Tab Nat := []
  /-- Flits of channels D, X and C that wait for those sent before them, oldest first, by 64 * direction + slice (R16). -/
  early : Tab (List (Bool × List FlitItem)) := []
  deriving DecidableEq, Repr

/-! ## Register pages, lock, log, snapshots, interrupts (R29-R67) -/

/-- The originators of R54. -/
abbrev OriginCode := Nat

/-- The register file of every page and what the access rules keep beside it. -/
structure Regs where
  /-- Live registers by key page * 65536 + offset; an unlisted register holds its reset value. -/
  live : Tab Word := []
  /-- Chamber words by the key of the live register that they stage. -/
  chamber : Tab Word := []
  /-- Keys of the chamber words marked dirty (R43). -/
  dirty : List Nat := []
  /-- Posted WP writes not yet landed, per page: offset and value (R35). -/
  posted : Tab (Nat × Word × Nat) := []
  /-- Pages with a soft reset in progress (R34). -/
  softRst : List Nat := []
  /-- Words latched by reads, by origin code * 2^48 + register key (R37, R71); the words of a counter pair and of a histogram
  follow from 2^40 and 2^41. -/
  latch : Tab Word := []
  /-- Words of the tables behind the indirect windows, by table number, entry and word. -/
  tbl : Tab Word := []
  /-- Words written to a staged entry and not yet committed, by table number, entry and word. -/
  staged : Tab Word := []
  /-- Values of frame-judged words replaced by the last lock, for frames of the previous generation (R48). -/
  oldLive : Tab Word := []
  /-- Pages that still hold a previous-generation copy (R48). -/
  oldPages : List Nat := []
  /-- The 48-bit performance counters, by page * 8 + k (R62). -/
  pm : Tab Nat := []
  /-- Counters at the last snapshot, by page * 8 + k (R64). -/
  pmSnap : Tab Nat := []
  /-- Cycle counter at the last snapshot, by page (R64). -/
  cycSnap : Tab Nat := []
  /-- Epoch of the last snapshot, by page (R64). -/
  snapEpoch : Tab Nat := []
  /-- Pages whose counters stop 8 cycles after an overflow (R63). -/
  ovfPend : List Nat := []
  deriving DecidableEq, Repr

/-- The states of the lock engine (R41). -/
inductive LockState where
  | idle | fill | level | ready | open_ | done | refused
  deriving DecidableEq, Repr

/-- A marshal lock request: the pages it names and its apply epoch (R41, R422). -/
structure LockReq where
  pages : List Nat
  epoch : Nat
  deriving DecidableEq, Repr

/-- The lock engine (R39-R52). -/
structure Lock where
  st : LockState := .idle
  ownerMarshal : Bool := false
  /-- Member pages: the PG_CTL.LOCK_MEMBER bits. -/
  members : List Nat := []
  /-- A marshal request held one deep (R41). -/
  held : Option LockReq := none
  /-- Epoch boundaries passed in FILL while a marshal request is held. -/
  heldEpochs : Nat := 0
  reason : Nat := 0
  failPage : Nat := 0
  failDetail : Nat := 0
  /-- Apply epoch named at GO; 0 is as soon as possible (R46). -/
  applyEpoch : Nat := 0
  /-- Epoch boundaries passed since GO. -/
  levelEpochs : Nat := 0
  /-- The boundary for which the apply command was preannounced. -/
  bound : Option Nat := none
  appliedEpoch : Nat := 0
  gen : Nat := 0
  /-- Dirty words of the owner's kind frozen at GO, and their digest. -/
  words : Nat := 0
  digest : Nat := 0
  /-- Origin code of the owner, for the records of R54. -/
  ownerOrigin : Nat := 0
  /-- Page check results: pages that passed, and pages that failed (R45). -/
  pass : List Nat := []
  fail : List Nat := []
  /-- The pair logic reports paired operation. -/
  paired : Bool := false
  /-- FAIL_REASON by page, from levelling or from an enable that was refused (R45, R96). -/
  why : Tab Nat := []
  /-- Boundary T of the lock that is OPEN, as a stamp. -/
  openAt : Nat := 0
  deriving DecidableEq, Repr

/-- One change-log record (R54). -/
structure LogRec where
  seq : Nat
  offset : Nat
  epochLo : Nat
  page : Nat
  origin : Nat
  type : Nat
  stamp : Nat
  w5 : Nat
  w6 : Nat
  chain : Nat
  deriving DecidableEq, Repr

/-- An open table batch (R57, R520). -/
structure Batch where
  page : Nat
  table : Nat
  origin : Nat
  first : Nat
  count : Nat
  /-- The CRC register over the contributions so far, before the final XOR. -/
  crc : Nat
  stamp : Nat
  epochLo : Nat
  deriving DecidableEq, Repr

/-- The change log (R53-R60). -/
structure Log where
  /-- The ring by index; every record not yet overwritten. -/
  ring : Tab LogRec := []
  wrSeq : Nat := 0
  rdSeq : Nat := 0
  lastChain : Nat := 0
  /-- Records lost since the last record written (R59). -/
  lostRun : Nat := 0
  /-- Open table batches, oldest first, at most one for each origin (R57). -/
  batches : List Batch := []
  dmaHead : Nat := 0
  /-- Records copied to the host ring, by ring position (R60). -/
  hostRing : Tab LogRec := []
  deriving DecidableEq, Repr

/-- A snapshot command (R64). -/
structure SnapCmd where
  snap : Bool
  freeze : Bool
  thaw : Bool
  deriving DecidableEq, Repr

/-- Global freeze and snapshot (R64). -/
structure Snap where
  waiting : Option SnapCmd := none
  bound : Option SnapCmd := none
  frozen : Bool := false
  /-- The domains whose counters a FREEZE has stopped; one that missed the boundary did not act at it (R22). -/
  doms : List Nat := []
  epoch : Nat := 0
  deriving DecidableEq, Repr

/-- Interrupt aggregation (R65); a vector is TARGET * 2048 + VECTOR. -/
structure Irq where
  disarmed : List Nat := []
  /-- Re-armed vectors whose message waits for CTL_IRQ_HOLDOFF. -/
  waiting : List Nat := []
  /-- Uptime of the last message on each vector, in 2^-32 ns. -/
  lastMsg : Tab Nat := []
  /-- Messages sent on each vector. -/
  sent : Tab Nat := []
  deriving DecidableEq, Repr

/-- What the last read or refused access returned to its requester. -/
structure Resp where
  error : Bool := false
  data : List Word := []
  deriving DecidableEq, Repr

/-! ## Time (R68-R92) -/

/-- TIM_STATE.STATE (R83). -/
inductive ServoState where
  | free | acquiring | locked | holdover
  deriving DecidableEq, Repr

/-- A preannounced boundary (R88): its epoch, its time, and the step that it carries. -/
structure Pre where
  epoch : Nat
  at_ : Nat
  step : Option Nat
  deriving DecidableEq, Repr

/-- An entry of the two-step stamp FIFO (R78). -/
structure TxTs where
  chan : Nat
  msgType : Nat
  seqId : Nat
  dom : Nat
  stamp : Nat
  deriving DecidableEq, Repr

/-- The time unit. Times are in 2^-32 ns, stamps and boundaries in 2^-16 ns. -/
structure Tim where
  /-- The master counter (R68). -/
  now : Nat := 0
  /-- Time since reset release, which no step moves; the cycle counters count from it (R61). -/
  up : Nat := 0
  /-- What the idle cycles so far left of a whole 2^-32 ns, in parts of cycleDen. -/
  frac : Nat := 0
  run : Bool := false
  /-- Number of the next boundary to be issued. -/
  nextIssue : Nat := 0
  /-- The boundary issued and not yet reached. -/
  issued : Option Pre := none
  /-- First pages of the domains that do not hold the issued preannouncement (R22). -/
  missPages : List Nat := []
  /-- Epoch in force (R88). -/
  inForce : Option Nat := none
  /-- The first boundary since RUN, as a stamp; no epoch is in force before it (R88). -/
  firstB : Nat := 0
  /-- The stretches after the steps applied: from T + d to B the epoch that T opened runs on (R89): start, end, epoch. -/
  stretch : List (Nat × Nat × Nat) := []
  /-- Step committed and not yet applied, in 2^-16 ns (R89). -/
  step : Option Nat := none
  servo : ServoState := .free
  /-- The PI accumulator I, in TIM_FREQ_ADJ units times 2^12. -/
  acc : Int := 0
  /-- Consecutive inputs in and out of THR. -/
  inRun : Nat := 0
  outRun : Nat := 0
  /-- The ADJ values of the last inputs, newest first, at most AVG of them. -/
  adjHist : List Int := []
  backStep : Bool := false
  /-- Uptime at which HOLDOVER was entered, and of the last servo input. -/
  holdStart : Nat := 0
  lastInput : Nat := 0
  /-- Signed error of the TM replica at the last correction, in 2^-8 ns (R70). -/
  replicaErr : Int := 0
  txts : List TxTs := []
  /-- Receive stamp and sequenceId of the last Pdelay_Req of each channel (R77). -/
  pdReq : Tab (Nat × Nat) := []
  /-- RX_USER and TX_USER writes not older than 1 µs: channel and word (2, 3), the instant of the write, the value before it. -/
  userOld : List (Nat × Nat × Word) := []
  /-- A servo input not yet taken by the loop, in 2^-8 ns (R81). -/
  pendOfs : Option Int := none
  /-- The last offset that the servo took, in 2^-8 ns (R83). -/
  lastOfs : Int := 0
  refActive : Nat := 0
  refPending : Option Nat := none
  /-- OSC_OK, SYNCE_OK, TEN_MHZ_OK, PLL_LOCK (R80). -/
  refStat : Nat := 0
  /-- Recovered-clock outputs A and B held low by squelch (R84). -/
  sqA : Bool := false
  sqB : Bool := false
  /-- Last accepted 1PPS input edge: its stamp, and the uptime at which it came (R85). -/
  ppsIn : Option Nat := none
  ppsUp : Nat := 0
  /-- Last rising edge of the 1PPS output and of the 10 MHz output with it (R86). -/
  ppsOut : Option Nat := none
  tenmOut : Option Nat := none
  /-- End of the last 1PPS pulse (R86). -/
  ppsFall : Nat := 0
  deriving DecidableEq, Repr

/-! ## Frames -/

/-- A frame inside the device, from its reception to its last bit. -/
structure Frm where
  /-- Source number (R140). -/
  src : Nat := 0
  bytes : Bytes := []
  /-- Reference instant (R47). -/
  stamp : Nat := 0
  /-- Generation number in force at the reference instant (R48). -/
  gen : Nat := 0
  /-- Marked bad (R102). -/
  bad : Bool := false
  /-- The FCS is recomputed when the last byte arrives: the lookups rewrote the frame before its end (R179). -/
  rew : Bool := false
  /-- The last byte has been received. -/
  ended : Bool := true
  /-- Marked bad by the end-of-frame length check (R153). -/
  lenBad : Bool := false
  /-- A mirror copy, which is never mirrored again (R276). -/
  mir : Bool := false
  deriving DecidableEq, Repr

/-! ## Line interface (R93-R114) -/

/-- LIC_LINK_STAT.STATE (R97). -/
inductive PortState where
  | disabled | acquire | align | up | localFault | remoteFault
  deriving DecidableEq, Repr

/-- How what the MAC sends begins (R103): a whole frame with an SFD, an express frame with SMD-E, the first fragment of a preemptable frame
with SMD-S and the frame's number modulo 4, a continuation with SMD-C, that number and its fragment count. -/
inductive TxStart where
  | sfd | smdE | smdS (n : Nat) | smdC (n frag : Nat)
  deriving DecidableEq, Repr

/-- How what the MAC sends ends: with the FCS, with its bitwise inverse (R98, R102), or a fragment with its mCRC (R105). -/
inductive TxTail where
  | fcs | inverted | mcrc
  deriving DecidableEq, Repr

/-- What a lane's serializer puts out (R101): nothing, unpowered; a constant differential zero, muted; electrical idle, squelched; the
encoded bit stream. -/
inductive LaneOut where
  | off | zero | idle | stream
  deriving DecidableEq, Repr

/-- A frame in transmission, or suspended by a preemption (R105). -/
structure TxF where
  id : Nat
  /-- Class: 0-7 for E0-E7, 8-15 for B0-B7, 16 for a MAC control frame. -/
  cls : Nat
  /-- Bytes sent in fragments already closed. -/
  done : Nat
  /-- The last fragment sent ended with its mCRC. -/
  closed : Bool
  /-- The copy of an express frame, and the transmit stamp of the frame's first bit (R72). -/
  copy : Nat := 0
  stamp : Nat := 0
  /-- The transmit stamp of the fragment in transmission (R105). -/
  fragAt : Nat := 0
  /-- The delimiter of the fragment in transmission (R103). -/
  start : TxStart := .sfd
  /-- Length as granted (R284), and the MAC rate in Mb/s at its start. -/
  len : Nat := 0
  mbps : Nat := 0
  deriving DecidableEq, Repr

/-- A frame in reception: its number once it has been passed to the pipelines, its bytes up to MAX_LEN, all its bytes in
number, its receive stamp and generation. -/
structure RxF where
  id : Option Nat := none
  bytes : Bytes := []
  len : Nat := 0
  stamp : Nat := 0
  gen : Nat := 0
  /-- The receive stamp of the fragment in reception, and the frame's bytes before it (R108). -/
  fragAt : Nat := 0
  fragFrom : Nat := 0
  /-- Its first byte arrived while the port was not up for traffic (R522). -/
  off : Bool := false
  deriving DecidableEq, Repr

/-- The reassembly context of a channel (R106): the frame and the fragment count expected next. -/
structure Reasm where
  f : RxF
  expect : Nat
  deriving DecidableEq, Repr

/-- What a MAC has in reception now: nothing, a whole frame, a fragment of the context's frame, or a discarded fragment. -/
inductive RxNow where
  | none | whole | frag | junk
  deriving DecidableEq, Repr

/-- What the port last put on the wire. -/
structure Sent where
  bytes : Bytes
  tail : TxTail
  stamp : Nat
  start : TxStart := .sfd
  /-- What the serializers of its lanes put out (R101). -/
  wire : LaneOut := .stream
  deriving DecidableEq, Repr

/-- The MAC, PCS and port state of one network channel. -/
structure Port where
  st : PortState := .disabled
  /-- Lanes that the port has powered (R97, R521). -/
  lanes : Nat := 0
  anDone : Bool := false
  anPause : Bool := false
  blockLock : Bool := false
  amLock : Bool := false
  fecLock : Bool := false
  lfRx : Bool := false
  rfRx : Bool := false
  /-- LIC_PREEMPT_STAT.VERIFY, ACTIVE, and verify mPackets sent in this verification (R104). -/
  verify : Nat := 0
  active : Bool := false
  tries : Nat := 0
  /-- Respond mPackets sent. -/
  responds : Nat := 0
  ctx : Option Reasm := none
  /-- The frame in reception that arrives whole, not in fragments; what further bytes belong to. -/
  rx : Option RxF := none
  now : RxNow := .none
  /-- End of the hold of each bulk class held (R108). -/
  hold : Tab Nat := []
  /-- A PAUSE hold is running. -/
  linkPaused : Bool := false
  tx : Option TxF := none
  /-- A preemptable frame suspended between fragments. -/
  susp : Option TxF := none
  /-- Preemptable frames begun, modulo 4 (SMD-S0 to SMD-S3). -/
  smdNo : Nat := 0
  /-- PAUSE and PFC frames requested by the pacer and not yet sent (R302). -/
  ctl : List Bytes := []
  /-- Egress staging: frames granted, by bulk class (R111). -/
  stage : Tab (List Nat) := []
  /-- Staged frames whose start the length rule has deferred (R300). -/
  deferred : List Nat := []
  last : Option Sent := none
  deriving DecidableEq, Repr

/-- The SerDes of one lane (LIC_NL_STAT, LIC_FL_STAT, LIC_BL_STAT). -/
structure Lane where
  st : Nat := 0
  signal : Bool := false
  cdr : Bool := false
  adapt : Bool := false
  powered : Bool := false
  eye : Nat := 0
  deriving DecidableEq, Repr

/-- The line interface. -/
structure Lic where
  port : Tab Port := []
  nl : Tab Lane := []
  fl : Tab Lane := []
  bl : Tab Lane := []
  /-- Frames inside the device, by number; the number of the next frame. -/
  frames : Tab Frm := []
  nextFrame : Nat := 0
  deriving DecidableEq, Repr

/-! ## SDH channels and circuit emulation (R115-R139) -/

/-- A defect with its run: declared after `n` frames, cleared after `n` frames without it (R121). -/
structure Dfx where
  on : Bool := false
  n : Nat := 0
  deriving DecidableEq, Repr

/-- A trace under reception and the last accepted one (R121). -/
structure Trace where
  buf : Bytes := []
  last : Bytes := []
  same : Nat := 0
  acc : Bytes := []
  deriving DecidableEq, Repr

/-- A virtual container under reception behind a pointer: the pointer's defects and runs, the offset followed, the bytes of the container in
progress and the parity of the last whole one (R120, R121, R123). -/
structure Vc where
  ais : Dfx := {}
  lop : Bool := false
  inv : Nat := 0
  ndf : Nat := 0
  /-- The last value with a normal NDF and how often in a row. -/
  cand : Nat := 0
  eq : Nat := 0
  ptr : Nat := 0
  buf : Bytes := []
  bip : Option Nat := none
  deriving DecidableEq, Repr

/-- What the channel sent in its last transmitted frame: M1, K1, K2, and the whole frame as it went to the line (R120, R122, R123). -/
structure SdhSent where
  m1 : Nat := 0
  k1 : Nat := 0
  k2 : Nat := 0
  line : Bytes := []
  deriving DecidableEq, Repr

/-- One SDH channel. -/
structure SdhCh where
  /-- FRAME: SEARCH 0, CONFIRM 1, IN_FRAME 2, ERRORED 3 (R118). -/
  frame : Nat := 0
  /-- The bit position of the pattern in the frame time. -/
  cand : Nat := 0
  errs : Nat := 0
  /-- The line bytes of the last frame time. -/
  prev : Bytes := []
  /-- Parities of the last whole frame: BIP-8 as received, BIP-24N without regenerator section overhead (R120). -/
  b1 : Option Nat := none
  b2 : List Nat := []
  los : Bool := false
  lof : Bool := false
  oofRun : Nat := 0
  inRun : Nat := 0
  msAis : Dfx := {}
  msRdi : Dfx := {}
  j0 : Trace := {}
  j0Tim : Bool := false
  k1 : Nat := 0
  k2 : Nat := 0
  kCand : Nat := 0
  kRun : Nat := 0
  /-- M1 value of the next transmitted frame (R120). -/
  m1Next : Nat := 0
  /-- The consequent actions of LOS, LOF, MS-AIS and J0 TIM are on (R122). -/
  lineAct : Bool := false
  /-- Transmitted frames, modulo 16: the multiframe phase is its low two bits, the byte of a 16-byte trace all four. -/
  txPhase : Nat := 0
  sent : SdhSent := {}
  /-- Parities of the last transmitted frame. -/
  txB1 : Nat := 0
  txB2 : List Nat := []
  deriving DecidableEq, Repr

/-- One received and transmitted VC-4 path. -/
structure SdhPath where
  vc : Vc := {}
  uneq : Dfx := {}
  plm : Dfx := {}
  rdi : Dfx := {}
  c2 : Nat := 0
  j1 : Trace := {}
  j1Tim : Bool := false
  /-- The TU multiframe phase of the next VC-4, as H4 announced it. -/
  mf : Nat := 0
  /-- G1 [7:4] of the next transmitted frame. -/
  rei : Nat := 0
  /-- Consequent actions on: tributaries as TU-AIS; HP-RDI sent (R122). -/
  actAis : Bool := false
  actRdi : Bool := false
  /-- The VC-4 in transmission. -/
  txVc : Bytes := []
  deriving DecidableEq, Repr

/-- One tributary. -/
structure Trib where
  vc : Vc := {}
  /-- TU bytes received and not yet demapped. -/
  raw : Bytes := []
  rdi : Dfx := {}
  label : Bool := false
  e1lof : Bool := false
  fasRun : Nat := 0
  /-- E1 bits not yet framed; the next E1 frame is one without alignment signal (R121, R130). -/
  hunt : List Bool := []
  odd : Bool := false
  /-- The count for the next transmitted V5 or G1 (R120). -/
  rei : Nat := 0
  act : Bool := false
  /-- Bits that the last multiframe gave (R125, R133). -/
  bitsIn : Nat := 0
  /-- Bits that play into the mapper's buffer at the recovered rate, with the fraction of a bit in hand (R133). -/
  asm : List Bool := []
  acc : Nat := 0
  /-- The next E1 frame assembled from timeslots is one without alignment signal. -/
  txOdd : Bool := false
  /-- The mapper's buffer, at most 512 bits, and its underrun (R126). -/
  tx : List Bool := []
  under : Bool := true
  /-- Justification decided for the unit in progress, and the control bits sent (R126). -/
  dec : Bool := false
  sentC1 : Bool := true
  sentC2 : Bool := false
  /-- V5 REI, RDI and label last sent (R120, R122, R124). -/
  sentRei : Bool := false
  sentRdi : Bool := false
  sentLabel : Nat := 0
  /-- Parity of the container in transmission and of the one before it; the bytes of a VC-3 still to send. -/
  txBip : Nat := 0
  txPrev : Nat := 0
  txTail : Bytes := []
  deriving DecidableEq, Repr

/-- One pseudowire (R128-R133). -/
structure Pw where
  seq : Nat := 0
  /-- Demapped bits not yet packetised. -/
  rx : List Bool := []
  /-- Packets held in the jitter buffer, by sequence number: RTP timestamp and payload. -/
  jb : Tab (Nat × Bytes) := []
  /-- Bits played and not yet taken towards the mapper. -/
  play : List Bool := []
  /-- EMPTY 0, FILLING 1, PLAYING 2, LOPS 3. -/
  st : Nat := 0
  next : Nat := 0
  missing : Nat := 0
  run : Nat := 0
  lastSeq : Nat := 0
  rRx : Bool := false
  /-- Packets received with R = 1 (R129). -/
  rCount : Nat := 0
  /-- Recovered rate as its offset from the nominal rate, in units of 2^-8 ppb; held in LOPS (R133). -/
  rate : Int := 0
  /-- Fill summed over the packet times of the running average, their number, and the last average (R133). -/
  fillSum : Nat := 0
  fillN : Nat := 0
  fillAvg : Nat := 0
  /-- What the baton added to the packets held while this device stands by (R134, R402). -/
  fillOfs : Int := 0
  deriving DecidableEq, Repr

/-- One judged second of an entity, held for 10 s (R136). -/
structure PmSec where
  sec : Nat
  es : Bool
  ses : Bool
  eb : Nat
  unav : Bool
  deriving DecidableEq, Repr

/-- A monitored entity: the second in progress and the seconds held (R135, R136). -/
structure PmEnt where
  eb : Nat := 0
  dfct : Bool := false
  bad : Bool := false
  hold : List PmSec := []
  unav : Bool := false
  run : Nat := 0
  deriving DecidableEq, Repr

/-- The SDH block. -/
structure Sdh where
  ch : Tab SdhCh := []
  /-- Paths by channel * 64 + AU-4 number - 1. -/
  path : Tab SdhPath := []
  trib : Tab Trib := []
  pw : Tab Pw := []
  /-- Entities by channel * 65536 + entity. -/
  ent : Tab PmEnt := []
  /-- Bin words by (((bin * 32 + channel) * 65536) + entity) * 4 + word (R137). -/
  bin : Tab Nat := []
  /-- The bins close at the next issued boundary (R138); 15-minute and 24-hour boundaries awaiting COMPLETE. -/
  alignPend : Bool := false
  wait15 : Bool := false
  waitDay : Bool := false
  deriving DecidableEq, Repr

/-! ## Parse and classify (R140-R163) -/

/-- A VLAN tag. -/
structure Tag where
  pcp : Nat
  dei : Nat
  vid : Nat
  deriving DecidableEq, Repr

/-- An MPLS label stack entry. -/
structure Label where
  label : Nat
  tc : Nat
  s : Bool
  ttl : Nat
  deriving DecidableEq, Repr

/-- An IPv4 or IPv6 header. -/
structure IpHdr where
  off : Nat
  hlen : Nat
  src : Nat
  dst : Nat
  proto : Nat
  dscp : Nat
  ecn : Nat
  ttl : Nat
  tot : Nat
  flow : Nat
  deriving DecidableEq, Repr

/-- The parse result of a frame (R150). -/
structure Parse where
  da : Nat := 0
  sa : Nat := 0
  /-- Type after tags and HSR, and the offset of the byte after it. -/
  type : Nat := 0
  typeEnd : Nat := 0
  tags : List Tag := []
  hsr : Bool := false
  hsrPath : Nat := 0
  hsrSize : Nat := 0
  hsrSeq : Nat := 0
  /-- Top labels, at most four, the stack depth, the nibble after it, and the offset of the stack. -/
  mpls : List Label := []
  depth : Nat := 0
  nib : Nat := 0
  mplsOff : Nat := 0
  mplsEnd : Nat := 0
  pw : Bool := false
  gach : Option Nat := none
  ip4 : Option IpHdr := none
  ip6 : Option IpHdr := none
  frag : Bool := false
  fragLater : Bool := false
  opts : Bool := false
  l4 : Option (Nat × Nat) := none
  l4Off : Nat := 0
  tcpFlags : Nat := 0
  ptpUdp : Bool := false
  /-- GOOSE or SV: APPID, Length, simulation bit, offset. -/
  grid : Option (Nat × Nat × Bool × Nat) := none
  /-- Its Reserved 1 [14:0] and Reserved 2. -/
  gridRes : Nat × Nat := (0, 0)
  /-- PTP: messageType, domainNumber, twoStepFlag. -/
  ptp : Option (Nat × Nat × Bool) := none
  llc : Bool := false
  partial_ : Bool := false
  extLimit : Bool := false
  fail : Nat := 0
  deriving DecidableEq, Repr

/-- An action of R160. -/
structure Act where
  w0 : Word := 0
  w1 : Word := 0
  w2 : Word := 0
  w3 : Word := 0
  deriving DecidableEq, Repr

/-- Where the lookups send a bulk frame (R165, R179). -/
inductive BDest where
  | dport (n : Nat)
  | mcast (g : Nat)
  /-- Punt queue, and the REASON that the host reads (R453). -/
  | punt (q why : Nat)
  /-- A queue that the host names (R454). -/
  | queue (q : Nat)
  | drop
  deriving DecidableEq, Repr

/-- What the pipeline decided for a frame (R161). -/
structure Decision where
  parse : Parse
  /-- 0-7 for E0-E7, 8-15 for B0-B7; none for a discarded frame. -/
  cls : Option Nat
  /-- The action applied, and whether only its COUNTER applies. -/
  act : Act
  counterOnly : Bool
  /-- The express contract that the class map or the source names. -/
  contract : Nat
  /-- Sequence number in the source's reorder sequence of its kind (R148). -/
  seq : Nat
  pipe : Nat
  /-- The result of the bulk lookups, once they have completed (R167). -/
  dest : Option BDest := none
  deriving DecidableEq, Repr

/-- A frame inside a pipeline, in order of dispatch. -/
structure InPipe where
  id : Nat
  src : Nat
  pipe : Nat
  deriving DecidableEq, Repr

/-- A completion held by the reorder stage: its frame, or none for a discard token (R148). -/
structure Compl where
  src : Nat
  express : Bool
  seq : Nat
  frame : Option Nat
  /-- The pipeline that it comes from. -/
  pipe : Nat
  deriving DecidableEq, Repr

/-- The parse and classify block. -/
structure Pac where
  /-- Header FIFOs by source * 2 + 1 for normal, source * 2 for urgent (R141). -/
  fifo : Tab (List Nat) := []
  rrUrgent : Nat := 0
  rrNormal : Nat := 0
  lastPipe : Nat := 16
  inPipe : List InPipe := []
  /-- Decisions of the frames released by their pipelines. -/
  dec : Tab Decision := []
  /-- Next sequence number given, by source * 2 + (0 express, 1 bulk), and next number to release (R148). -/
  seqNext : Tab Nat := []
  seqOut : Tab Nat := []
  held : List Compl := []
  /-- Completions on their way to the reorder stage, and bulk frames in their lookups. -/
  comps : List Compl := []
  lookups : List Nat := []
  /-- The suspect set of the heat controller (R149, R440). -/
  suspects : List Nat := []
  /-- Frames released toward the express lookup and toward channel D, in order. -/
  outX : List (Nat × Nat) := []
  outB : List Nat := []
  /-- Pipelines retired; pipeline withdrawn for a heat; it has not yet signalled PIPE_IDLE (R144, R145). -/
  retired : List Nat := []
  heat : Option Nat := none
  draining : Bool := false
  /-- The spare pipeline that stays withdrawn and idle (R438); the first one is a DESIGN CHOICE (log entry 52). -/
  idle : Option Nat := some 0
  /-- Background scanner: next slot, passes completed (R159). -/
  scanNext : Nat := 0
  scanPass : Nat := 0
  /-- The slot last written by software, and the cycle of the write (R159). -/
  slotWr : Option (Nat × Nat) := none
  pfLast : Nat := 0
  /-- WIDE bits at the last enable or applied lock (page check 0x01). -/
  wideInForce : Nat := 0
  deriving DecidableEq, Repr

/-! ## Forwarding tables (R164-R196) -/

/-- An entry of the MAC table (R176). -/
structure MacE where
  fid : Nat
  mac : Nat
  /-- [21:20] type, [19:0] value. -/
  dest : Nat
  static : Bool
  hit : Bool
  aged : Bool
  /-- The function charged with the entry (R184, R193). -/
  fn : Nat
  deriving DecidableEq, Repr

/-- An entry of the flow table, with its data words W12-W15 (R178). -/
structure FlowE where
  ktype : Nat
  vrf : Nat
  /-- Key words W2-W11. -/
  key : List Nat
  data : List Nat
  hit : Bool
  aged : Bool
  fn : Nat
  deriving DecidableEq, Repr

/-- A route of the route store (R170). -/
structure Route where
  vrf : Nat
  len : Nat
  addr : Nat
  data : List Nat
  fn : Nat
  deriving DecidableEq, Repr

/-- An MPLS entry: data words W12-W15 and the function charged. -/
structure MplsE where
  data : List Nat
  fn : Nat
  deriving DecidableEq, Repr

/-- A learn or move request (R183). -/
structure LearnReq where
  frame : Nat
  move : Bool
  fid : Nat
  mac : Nat
  dport : Nat
  /-- LEARN mode of the VLAN. -/
  mode : Nat
  deriving DecidableEq, Repr

/-- A record of the notify FIFO (R185). -/
structure Notify where
  type : Nat
  fid : Nat
  mac : Nat
  dest : Nat
  deriving DecidableEq, Repr

/-- A command slot (R189, R192). STATE: 0 IDLE, 1 QUEUED, 2 RUNNING, 3 DONE. -/
structure FtbSlot where
  state : Nat := 0
  code : Nat := 0
  /-- W0-W15 as committed. -/
  desc : List Nat := []
  /-- R1-R15. -/
  result : List Nat := []
  deriving DecidableEq, Repr

/-- An open walk (R190). -/
structure Walk where
  slot : Nat
  cursor : Nat
  last : Nat
  deriving DecidableEq, Repr

/-- A failed LPM word, until it is rebuilt: the family, the address bits that index it, the VRF and those bits (R195). -/
structure BadNode where
  v6 : Bool
  bits : Nat
  vrf : Nat
  pre : Nat
  deriving DecidableEq, Repr

/-- The forwarding tables and their engines. -/
structure Ftb where
  mac : Tab MacE := []
  flow : Tab FlowE := []
  v4 : Tab Route := []
  v6 : Tab Route := []
  mpls : Tab MplsE := []
  /-- Counter pairs: packets and bytes. -/
  cnt : Tab (Nat × Nat) := []
  /-- Counter pairs that wait for the length of a frame still in reception, by frame (R194). -/
  cntWait : Tab (List Nat) := []
  /-- Requests that wait for their frame's end, and the learn queue. -/
  waiting : List LearnReq := []
  learnQ : List LearnReq := []
  notify : List Notify := []
  slots : Tab FtbSlot := []
  /-- Last slot served, by table. -/
  rr : Tab Nat := []
  walks : Tab Walk := []
  /-- Sweeper positions in the MAC and flow tables (R187). -/
  ageNext : Nat := 0
  flowNext : Nat := 0
  /-- Sources whose port-down flush waits (R190). -/
  downFlush : List Nat := []
  badNodes : List BadNode := []
  badMembers : List Nat := []
  perrIdx : Nat := 0
  /-- Learns, moves, agings and flushes of this epoch, for the pair's epoch record (R186): 1 learn, 2 move, 3 age, 4 delete. -/
  deltas : List Notify := []
  deriving DecidableEq, Repr
/-! ## Express path, duplicate streams, seal units (R197-R253) -/

/-- Where a copy of an express frame goes. -/
inductive XDst where
  | chan (c : Nat)
  /-- Device, fabric destination port, pinned lane, HOPS of the pinned path. -/
  | fab (dev dfp lane hops : Nat)
  /-- The CES engine of a pseudowire. -/
  | ces (pw : Nat)
  deriving DecidableEq, Repr

/-- A copy of an admitted express frame. -/
structure XCopy where
  dst : XDst
  cut : Bool
  committed : Bool := false
  /-- Re-pin hold of R224: the uptime that ends it, and the first link of the old path. -/
  wait : Option (Nat × Nat) := none
  /-- Redundancy pair, LAN B, and sequence number that the copy writes (R238). -/
  pair : Option (Nat × Bool × Nat) := none
  /-- The copy keeps its HSR tag: it passes a ring (R240). -/
  keepTag : Bool := false
  /-- Admission order on its queue. -/
  order : Nat := 0
  /-- Its transmission has started; it has left, or was discarded. -/
  started : Bool := false
  gone : Bool := false
  deriving DecidableEq, Repr

/-- An admitted express frame. -/
structure XFrame where
  src : Nat
  /-- The contract; 4096 for a frame from the fabric, which has none here. -/
  contract : Nat
  bank : Nat
  cls : Nat
  maxlen : Nat
  mcast : Bool
  copies : List XCopy
  verdict : Option Bool := none
  /-- Cause of a bad verdict, once one is known (R218). -/
  cause : Nat := 0
  /-- MAXLEN has been settled with the policer (R205). -/
  settled : Bool := false
  /-- Seal units that serve the frame, and their outcome: none while running. -/
  units : List Nat := []
  sealBad : Bool := false
  /-- A PRP copy held until its end (R236). -/
  held : Bool := false
  /-- The bytes as received, once a sign unit has written its tag (R251). -/
  unsigned : Option Bytes := none
  /-- R-TAG written, or removed (R243). -/
  rtag : Option Nat := none
  rpop : Bool := false
  /-- Stream of R242 whose sequence number `rtag` is. Next hop whose rewrite applies (R202). -/
  nh : Option Nat := none
  /-- Arrived from the fabric. -/
  fab : Bool := false
  deriving DecidableEq, Repr

/-- A false-start record (R220). -/
structure FsRec where
  stamp : Nat
  w3 : Nat
  w4 : Nat
  seq : Nat
  deriving DecidableEq, Repr

/-- A residence histogram's counts (R225). -/
structure Hist where
  count : Nat := 0
  max : Nat := 0
  min : Nat := 0xFFFFFFFF
  bins : Tab Nat := []
  deriving DecidableEq, Repr

/-- The path that a flow last used (R224). -/
structure Pin where
  hash : Nat
  dev : Nat
  contract : Nat
  link : Nat
  lane : Nat
  /-- The flow waits for its old path: the uptime at which the wait ends, and the old link (R224). -/
  hold : Option (Nat × Nat) := none
  deriving DecidableEq, Repr

/-- A frame of a pair whose end the pair engine still awaits: a PRP copy not judged yet, with what its judging cycle did, or an HSR frame whose
LSDU size is checked (R234, R236). -/
structure RedWait where
  pair : Nat
  lanB : Bool
  held : Bool := false
  counted : Bool := false
  size : Bool := false
  deriving DecidableEq, Repr

/-- A dynamic or static node entry (R232). -/
structure Node where
  proxy : Bool
  static : Bool
  pair : Nat
  mac : Nat
  fresh : Bool
  rec_ : Nat
  hist : Nat
  unmA : Nat
  unmB : Nat
  tA : Nat
  tB : Nat
  seen : Nat
  deriving DecidableEq, Repr

/-- The state of a stream (R243, R244). -/
structure Stream where
  takeAny : Bool := false
  genNext : Nat := 0
  rec_ : Nat := 0
  hist : Nat := 0
  tPass : Nat := 0
  passed : Nat := 0
  dup : Nat := 0
  rogue : Nat := 0
  ooo : Nat := 0
  deriving DecidableEq, Repr

/-- A seal unit (R245-R252). STATE: 0 idle, 1 verifying, 2 signing, 3 withdrawn. -/
structure SealUnit where
  st : Nat := 0
  slot : Nat := 0
  frame : Nat := 0
  /-- What the key fetch returned: valid, key, KEYID, USES, IV_FIXED, IV_CTR; and the cause it found, if any. -/
  valid : Bool := false
  key : List Nat := []
  keyid : Nat := 0
  uses : Nat := 0
  ivFixed : Nat := 0
  ivCtr : Nat := 0
  cause : Nat := 0
  compare : Nat := 0
  served : Nat := 0
  deriving DecidableEq, Repr

/-- The express path. -/
structure Exp where
  /-- Policer level by contract in bytes times 2^16 * 10^9, and t_last (R205). -/
  level : Tab (Int × Nat) := []
  frames : Tab XFrame := []
  inflight : Tab Nat := []
  refused : Tab Nat := []
  order : Nat := 0
  fsRing : Tab FsRec := []
  fsSeq : Nat := 0
  refuseLast : Nat := 0
  allowOver : Bool := false
  copyBusy : Bool := false
  hist : Tab Hist := []
  pins : List Pin := []
  /-- Node entries by index (R232). -/
  nodes : Tab Node := []
  /-- Bulk frames that the duplicate engine discards, and those of a PRP pair judged only at their end: pair, LAN B. -/
  bulkDup : List Nat := []
  redWait : Tab RedWait := []
  streams : Tab Stream := []
  /-- SEQ_NEXT by pair, pair counters by pair * 16 + k, last late duplicate. -/
  pairSeq : Tab Nat := []
  pairCnt : Tab Nat := []
  lateLast : Nat := 0
  /-- CH_B staging of bulk copies by pair, each with its class (R239). -/
  stageB : Tab (List (Nat × Bytes)) := []
  units : Tab SealUnit := []
  sealLast : Nat := 0
  sealSlot : Nat := 0
  deriving DecidableEq, Repr
/-! ## The basin (R254-R279) -/

/-- The channel D descriptor of a frame on its way into the basin (R263). -/
structure BDesc where
  req : Reqr
  dest : BDest
  /-- Class Bk. -/
  cls : Nat
  /-- 0 green, 1 yellow, 2 red, 3 none. -/
  colour : Nat := 3
  policer : Option Nat := none
  src : Nat := 0
  ect : Bool := false
  mirror : Option Nat := none
  copyHost : Option Nat := none
  pool : Nat := 0
  berths : List Nat := []
  /-- A mirror copy: never mirrored again; its session. -/
  session : Option Nat := none
  trunc : Nat := 0
  /-- The group's LOCAL members only: the frame came from the fabric (R269). -/
  localOnly : Bool := false
  deriving DecidableEq, Repr

/-- A stored frame: its berths, references and what it counts for. -/
structure BFr where
  pool : Nat
  berths : List Nat
  refs : Nat
  src : Nat
  cls : Nat
  len : Nat
  deriving DecidableEq, Repr

/-- A frame in a queue. -/
structure QEnt where
  id : Nat
  len : Nat
  mark : Bool := false
  trunc : Nat := 0
  colour : Nat := 0
  /-- Deep berths that hold the frame; none while it is on chip. -/
  deep : List Nat := []
  read : Bool := false
  /-- REASON of a punted frame (R453). -/
  why : Nat := 0
  /-- A mirror copy (R276). -/
  mir : Bool := false
  started : Bool := false
  deriving DecidableEq, Repr

/-- A flush under way (R274). -/
structure FlushJob where
  cmd : Bool
  count : Nat
  deriving DecidableEq, Repr

/-- The basin. -/
structure Bas where
  /-- Berths and deep berths in use, by number. -/
  used : List Nat := []
  deepUsed : List Nat := []
  lastBank : Nat := 63
  deepBank : Nat := 63
  cycle : Nat := 0
  banks : List Nat := []
  /-- Requests left over for the next cycle, oldest first; requests presented in this cycle, by requester; and the last requester served in it
  (R256). -/
  waiting : List (Reqr × Nat) := []
  ports : Tab Nat := []
  turn : Nat := 0
  /-- Berths and deep berths released and not yet freed: number and pool (R259). -/
  rel : List (Nat × Nat) := []
  relDeep : List (Nat × Nat) := []
  poolUsed : Tab Nat := []
  poolDeep : Tab Nat := []
  shared : Nat := 0
  desc : Tab BDesc := []
  frames : Tab BFr := []
  /-- Queues by number; punt queue u is 2^20 + u. -/
  q : Tab (List QEnt) := []
  drops : Tab Nat := []
  /-- Requests of the host and of capture that were refused, for their owners (R258). -/
  lost : List (Reqr × Nat) := []
  /-- Copies handed to the fabric's trees: tree and frame (R269, R335). -/
  trees : List (Nat × Nat) := []
  moving : Bool := false
  creditWait : Bool := false
  memReady : Bool := false
  credit : Nat := 0
  creditAt : Nat := 0
  moveNext : Nat := 0
  dfree : Nat := 0
  flushes : List FlushJob := []
  flushed : Nat := 0
  /-- Channels that left UP with FLUSH_ON_DOWN, and fabric ports declared unreachable, whose flush is due. -/
  downPend : List Nat := []
  unreach : List Nat := []
  /-- Mirror sessions: frames seen, copies made, copies refused. -/
  mirSeen : Tab Nat := []
  mirMade : Tab Nat := []
  mirRefused : Tab Nat := []
  deriving DecidableEq, Repr
/-! ## The pacer (R280-R304) -/

/-- Bucket levels of a node or queue, in bytes times 2^16 * 10^9, with the parameters in force (R287-R290). -/
structure Bucket where
  cl : Int := 0
  pl : Int := 0
  last : Nat := 0
  bank : Nat := 0
  prof : Nat := 0
  deriving DecidableEq, Repr

/-- The tags of a child (R286). -/
structure PTag where
  s : Nat := 0
  f : Nat := 0
  elig : Bool := false
  kept : Bool := false
  deriving DecidableEq, Repr

/-- A gate notice (R299). -/
structure GateNote where
  at_ : Nat
  gates : Nat
  next : Option Nat
  deriving DecidableEq, Repr

/-- The gates of a channel: the list in use, a change to come, and the MAC's side. -/
structure GateCh where
  en : Bool := false
  sel : Nat := 0
  pend : Option (Nat × Bool × Nat) := none
  restart : Option Nat := none
  /-- The next change that the pacer has to send. -/
  sent : Option Nat := none
  notes : List GateNote := []
  open_ : Nat := 0xFF
  follow : Option Nat := none
  deriving DecidableEq, Repr

/-- The pacer. Keys of nodes are level * 2^20 + number, levels 0-4 as R291. -/
structure Pcr where
  bucket : Tab Bucket := []
  tag : Tab PTag := []
  vt : Tab Nat := []
  bad : List Nat := []
  miswired : List Nat := []
  miswireLast : Nat := 0
  perrLast : Nat := 0
  /-- Staging credit used, by channel * 8 + class; lengths on their way back (R284). -/
  creditUsed : Tab Nat := []
  ret : List (Nat × Nat) := []
  /-- Frames granted and not yet left, by frame number: their queue. -/
  out : Tab Nat := []
  /-- The TM cycle of the last grant and the port nodes granted in it (R282). -/
  cycle : Nat := 0
  granted : List Nat := []
  /-- Refill position by level, and the visits left of the pass that a bank flip needs, by level (R288, R289). -/
  pos : Tab Nat := []
  flip : Tab Nat := []
  /-- Policers: TC, TP, t_last; frames marked red. -/
  pol : Tab (Int × Int × Nat) := []
  red : Tab Nat := []
  gate : Tab GateCh := []
  /-- Classes off by channel * 8 + k, and the uptime of the last request (R301); PAUSE uses channel * 8 with MODE 1. -/
  off : Tab Nat := []
  deriving DecidableEq, Repr
/-! ## The Porig fabric (R305-R343) -/

/-- What this device knows of the frame that a barge belongs to (R47, R48, R220). -/
structure BargeOwn where
  stamp : Nat
  gen : Nat
  src : Nat := 511
  mcast : Bool := false
  /-- Payload bytes of the frame before this barge. -/
  pos : Nat := 0
  deriving DecidableEq, Repr

/-- A barge (R309). -/
structure Barge where
  type : Nat
  dest : Nat := 0
  src : Nat := 0
  hops : Nat := 0
  sof : Bool := false
  eof : Bool := false
  cls : Nat := 0
  dfp : Nat := 0
  seq : Nat := 0
  colour : Nat := 0
  ect : Bool := false
  bad : Bool := false
  pay : Bytes := []
  /-- The contract of an express barge that this device originated; 4096 for none. Not part of the barge. -/
  con : Nat := 4096
  /-- Tells the frames apart whose barges share a lane: a frame's number, or the input lane of a relayed frame. Not part of the barge. -/
  fid : Nat := 0
  /-- Its frame, when that entered or leaves the fabric here. Not part of the barge. -/
  own : Option BargeOwn := none
  deriving DecidableEq, Repr

/-- A fabric lane (R316): DOWN 0, PROBE 1, JOINED 2, HOLD 3. -/
structure FabLane where
  st : Nat := 0
  hunt : Bool := false
  link : Nat := 0
  paired : Bool := false
  addr : Option Nat := none
  far : Nat := 0
  /-- Transmit credit and the last CR_COUNT, by pool 0-6 (R314). -/
  credit : Tab Nat := []
  lastCr : Tab Nat := []
  /-- Blocks freed by the receiver and the count last reported, by pool (R313). -/
  freed : Tab Nat := []
  told : Tab Nat := []
  tellNext : Nat := 0
  helloAt : Nat := 0
  /-- Uptime of the last HELLO queued on the lane (R316). -/
  helloSent : Option Nat := none
  holdAt : Nat := 0
  lastSend : Nat := 0
  hcsErr : Nat := 0
  timeouts : Nat := 0
  ctl : List Barge := []
  xq : List Barge := []
  bulk : List Barge := []
  tree : List Barge := []
  treeTurn : Bool := false
  /-- The open express frame and the open tree frame of the receiver: frame number and uptime of the last barge. -/
  openX : Option (Nat × Nat) := none
  openT : Option (Nat × Nat × Nat) := none
  /-- The express frame and the tree frame in transmission on the lane: the next barge of its type must continue it. -/
  txOpenX : Option Nat := none
  txOpenT : Option Nat := none
  /-- Barges that wait in the input buffer, with the uptime since: for relay queue room, credit, or a store slot (R326, R334). -/
  stuck : List (Barge × Nat) := []
  lastTx : Bytes := []
  /-- SERIAL of the neighbour's HELLO. -/
  nbr : Nat := 0
  deriving DecidableEq, Repr

/-- A device known from its ANNOUNCE (R317). -/
structure FabDev where
  partner : Nat
  flags : Nat
  addr : Nat
  pin : Bool
  deriving DecidableEq, Repr

/-- The last flood accepted from an originator: its sequence, its parts, and the uptime of the last (R318). -/
structure Flood where
  seq : Nat
  parts : List Nat
  seen : Nat
  deriving DecidableEq, Repr

/-- A reorder context (R332). -/
structure Ctx where
  next : Nat := 0
  held : List Barge := []
  timer : Option Nat := none
  /-- The frame in progress. -/
  cur : Option Nat := none
  acked : Nat := 0
  /-- Uptimes of the last advance of NEXT, of the first one not yet sent, and of the last entry sent (R333). -/
  advAt : Nat := 0
  advFrom : Nat := 0
  ackAt : Nat := 0
  gaps : Nat := 0
  late : Nat := 0
  deriving DecidableEq, Repr

/-- A bulk stream at its source (R329). -/
structure FabStream where
  next : Nat := 0
  acked : Nat := 0
  wait : Nat := 0
  deriving DecidableEq, Repr

/-- The fabric block. -/
structure Fab where
  addr : Option Nat := none
  conflict : Bool := false
  master : Option Nat := none
  isMaster : Bool := false
  settledAt : Nat := 0
  /-- Some SETTLE has passed without a new ANNOUNCE (R319). -/
  settled : Bool := false
  routesValid : Bool := false
  lanes : Tab FabLane := []
  /-- Devices by serial number. -/
  devs : Tab FabDev := []
  /-- LSA entries by address of their originator. -/
  lsas : Tab (List Nat) := []
  /-- Floods by type * 2^64 + serial number or address of their originator. -/
  floods : Tab Flood := []
  /-- The assignment in force: addresses by serial. -/
  assign : Tab Nat := []
  assignSeq : Nat := 0
  annSeq : Nat := 0
  /-- Uptime of the last flood of each type that this device sent, by TYPE (R318). -/
  sent : Tab Nat := []
  lsaSeq : Nat := 0
  ctx : Tab Ctx := []
  streams : Tab FabStream := []
  gapLast : Nat := 0
  rxBadLast : Nat := 0
  routeGen : Nat := 0
  /-- Spray counters by device * 64 + path (R330), round-robin lane by link. -/
  cur : Tab Int := []
  rrLane : Tab Nat := []
  /-- Devices without a path, with the uptime since; devices declared unreachable. -/
  noPath : Tab Nat := []
  unreach : List Nat := []
  /-- Bulk barges of granted frames that wait for a path or a window. -/
  bulkOut : List Barge := []
  linkNote : Tab Nat := []
  ctlDrop : Tab Nat := []
  deriving DecidableEq, Repr
/-! ## HBM controllers (R344-R360) -/

/-- A read accepted and not yet returned. -/
structure MemRead where
  req : Nat
  lu : Nat
  first : Nat
  n : Nat
  at_ : Nat
  order : Nat
  issued : Bool := false
  /-- Granules taken from the write queue, and, once issued, every granule's bytes. -/
  data : Tab Bytes := []
  /-- Granules taken from the write queue, and granules that a write entered the queue for since (R353, R356). -/
  fwd : List Nat := []
  newer : List Nat := []
  deriving DecidableEq, Repr

/-- A write queued and not yet issued. -/
structure MemWrite where
  req : Nat
  lu : Nat
  first : Nat
  data : List Bytes
  at_ : Nat
  order : Nat
  deriving DecidableEq, Repr

/-- A controller. STATE: OFF 0, TRAINING 1, INIT 2, READY 3, FROZEN 4, TRAIN_FAIL 5. -/
structure MemCtl where
  st : Nat := 0
  rwin : Nat := 0
  wwin : Nat := 0
  lane : Nat := 0
  repaired : Nat := 0
  temp : Nat := 0
  hot : Bool := false
  /-- Read and write queue entries by slot; requests accepted. -/
  reads : Tab MemRead := []
  writes : Tab MemWrite := []
  order : Nat := 0
  drain : Bool := false
  /-- Open rows by channel * 48 + bank, and refreshes postponed by the same key (R352). -/
  rows : Tab Nat := []
  owed : Tab Nat := []
  ceLast : Nat := 0
  ueLast : Nat := 0
  ueSyn : Nat := 0
  /-- Corrected bursts of the TAI second in progress, and the second. -/
  ceIn : Nat := 0
  ceSec : Nat := 0
  frzAt : Nat := 0
  scrub : Nat := 0
  diagBusy : Bool := false
  diagDone : Bool := false
  diagReq : Nat := 0
  diagRaw : Bool := false
  diagEcc : Nat := 0
  diagSyn : Nat := 0
  diagData : Bytes := []
  diagChk : Nat × Nat := (0, 0)
  deriving DecidableEq, Repr

/-- The HBM and its controllers. -/
structure Mem where
  ctl : Tab MemCtl := []
  /-- Granules by HBM address / 64; an unlisted granule holds the zeros of the fill of R347. -/
  cells : Tab Bytes := []
  /-- Deep berths retired (R358). -/
  retired : List Nat := []
  /-- The last data returned: requester, local unit, first granule, bytes. -/
  out : Nat × Nat × Nat × List Bytes := (0, 0, 0, [])
  deriving DecidableEq, Repr
/-! ## Capture and archive (R361-R389) -/

/-- A capture point: bytes missing from its full bucket, in bytes times 8000 * 2^16, and what it counts (R365). -/
structure CapPt where
  debt : Nat := 0
  at_ : Nat := 0
  seq : Nat := 0
  lostRate : Nat := 0
  lostSince : Nat := 0
  deriving DecidableEq, Repr

/-- A mark: epoch, point, and offset in units of 16 bytes (R371). -/
structure Mark where
  epoch : Nat
  point : Nat
  off : Nat
  deriving DecidableEq, Repr

/-- A staging slot's extent. State: FREE 0, FILLING 1, CLOSED 2, SENDING 3, COMMITTING 4 (R372); 5 is archived and held by a
replay (R385). -/
structure Extent where
  st : Nat := 0
  ext : Nat := 0
  used : Nat := 64
  first : Nat := 0
  last : Nat := 0
  records : Nat := 0
  marks : List Mark := []
  /-- Losses of the whole block when the extent opened. -/
  lost0 : Nat := 0
  attempt : Nat := 0
  target : Nat := 0
  /-- Segments still to queue; COMMITs sent since the timeout count last reset; sendings to this target. -/
  todo : List Nat := []
  resend : Bool := false
  tries : Nat := 0
  sends : Nat := 0
  /-- Order of issue and of closing. -/
  order : Nat := 0
  /-- Uptimes of the first record and of the last COMMIT sent (R370, R372). -/
  firstAt : Nat := 0
  commitAt : Nat := 0
  deriving DecidableEq, Repr

/-- An archive target (R380). -/
structure Target where
  st : Nat := 0
  missed : Nat := 0
  waiting : Bool := false
  archived : Nat := 0
  failures : Nat := 0
  resent : Nat := 0
  deriving DecidableEq, Repr

/-- A replay: slot, point, channel, offset of the next record, and the stamp before which no frame may leave. -/
structure Replay where
  slot : Nat
  point : Nat
  chan : Nat
  off : Nat
  nextAt : Nat
  deriving DecidableEq, Repr

/-- A lookup result (R383). -/
structure RetRes where
  ext : Nat
  target : Nat
  st : Nat
  slot : Nat
  off : Nat
  deriving DecidableEq, Repr

/-- What a receive capture point waits for: the class and the verdict of a frame that its MAC passed to the pipelines (R362). -/
structure RxTap where
  chan : Nat
  stamp : Nat
  gen : Nat
  /-- Class in the encoding of R160. -/
  cls : Option Nat := none
  /-- The verdict is known, and it is bad, refused or discarded. -/
  done : Bool := false
  bad : Bool := false
  /-- The frame's end: its bytes, its length, marked bad at its end, arrived in fragments. -/
  fin : Option (Bytes × Nat × Bool × Bool) := none
  deriving DecidableEq, Repr

/-- The archive block. -/
structure Arc where
  /-- Frames whose receive record is not complete, by frame number. -/
  taps : Tab RxTap := []
  pts : Tab CapPt := []
  slots : Tab Extent := []
  targets : Tab Target := []
  /-- Marks of the extents in the index, by extent number (R383). -/
  marks : Tab (List Mark) := []
  order : Nat := 0
  /-- Records lost, all causes. -/
  lostAll : Nat := 0
  lastTarget : Nat := 63
  /-- Uptime of the last probes (R379). -/
  probeAt : Option Nat := none
  /-- Segment frames queued in the basin: frame and target. -/
  segs : Tab Nat := []
  retBusy : Bool := false
  retDone : Bool := false
  retMore : Bool := false
  /-- First extent number that the next batch of a lookup considers. -/
  retFrom : Nat := 0
  results : List RetRes := []
  rpl : Option Replay := none
  rplSent : Nat := 0
  /-- Epoch of the reference instant of each record on its way to staging, by frame number (R87). -/
  epochs : Tab Nat := []
  deriving DecidableEq, Repr
/-! ## Paired operation (R390-R411) -/

/-- PAIR_STAT.ROLE (R394). -/
inductive Role where
  | solo | link | sync | standby | active | fault
  deriving DecidableEq, Repr

/-- An epoch record: entries by section type, each entry a list of field values (R401). -/
abbrev EpochRec := Tab (List (List Nat))

/-- A record or a copy part under reception: pieces by offset, and its length once the last tally has come. -/
structure RxPart where
  pieces : Tab Bytes := []
  total : Option Nat := none
  /-- The record, whole with a good CRC. -/
  whole : Option EpochRec := none
  size : Nat := 0
  deriving DecidableEq, Repr

/-- What a mate's HELLO and BEAT have told (R398). -/
structure Mate where
  serial : Nat := 0
  prefer : Bool := false
  role : Nat := 0
  cfgTag : Nat := 0
  setVer : Nat := 0
  active : Nat := 0
  oldest : Nat := 0
  digest : Nat := 0
  lockEpoch : Nat := 0
  flags : Nat := 0
  /-- Uptime of the last valid BEAT, in 2^-32 ns; none before the first (R50). -/
  beatAt : Option Nat := none
  /-- A valid HELLO is held. -/
  hello : Bool := false
  deriving DecidableEq, Repr

/-- The pair logic. -/
structure Pair where
  role : Role := .solo
  /-- Serial number of the mate. -/
  mate : Nat := 0
  info : Mate := {}
  present : Bool := false
  /-- Transmitters muted: 0 none, 1 those of R391 outside ACTIVE and SOLO, 2 all, before the role is decided. -/
  mute : Nat := 2
  /-- The mute of R392 waits for a write of PAIR_POLICY. -/
  policyPending : Bool := false
  egressHold : Bool := false
  syncCurrent : Bool := false
  reason : Nat := 0
  lastCause : Nat := 0
  /-- Instant of the last takeover or handover. -/
  takeAt : Nat := 0
  recSize : Nat := 0
  recEpoch : Nat := 0
  /-- Epochs spent ACTIVE. -/
  active : Nat := 0
  beatO : Bool := false
  /-- Takeover causes that this device has detected and that are in force (R403). -/
  trig : List Nat := []
  /-- The takeover named: its epoch and cause; and the stamp at which this member detected its fault. -/
  takeover : Option (Nat × Nat) := none
  faultAt : Nat := 0
  handover : Option Nat := none
  lost : Bool := false
  /-- Uptime and epoch of the last valid tally; uptimes of the last BEATs or HELLOs sent and of the entry into LINK. -/
  tallyAt : Nat := 0
  tallyEpoch : Nat := 0
  beatSent : Option Nat := none
  linkAt : Nat := 0
  /-- This member has stayed ACTIVE against an ACTIVE mate (R396). -/
  dual : Bool := false
  hunt : List Nat := []
  /-- Epoch from which learning and ageing act again after a takeover (R405). -/
  learnAt : Nat := 0
  /-- First boundary after entering SYNC; records applied on time in a row since. -/
  syncS : Nat := 0
  okRecs : Nat := 0
  /-- Own records by epoch; records sent and not yet acknowledged, by epoch. -/
  own : Tab EpochRec := []
  sent : Tab Bytes := []
  resend : List (Nat × Nat × Nat) := []
  /-- Digests of the locks applied at boundaries, by epoch (R50). -/
  applied : Tab Nat := []
  rx : Tab RxPart := []
  copy : Tab RxPart := []
  copyDone : List Nat := []
  copyBytes : Nat := 0
  copyDue : Bool := false
  /-- A LEARN section overflowed: the MAC table goes in the next COPY part (R401). -/
  macDue : Bool := false
  /-- The former active member's record that would correct a takeover: its epoch. -/
  corr : Option Nat := none
  /-- Tallies that the last sending step put on the lanes: lane and bytes, in order. -/
  out : List (Nat × Bytes) := []
  deriving DecidableEq, Repr
/-! ## The marshal and the safety partition (R412-R444) -/

/-- A key store slot (R430). -/
structure KeySlot where
  valid : Bool := false
  /-- Key bytes: 16 or 32. -/
  key : List Nat := []
  keyid : Nat := 0
  uses : Nat := 0
  ivFixed : Nat := 0
  ivCtr : Nat := 0
  lastCounter : Nat := 0
  loads : Nat := 0
  deriving DecidableEq, Repr

/-- A command that waits for the marshal: SOURCE (0 petition, 1 towpath A, 2 towpath B), its bytes, and the address that a
towpath response goes to. -/
structure MshCmd where
  source : Nat
  bytes : Bytes
  sa : Nat := 0
  deriving DecidableEq, Repr

/-- The last command accepted under a slot (R420). -/
structure MshLast where
  counter : Nat
  tag : Nat
  response : Bytes
  deriving DecidableEq, Repr

/-- The seal console (R433-R437). -/
structure Console where
  owner : Option Nat := none
  output : Bytes := []
  busy : Bool := false
  done : Bool := false
  result : Nat := 0
  /-- Outcome of the job in progress: result, output, tag and IV to be shown. -/
  job : Option (Nat × Bytes × Option Nat × Option Nat) := none
  /-- The time since reset release at which the job in progress ends at the earliest (R436), and of the holder's last access to
  page 0x024 (R437). -/
  jobAt : Nat := 0
  accessAt : Nat := 0
  deriving DecidableEq, Repr

/-- The heat controller and the memory test engine (R438-R441). -/
structure Heat where
  /-- Pipeline under test, none while none is tested. -/
  cur : Option Nat := none
  /-- Outcome recorded so far: 0 pass, 1 failure, 2 NOT_IDLE; and the signature bits differing. -/
  res : Option (Nat × Nat) := none
  /-- The heat in progress: 0 ordinary, 1 a retest, 2 of a retired pipeline; a retest is due; an unretire heat is due; the
  pipeline of the last heat begun. -/
  kind : Nat := 0
  last : Option Nat := none
  retest : Option Nat := none
  unretire : Option Nat := none
  lastPipe : Nat := 0
  lastOut : Nat := 0
  lastBits : Nat := 0
  count : Nat := 0
  suspended : Bool := false
  /-- The time since reset release at the last heat boundary (R439). -/
  startAt : Nat := 0
  /-- Memory test: cells removed, the next cell, passes completed, RSV_SHORT. -/
  cellsGone : List Nat := []
  cellNext : Nat := 0
  passes : Nat := 0
  rsvShort : Bool := false
  deriving DecidableEq, Repr

/-- The marshal and what it owns. -/
structure Msh where
  keys : Tab KeySlot := []
  /-- MSH_STAT.STATE: BOOT 0, RUN 1, HALTED 2. -/
  st : Nat := 0
  standingDone : Bool := false
  standingFail : Bool := false
  failIndex : Nat := 0
  rngOk : Bool := false
  /-- MSH_FAULT. -/
  fault : Nat := 0
  bootId : Nat := 0
  cmdResult : Nat := 0
  cmdSource : Nat := 0
  cmdSlot : Nat := 0
  cmdCtr : Nat := 0
  lasts : Tab MshLast := []
  /-- Commands in the order of their arrival (R428). -/
  queue : List MshCmd := []
  /-- The petition mailbox: state, owner, response, RESULT (R425). -/
  petSt : Nat := 0
  petOwner : Option Nat := none
  petResp : Bytes := []
  petResult : Nat := 0
  /-- Towpath links, auto-negotiation, and the frames last sent: lane and bytes (R427). -/
  upA : Bool := false
  upB : Bool := false
  anA : Bool := false
  anB : Bool := false
  out : List (Nat × Bytes) := []
  statusSeq : Nat := 0
  /-- REASON of the last marshal-owned lock cycle, and whether it applied. -/
  lockReason : Nat := 0
  lockApplied : Bool := false
  /-- Code of the last DEVICE_EVENT of the marshal or the pair logic. -/
  lastEvent : Nat := 0
  /-- A DEVICE_EVENT whose STATUS message is due; the time since reset release of the last periodic STATUS (R429). -/
  statusDue : Bool := false
  statusAt : Nat := 0
  con : Console := {}
  heat : Heat := {}
  deriving DecidableEq, Repr
/-! ## The host interface (R445-R465) -/

/-- A transmit frame that has been read and waits for its berths: frame, descriptor address, IRQ, fetch stamp (R454). -/
structure TxBusy where
  frame : Nat
  addr : Nat
  irq : Bool
  stamp : Nat
  deriving DecidableEq, Repr

/-- What the device keeps for a queue pair (R451, R460, R463). -/
structure Qp where
  err : Bool := false
  cause : Nat := 0
  rxHead : Nat := 0
  txHead : Nat := 0
  rxTail : Nat := 0
  txTail : Nat := 0
  /-- A message waits for the end of the ITR interval; uptime of the last message. -/
  pend : Bool := false
  lastMsg : Option Nat := none
  tx : Option TxBusy := none
  deriving DecidableEq, Repr

/-- A mailbox slot's control word (R456). -/
structure Mbx where
  posted : Bool := false
  rst : Bool := false
  seq : Nat := 0
  len : Nat := 0
  deriving DecidableEq, Repr

/-- W9 of a function entry: CUR is bitmap B, OVER, DIRTY_ERR, SWAP_BUSY, STOPPED (R461, R462). -/
structure FnSt where
  curB : Bool := false
  overrun : Bool := false
  err : Bool := false
  busy : Bool := false
  stopped : Bool := false
  deriving DecidableEq, Repr

/-- A cached word of a dirty bitmap: its function, its address in host memory, its bits (R461). -/
structure DirtyWord where
  f : Nat
  addr : Nat
  bits : Nat
  deriving DecidableEq, Repr

/-- A write to host memory: function, address, bytes. -/
structure HostWr where
  fn : Nat
  addr : Nat
  bytes : Bytes
  deriving DecidableEq, Repr

/-- The host interface. -/
structure Hif where
  /-- Link speed and width codes, DL_Active, NumVFs, VF_ENABLE. -/
  speed : Nat := 0
  width : Nat := 0
  active : Bool := false
  numVfs : Nat := 0
  vfEnable : Bool := false
  qp : Tab Qp := []
  /-- Mailbox slots by 8 v + k: up slots k = 0-3, down slots k = 4-7. -/
  mbx : Tab Mbx := []
  fn : Tab FnSt := []
  /-- VF_EVENTS by VF. -/
  vfEvents : Tab Nat := []
  /-- VFs in a function-level reset; a PF reset has happened that VFs enabled later must see (R458). -/
  flr : List Nat := []
  pfReset : Bool := false
  /-- AER advisory non-fatal messages sent, by function (R460). -/
  aer : Tab Nat := []
  /-- HIF_DMA_ERR_LAST. -/
  errLast : Nat := 0
  /-- Dirty bitmap words in the cache, oldest first. -/
  cache : List DirtyWord := []
  /-- MSI-X messages sent, by function * 2048 + vector (R463). -/
  msgs : Tab Nat := []
  /-- Writes to host memory, in order. -/
  out : List HostWr := []
  deriving DecidableEq, Repr

/-! ## Reset, readiness, fuses, firmware, JTAG (R466-R497, R507-R516) -/

/-- A record of the start-up configuration, after migration (R492); an OFFSET of 0xFFFF was dropped. -/
structure StartRec where
  page : Nat
  off : Nat
  op : Nat
  value : Nat
  deriving DecidableEq, Repr

/-- Identity fixed at manufacture (R1-R6, R66, R477 words 1-4). -/
structure Ident where
  /-- The variant is XE5120-H. -/
  varH : Bool := false
  /-- The grade is E. -/
  gradeE : Bool := false
  /-- Revision letter and digit in ASCII. -/
  rev : Nat := 0x4230
  serial : Nat := 0
  deriving DecidableEq, Repr

/-- What keeps its value over a device reset: identity, fuse copies, boot flash. -/
structure Fixed where
  ident : Ident := {}
  /-- Burnt bits of copy k of fuse word w, at 3 * w + k (R476). The words of a part as it leaves manufacture are a DESIGN
  CHOICE (log entry 60): PRODUCTION, XE5120-F, grade C, revision B0, serial number 0. -/
  fuse : Tab Word := [(0, 0xFFFF), (1, 0xFFFF), (2, 0xFFFF), (3, 0x4230), (4, 0x4230), (5, 0x4230), (12, 0x3460100), (13, 0x3460100), (14, 0x3460100)]
  /-- Boot flash bytes; an erased byte is 0xFF (R482). -/
  flash : Tab Byte := []
  /-- Lanes that the board wires with crossed polarity, at 256 * group + lane: N-lanes, F-lanes, baton lanes (R113, log entry 202). -/
  crossed : List Nat := []
  deriving DecidableEq, Repr

/-- Pins, reset engine and start-up (R466-R496). -/
structure Boot where
  /-- The device is in reset. -/
  inReset : Bool := false
  rstN : Bool := true
  devPg : Bool := true
  /-- In reset by software or JTAG, to be released by itself after 1 ms (R468). -/
  selfHold : Bool := false
  /-- DEV_PG fell, or a rail or core PLL failed, since the last release (R467, R507). -/
  powerLost : Bool := false
  cause : Nat := 1
  /-- Uptime limit of an armed software reset, in 2^-32 ns (R468). -/
  armed : Option Nat := none
  diag : Nat := 1
  /-- What a page's own initialisation has come to: 0 still in INIT, 1 passed, 2 failed (R470). -/
  ready : Tab Nat := []
  /-- Resolved fuse words, weak words, the first word held, RESTRICTED (R478). -/
  resolved : Tab Word := []
  weak : List Nat := []
  holdWord : Option Nat := none
  restricted : Bool := false
  sensed : Bool := false
  /-- Held as SCRAPPED; LIFECYCLE is BLANK; the weak words have been logged (R478, R479). -/
  scrapped : Bool := false
  blank : Bool := false
  weakLogged : Bool := false
  fuseBusy : Bool := false
  fuseDone : Bool := false
  fuseFail : Bool := false
  fuseDenied : Bool := false
  /-- The CTL_FUSE_PROG value of the burn in progress and its origin. -/
  fuseReq : Nat := 0
  fuseOrigin : Nat := 0
  /-- Level sampled on BOOT_MODE[1:0] at release. -/
  bootMode : Nat := 0
  /-- Banks still to be tried, in order (R484), and whether the first is a trial. -/
  banks : List Nat := []
  trialNext : Bool := false
  active : Option Nat := none
  trial : Bool := false
  confirmed : Bool := false
  recovery : Bool := false
  refuseA : Nat := 0
  refuseB : Nat := 0
  pkvLast : Nat := 0
  /-- Root key slot that verified the active set (R481). -/
  rootSlot : Option Nat := none
  setVer : Nat := 0
  secVer : Nat := 0
  pairMin : Nat := 0
  pairMax : Nat := 0
  epochWait : Nat := 0
  /-- Bytes of the images in the firmware store (R487, R490). -/
  store : Nat := 0
  standing : Bytes := []
  startup : List StartRec := []
  /-- Index of the next start-up record, records not taken whole, index of the first of them. -/
  startIdx : Nat := 0
  /-- The time since reset release at which the ROM came to that record (R492). -/
  startAt : Nat := 0
  cfgErr : Nat := 0
  cfgErrFirst : Nat := 0
  cfgErrSet : Bool := false
  msActivate : Nat := 0
  msOrders : Nat := 0
  ordersEnded : Bool := false
  checkBusy : Bool := false
  flashBusy : Bool := false
  flashDone : Bool := false
  flashResult : Nat := 0
  /-- The command of the flash engine: 0 READ, 1 PROGRAM, 2 ERASE, and its address. -/
  flashOp : Nat := 0
  flashAddr : Nat := 0
  pkvBusy : Bool := false
  pkvDone : Bool := false
  pkvCode : Nat := 0
  /-- The code that the run in progress will return. -/
  pkvNext : Nat := 0
  /-- The time since reset release at which that run began (R485). -/
  pkvAt : Nat := 0
  deriving DecidableEq, Repr

/-- The TAP and the board-level pins (R511, R515, R516). -/
structure Jtag where
  /-- Instruction register; IDCODE after a TAP reset. -/
  ir : Nat := 1
  /-- Out of service since an EXTEST, EXTEST_PULSE, EXTEST_TRAIN, HIGHZ or CLAMP (R516). -/
  outOfService : Bool := false
  /-- The pins float, or are driven from the boundary register. -/
  pinsFloat : Bool := false
  /-- Read data and status of the last REGACC. -/
  dr : Nat := 0
  status : Nat := 0
  /-- THERM_TRIP_N is driven low. -/
  thermTrip : Bool := false
  deriving DecidableEq, Repr

/-! ## The whole machine -/

/-- The state of the device, and the queue of commands that wait. -/
structure State where
  link : DieLink := {}
  regs : Regs := {}
  lock : Lock := {}
  log : Log := {}
  snap : Snap := {}
  irq : Irq := {}
  resp : Resp := {}
  tim : Tim := {}
  boot : Boot := {}
  fixed : Fixed := {}
  jtag : Jtag := {}
  lic : Lic := {}
  sdh : Sdh := {}
  pac : Pac := {}
  ftb : Ftb := {}
  exp : Exp := {}
  bas : Bas := {}
  pcr : Pcr := {}
  fab : Fab := {}
  mem : Mem := {}
  arc : Arc := {}
  pair : Pair := {}
  msh : Msh := {}
  hif : Hif := {}
  /-- The model's own field: how many free values have been drawn (log entry 11). -/
  free : Nat := 0
  /-- The commands waiting, first in first out. -/
  pending : List Instr := []
  deriving DecidableEq, Repr

/-- The words W0 to W6 of a record (R54). -/
def LogRec.words (r : LogRec) : List Nat :=
  [ r.seq % 65536 * 65536 + r.offset % 65536,
    r.epochLo % 128 * 2 ^ 25 + r.page % 512 * 65536 + r.origin % 256 * 256 + r.type % 256,
    stNs r.stamp, (stampB r.stamp).toNat, (stampC r.stamp).toNat, r.w5 % 2 ^ 32, r.w6 % 2 ^ 32 ]

/-- CHAIN: CRC-32C over W0-W6 and the previous record's W7 (R54). -/
def LogRec.chained (r : LogRec) (prev : Nat) : LogRec :=
  { r with chain := crc32c ((r.words ++ [prev]).flatMap (toLE 4)) }

/-- The RESET record, first after any reset, chained on zero (R56, R467). -/
def resetRecord (cause : Nat) : LogRec :=
  LogRec.chained ⟨0, cause, 0, 0x005, 0x7F, 0x08, 0, 0, 0, 0⟩ 0

/-- The change log right after a reset: the RESET record alone. -/
def resetLog (cause : Nat) : Log :=
  { ring := [(0, resetRecord cause)], wrSeq := 1, lastChain := (resetRecord cause).chain }

/-- The machine right after a power-up reset has been released: registers and tables at their reset values, the RESET
record in the log, fuse sensing and the training of the HBM controllers under way, no command waiting. -/
def State.reset : State := { log := resetLog 1, mem := { ctl := (List.range 12).map (fun c => (c, { st := 1 })) } }

end Sys2Proof.Machine
end

