-- ==== Sys2Proof/Machine/SdhSig.lean ====
section
/-! DEFINITION. The signals of SDH as G.707 lays them out, without the machine's state: parities, the scrambler, frame rows, pointers,
containers and their justification bits (R118-R126). Positions that the spec leaves to G.707 are log entry 222. -/
namespace Sys2Proof.Machine

/-! ## Bits, parities, the scrambler -/

/-- Ones among the low 16 bits. -/
def onesOf (x : Nat) : Nat := ((List.range 16).filter (nbit x)).length

/-- BIP-8: even parity of each bit over the bytes (R120). -/
def bip8 (b : Bytes) : Nat := b.foldl (fun a x => a ^^^ x.toNat) 0

/-- BIP-8 over each lane of interleaved bytes; the lanes' parities stand in turn order. BIP-24N has 3N lanes (R120). -/
def bipLanes : Bytes → List Nat → List Nat
  | [], q => q
  | _ :: _, [] => []
  | x :: r, h :: q => bipLanes r (q ++ [h ^^^ x.toNat])

/-- BIP-2 of a BIP-8: odd and even bits (R120). -/
def bip2 (x : Nat) : Nat := onesOf (x &&& 0xAA) % 2 * 2 + onesOf (x &&& 0x55) % 2

/-- Every `m`-th byte, after the first `k`. -/
def every (m : Nat) : Nat → Bytes → Bytes
  | _, [] => []
  | 0, x :: r => x :: every m (m - 1) r
  | k + 1, _ :: r => every m k r

/-- Eight bits of the scrambler 1 + x^6 + x^7, and its register after them. -/
def scrByte (r : Nat) : Nat × Nat :=
  (List.range 8).foldl (fun a _ => (a.1 * 2 + b2n (nbit a.2 6), a.2 * 2 % 128 + b2n (nbit a.2 6 != nbit a.2 5))) (0, r)

/-- Bytes scrambled, or descrambled, from a register on. -/
def scramble : Nat → Bytes → Bytes
  | _, [] => []
  | r, x :: l => BitVec.ofNat 8 (x.toNat ^^^ (scrByte r).1) :: scramble (scrByte r).2 l

/-! ## Frames. An STM frame with `n` AU-4s has 9 rows of 270 n bytes, 9 n of them overhead. -/

/-- Bytes of a frame. -/
def stmLen (n : Nat) : Nat := 2430 * n

/-- All bytes but the first row of section overhead scrambled; `off` is SCR_DIS (R120). -/
def scrFrame (n : Nat) (off : Bool) (f : Bytes) : Bytes := if off then f else f.take (9 * n) ++ scramble 127 (f.drop (9 * n))

/-- A byte of a frame by row and column, both from 0. -/
def stmAt (n r c : Nat) (f : Bytes) : Nat := byteAt f (270 * n * r + c)

/-- Row `r` of the payload of AU-4 `a`. -/
def auRow (n a r : Nat) (f : Bytes) : Bytes := every n a (sub f (270 * n * r + 9 * n) (261 * n))

/-- What BIP-24N covers: the frame less its regenerator section overhead (R120). -/
def b2Span (n : Nat) (f : Bytes) : Bytes :=
  (List.range 3).flatMap (fun r => sub f (270 * n * r + 9 * n) (261 * n)) ++ f.drop (810 * n)

/-- BIP-24N of a descrambled frame. -/
def b2Of (n : Nat) (f : Bytes) : List Nat := bipLanes (b2Span n f) (List.replicate (3 * n) 0)

/-- Bit errors between two parities of bytes. -/
def bipErrs (a b : List Nat) : Nat := ((a.zip b).map (fun x => onesOf (x.1 ^^^ x.2))).sum

/-- The positions, by their first bit in the frame time, at which the six bytes 0xF6F6F6_282828 end among `bits`; `reg` holds the 48 bits
before, `len` is the frame time in bits (R118). -/
def patHits (len : Nat) : List Bool → Nat → Nat → List Nat
  | [], _, _ => []
  | b :: r, reg, i =>
    let reg := (reg * 2 + b2n b) % 2 ^ 48
    if reg = 0xF6F6F6282828 then (i + 2 * len - 47) % len :: patHits len r reg (i + 1) else patHits len r reg (i + 1)

/-! ## Pointers (R121, R123) -/

/-- What a pointer interpreter reads. -/
inductive PtrRx where
  | ais | invalid | ndf (v : Nat) | normal (v : Nat) | inc | dec
  deriving DecidableEq, Repr

/-- Two pointer bytes against the offset followed, of `range` offsets: all ones; NDF enabled (1001) or normal (0110) with at most one bit of
it wrong; a majority of inverted I bits or D bits. -/
def ptrRead (cur range h1 h2 : Nat) : PtrRx :=
  let w := h1 * 256 + h2
  let v := w % 1024
  let i := onesOf ((v ^^^ cur) &&& 0x2AA)
  let d := onesOf ((v ^^^ cur) &&& 0x155)
  if w = 0xFFFF then .ais
  else if onesOf (w / 4096 ^^^ 9) ≤ 1 then (if v < range then .ndf v else .invalid)
  else if onesOf (w / 4096 ^^^ 6) ≤ 1 then
    (if v = cur then .normal v
     else if 3 ≤ i && decide (d < 3) then .inc
     else if 3 ≤ d && decide (i < 3) then .dec
     else if v < range then .normal v else .invalid)
  else .invalid

/-- One unit of a defect's run rule: `m` units enter it, `k` units leave it (R121). -/
def Dfx.run (d : Dfx) (enter leave : Bool) (m k : Nat) : Dfx :=
  if d.on then (if leave then (if k ≤ d.n + 1 then ⟨false, 0⟩ else ⟨true, d.n + 1⟩) else ⟨true, 0⟩)
  else (if enter then (if m ≤ d.n + 1 then ⟨true, 0⟩ else ⟨false, d.n + 1⟩) else ⟨false, 0⟩)

/-- Pointers followed: increments, decrements, a new offset with NDF, and one that has come three times in a row without (R123). -/
def Vc.follow (range : Nat) (p : PtrRx) (x : Vc) : Vc :=
  let run (v : Nat) : Nat := if v = x.cand then x.eq + 1 else 1
  match p with
  | .ais => { x with eq := 0 }
  | .invalid => { x with eq := 0 }
  | .ndf v => { x with eq := run v, cand := v, ptr := v }
  | .normal v => { x with eq := run v, cand := v, ptr := if 3 ≤ run v then v else x.ptr }
  | .inc => { x with eq := 0, ptr := (x.ptr + 1) % range }
  | .dec => { x with eq := 0, ptr := (x.ptr + (range - 1)) % range }

/-- The pointer's defects (R121). An AU-4 pointer enters LOP also by 8 pointers with NDF enabled, and only one with normal NDF leaves AIS and
LOP; a TU pointer takes any valid one. -/
def Vc.defects (au : Bool) (p : PtrRx) (x : Vc) : Vc :=
  match p with
  | .ais => { x with ais := x.ais.run true false 3 3, inv := 0, ndf := 0 }
  | .invalid => { x with ais := x.ais.run false false 3 3, inv := x.inv + 1, ndf := 0, lop := x.lop || decide (8 ≤ x.inv + 1) }
  | .ndf _ => { x with ais := x.ais.run false (!au) 3 3, inv := 0, ndf := x.ndf + 1,
                       lop := if au then x.lop || decide (8 ≤ x.ndf + 1) else x.lop && decide (x.eq < 3) }
  | .normal _ => { x with ais := x.ais.run false true 3 3, inv := 0, ndf := 0, lop := x.lop && decide (x.eq < 3) }
  | .inc | .dec => { x with ais := x.ais.run false true 3 3, inv := 0, ndf := 0 }

/-- Bytes put behind those of the container in progress; at `at_` a new container starts. -/
def vcSplit (at_ : Option Nat) (b buf : Bytes) : Bytes × List Bytes :=
  match at_ with
  | none => (buf ++ b, [])
  | some i => (b.drop i, [buf ++ b.take i])

/-- One pointer unit: `a` are the bytes of offsets `aft` and up, `b` those from offset 0 to the justification opportunity, `h` the
opportunity's bytes, `c` those behind it; `unit` is the bytes of one offset. Answers the containers that have ended (R123). -/
def Vc.feed (unit range aft : Nat) (p : PtrRx) (a b h c : Bytes) (x : Vc) : Vc × List Bytes :=
  let old := x.ptr
  let (buf, d1) := vcSplit (if aft ≤ old then some (unit * (old - aft)) else none) a x.buf
  let y := x.follow range p
  let body := match p with
    | .inc => b ++ c.drop unit
    | .dec => b ++ h ++ c
    | _ => b ++ c
  let start := unit * (match p with | .inc | .dec => old | _ => y.ptr)
  let (buf, d2) := vcSplit (if start < body.length then some start else none) body buf
  ({ y with buf := buf }, d1 ++ d2)

/-! ## Containers -/

/-- Bytes of TU-12 `l`, `m` of TUG-3 `k` in a VC-4 (all from 0): four columns of nine rows. -/
def tu12Of (k l m : Nat) (v : Bytes) : Bytes :=
  (List.range 9).flatMap (fun r => (List.range 4).map (fun q => v.getD (261 * r + 9 + k + 3 * (l + 7 * (m + 3 * q))) 0))

/-- Bytes of TUG-3 `k` in a VC-4: nine rows of 86 columns. -/
def tug3Of (k : Nat) (v : Bytes) : Bytes :=
  (List.range 9).flatMap (fun r => (List.range 86).map (fun j => v.getD (261 * r + 3 + k + 3 * j) 0))

/-- What a byte of a container holds: fixed stuff or overhead; eight data bits; control bits C1 and C2; the same with S1 in its last bit; S2
and seven data bits; S1 alone in its last bit. -/
inductive VcByte where
  | other | data | ctl | ctlS1 | s2 | s1
  deriving DecidableEq, Repr

/-- The bytes of a VC-12 with an asynchronous E1: 1,023 data bits, S1 and S2, three copies of C1 and C2. -/
def vc12Byte (i : Nat) : VcByte :=
  if i = 36 || i = 71 then .ctl
  else if i = 106 then .ctlS1
  else if i = 107 then .s2
  else if i = 139 then .other
  else if 108 ≤ i || (decide (2 ≤ i % 35) && decide (i % 35 < 34)) then .data
  else .other

/-- The 252 bytes of a C-3 subframe: the spec leaves their places to G.707 (log entry 223). -/
def c3Byte (i : Nat) : VcByte :=
  match Config.c3Place i % 5 with
  | 0 => .other | 1 => .data | 2 => .ctl | 3 => .s2 | _ => .s1

/-- Ones among the copies of C1 and of C2. In a VC-12 they are the two top bits of their bytes, in a C-3 the two low ones. -/
def votesOf (e3 : Bool) (l : List (VcByte × Byte)) : Nat × Nat :=
  let c := (l.filter (fun x => x.1 == .ctl || x.1 == .ctlS1)).map (fun x => x.2.toNat)
  ((c.filter (fun x => nbit x (if e3 then 1 else 7))).length, (c.filter (fun x => nbit x (if e3 then 0 else 6))).length)

/-- The information bits of a container, with S1 and S2 where they carry data. -/
def dataOf (s1 s2 : Bool) (l : List (VcByte × Byte)) : List Bool :=
  l.flatMap (fun x => match x.1 with
    | .data => bitsOf [x.2]
    | .ctlS1 | .s1 => if s1 then [x.2.getLsbD 0] else []
    | .s2 => (bitsOf [x.2]).drop (if s2 then 0 else 1)
    | _ => [])

/-- The C-12 data bits of a multiframe by the majority of each opportunity's copies (R125). -/
def c12Bits (v1 v2 : Nat) : Nat := 1023 + b2n (decide (v1 ≤ 1)) + b2n (decide (v2 ≤ 1))

/-! ## E1 frames (R121, R130) -/

/-- The frame alignment signal stands in timeslot 0. -/
def fasAt (l : List Bool) : Bool := (l.take 8).drop 1 == [false, false, true, true, false, true, true]
/-- Timeslot 0 of a frame without it. -/
def nfasAt (l : List Bool) : Bool := (l.drop 1).headD false

/-- The first offset at which an alignment signal stands and is confirmed twice, by the next two frames. -/
def fasFind : Nat → Nat → List Bool → Option Nat
  | 0, _, _ => none
  | n + 1, i, l => if fasAt l && nfasAt (l.drop 256) && fasAt (l.drop 512) then some i else fasFind n (i + 1) (l.drop 1)

/-- E1 frames taken from the bits in hand while aligned: three errored signals in a row lose the alignment; and the aligned bits. -/
def e1Frames : Nat → Trib → List Bool → Trib × List Bool
  | 0, x, out => (x, out)
  | n + 1, x, out =>
    if x.e1lof || x.hunt.length < 256 then (x, out)
    else
      let bad := !x.odd && !fasAt x.hunt
      let run := if x.odd then x.fasRun else if bad then x.fasRun + 1 else 0
      if 3 ≤ run then ({ x with e1lof := true, fasRun := 0 }, out)
      else e1Frames n { x with hunt := x.hunt.drop 256, odd := !x.odd, fasRun := run } (out ++ x.hunt.take 256)

/-- E1 frame alignment over further demapped bits; while it is lost the bits are all ones (R121, R122). -/
def e1Align (bits : List Bool) (x : Trib) : Trib × List Bool :=
  let x := { x with hunt := x.hunt ++ bits }
  let x := if !x.e1lof then x
    else match fasFind (x.hunt.length - 519) 0 x.hunt with
      | some i => { x with e1lof := false, fasRun := 0, odd := false, hunt := x.hunt.drop i }
      | none => { x with hunt := x.hunt.drop (x.hunt.length - 519) }
  let (x, out) := e1Frames (x.hunt.length / 256 + 1) x []
  if x.e1lof then (x, List.replicate bits.length true) else (x, out)

/-! ## The mapper (R126) -/

/-- Bits of the mapper's buffer that come in while one of `slots` bytes of a container goes out, at the recovered rate. -/
def mapFeed (slots nominal : Nat) (rate : Int) (x : Trib) : Trib :=
  let a := x.acc + nominal * (10 ^ 9 * 256 + rate).toNat
  let m := a / (slots * (10 ^ 9 * 256))
  { x with acc := a % (slots * (10 ^ 9 * 256)), tx := (x.tx ++ x.asm.take m).take 512, asm := x.asm.drop m }

/-- `n` bits leave the buffer. It underruns when they are not there, sends all ones until it holds 256 bits again, and counts that. -/
def mapTake (n : Nat) (x : Trib) (under : Nat) : List Bool × Trib × Nat :=
  let x := if x.under && decide (256 ≤ x.tx.length) then { x with under := false } else x
  if x.under then (List.replicate n true, x, under)
  else if x.tx.length < n then (List.replicate n true, { x with tx := [], under := true }, under + 1)
  else (x.tx.take n, { x with tx := x.tx.drop n }, under)

/-- The justification decision, taken once in a unit when its first control bits are due. -/
def mapDecide (x : Trib) : Trib :=
  if x.dec then x
  else { x with dec := true, sentC1 := x.under || decide (x.tx.length ≤ 320), sentC2 := !x.under && decide (x.tx.length < 192) }

/-- A byte from its bits. -/
def bitByte (l : List Bool) : Byte := BitVec.ofNat 8 (l.foldl (fun a b => a * 2 + b2n b) 0)

/-- One byte of a container as the mapper sends it; `o` fills what the spec leaves open. -/
def mapByte (e3 : Bool) (k : VcByte) (o : Byte) (x : Trib) (under : Nat) : Byte × Trib × Nat :=
  match k with
  | .other => (o, x, under)
  | .data => let (b, x, u) := mapTake 8 x under
             (bitByte b, x, u)
  | .ctl =>
    let x := mapDecide x
    let c := [x.sentC1, x.sentC2]
    (bitByte (if e3 then (bitsOf [o]).take 6 ++ c else c ++ (bitsOf [o]).drop 2), x, under)
  | .ctlS1 =>
    let x := mapDecide x
    let (b, x, u) := if x.sentC1 then ((bitsOf [o]).drop 7, x, under) else mapTake 1 x under
    (bitByte ([x.sentC1, x.sentC2] ++ ((bitsOf [o]).drop 2).take 5 ++ b), x, u)
  | .s1 =>
    let x := mapDecide x
    let (b, x, u) := if x.sentC1 then ((bitsOf [o]).drop 7, x, under) else mapTake 1 x under
    (bitByte ((bitsOf [o]).take 7 ++ b), x, u)
  | .s2 =>
    let x := mapDecide x
    let (b, x, u) := if x.sentC2 then ((bitsOf [o]).take 1, x, under) else mapTake 1 x under
    let (d, x, u) := mapTake 7 x u
    (bitByte (b ++ d), x, u)

/-- The bytes of a run of a container, the buffer fed while each goes out. -/
def mapRun (e3 : Bool) (slots nominal : Nat) (rate : Int) : List (VcByte × Byte) → Trib → Nat → Bytes × Trib × Nat
  | [], x, u => ([], x, u)
  | (k, o) :: r, x, u =>
    let (b, x, u) := mapByte e3 k o (mapFeed slots nominal rate x) u
    let (l, x, u) := mapRun e3 slots nominal rate r x u
    (b :: l, x, u)

end Sys2Proof.Machine
end

