-- ==== Sys2Proof/Machine/RegMap.lean ====
section
/-! DEFINITION. The register map: the pages of R29, and for each page the live registers with their access code, reset value and writable bits. -/
namespace Sys2Proof.Machine

/-- The access codes of R33. The chamber code CH has no row: a chamber word stages a row of the live range (R39). -/
inductive Acc where
  | ro | rw | rwd | rc | wp | sf | w1
  deriving DecidableEq, Repr

/-- A row of a register table: `count` words from `base`, `stride` apart. -/
structure RegRow where
  base : Nat
  stride : Nat
  count : Nat
  acc : Acc
  reset : Nat
  mask : Nat
  deriving DecidableEq, Repr

/-- A row for one register. -/
def reg1 (base : Nat) (acc : Acc) (reset : Nat := 0) (mask : Nat := 0xFFFFFFFF) : RegRow :=
  ⟨base, 4, 1, acc, reset, mask⟩

/-- A row for an array of registers. -/
def regN (base stride count : Nat) (acc : Acc) (reset : Nat := 0) (mask : Nat := 0xFFFFFFFF) : RegRow :=
  ⟨base, stride, count, acc, reset, mask⟩

/-- The offset lies on a register of the row. -/
def RegRow.covers (r : RegRow) (off : Nat) : Bool :=
  decide (r.base ≤ off) && decide (off < r.base + r.stride * r.count) && (off - r.base) % r.stride == 0

/-- The pages that are not reserved (R30). Page numbers 0x1001 to 0x103F, outside the register space, stand for the headers of the VF views
(R448). -/
def pageKnown (p : Nat) : Bool :=
  decide (p ≤ 0x007) || (decide (0x010 ≤ p) && decide (p ≤ 0x012)) || (decide (0x018 ≤ p) && decide (p ≤ 0x01B)) ||
  (decide (0x020 ≤ p) && decide (p ≤ 0x025)) || p == 0x030 || (decide (0x040 ≤ p) && decide (p ≤ 0x162)) ||
  (decide (0x170 ≤ p) && decide (p ≤ 0x175)) || (decide (0x180 ≤ p) && decide (p ≤ 0x18B)) ||
  (decide (0x190 ≤ p) && decide (p ≤ 0x196)) || (decide (0x1A0 ≤ p) && decide (p ≤ 0x1A6)) ||
  (decide (0x1B0 ≤ p) && decide (p ≤ 0x1B8)) || (decide (0x1C0 ≤ p) && decide (p ≤ 0x1CC)) ||
  (decide (0x1D0 ≤ p) && decide (p ≤ 0x1D4)) || (decide (0x1001 ≤ p) && decide (p ≤ 0x103F))

/-- The pages that R4 makes reserved on the XE5120-H: channels 128-255 and controllers 6-11. -/
def pageAbsentH (p : Nat) : Bool :=
  (decide (0x0C0 ≤ p) && decide (p ≤ 0x13F)) || (decide (0x1C6 ≤ p) && decide (p ≤ 0x1CB))

/-- Block code and first page of a non-reserved page (R29). -/
def pageBlock (p : Nat) : Nat × Nat :=
  if p < 0x010 then (0x01, 0x000) else if p < 0x018 then (0x02, 0x010) else if p < 0x020 then (0x0E, 0x018)
  else if p < 0x040 then (0x03, 0x020) else if p < 0x140 then (0x04, 0x040) else if p < 0x160 then (0x05, 0x140)
  else if p < 0x170 then (0x06, 0x160) else if p < 0x180 then (0x07, 0x170) else if p < 0x190 then (0x08, 0x180)
  else if p < 0x1A0 then (0x09, 0x190) else if p < 0x1B0 then (0x0A, 0x1A0) else if p < 0x1C0 then (0x0B, 0x1B0)
  else if p < 0x1D0 then (0x0C, 0x1C0) else (0x0D, 0x1D0)

/-- The page sits on the FE die (R9); page 0x030 and the rest sit on the TM die. -/
def pageOnFe (p : Nat) : Bool :=
  (decide (0x010 ≤ p) && decide (p < 0x018)) || (decide (0x020 ≤ p) && decide (p < 0x030)) ||
  (decide (0x040 ≤ p) && decide (p < 0x190))

/-- The common header (R32). -/
def headerRows : List RegRow :=
  [ reg1 0x000 .ro, reg1 0x004 .ro, reg1 0x008 .rw 0 0x5, reg1 0x00C .rc, reg1 0x010 .ro, reg1 0x014 .ro,
    reg1 0x018 .rw, reg1 0x01C .rc, reg1 0x020 .ro, reg1 0x024 .ro, reg1 0x028 .rw 0 0xF,
    regN 0x030 4 8 .rw 0 0xFFFF, regN 0x050 8 8 .rw, regN 0x054 8 8 .rw 0 0xFFFF,
    reg1 0x090 .ro, reg1 0x094 .ro 0x7F, reg1 0x098 .ro, reg1 0x09C .ro, regN 0x0A0 4 16 .ro,
    reg1 0x0E0 .ro, reg1 0x0E4 .ro ]

/-- Control pages 0x000-0x007 (R52, R60, R64-R66, R496, R497; page 0x007 holds the self-test view). -/
def ctlRows (p : Nat) : List RegRow :=
  match p with
  | 0x000 => [ regN 0x0100 4 6 .ro ]
  | 0x001 => [ reg1 0x0100 .w1, reg1 0x0104 .ro, reg1 0x0108 .rw, reg1 0x010C .rw, regN 0x0110 4 6 .ro,
               regN 0x0140 4 16 .ro, reg1 0x0180 .rc ]
  | 0x002 => [ reg1 0x0100 .rw 0 0xFFFF0001, reg1 0x0104 .ro, reg1 0x0108 .rw, reg1 0x010C .ro,
               reg1 0x0110 .rw 0 0xFE00, reg1 0x0114 .rc, reg1 0x0118 .rc, reg1 0x011C .ro,
               reg1 0x0120 .rwd 0 0xFFFFF000, reg1 0x0124 .rwd, reg1 0x0128 .rwd 0 0x1F, reg1 0x012C .ro ]
  | 0x003 => [ reg1 0x0100 .w1, regN 0x0104 4 4 .ro ]
  | 0x004 => [ regN 0x0100 4 16 .ro, regN 0x0200 4 64 .w1, reg1 0x0300 .rw 0xA 0xFFFF ]
  | 0x005 => [ regN 0x0100 4 3 .ro, reg1 0x010C .w1, regN 0x0110 4 4 .ro, reg1 0x0120 .rw 0 0, reg1 0x0124 .w1,
               reg1 0x0130 .rw 0 0x0FFFFF00, reg1 0x0134 .w1, reg1 0x0138 .ro, reg1 0x0140 .w1, reg1 0x0144 .ro ]
  | 0x006 => [ regN 0x0100 4 5 .ro, reg1 0x0114 .rw 0 0, reg1 0x0118 .ro ]
  | 0x007 => [ regN 0x0104 4 3 .ro, reg1 0x011C .ro ]
  | _ => []

/-- Time pages 0x010-0x012 (R68-R89). -/
def timRows (p : Nat) : List RegRow :=
  match p with
  | 0x010 => [ regN 0x0100 4 4 .ro, reg1 0x0110 .wp, reg1 0x0114 .rw 0x00401001 0x0FFFFFF3, reg1 0x0118 .wp,
               reg1 0x011C .rw 0x0BB8F064, reg1 0x0120 .rw 0x00F00400, reg1 0x0124 .rw 0 0x3FFFFFFF,
               reg1 0x0128 .rw, reg1 0x012C .rw 0 0xFFFF, reg1 0x0130 .w1, reg1 0x0134 .rw 0 0x1,
               reg1 0x0138 .ro, reg1 0x013C .ro, reg1 0x0140 .rc, reg1 0x0144 .ro ]
  | 0x011 => [ reg1 0x0100 .rw 0 0x000FFF07, reg1 0x0104 .rw, reg1 0x0108 .ro, regN 0x0110 4 5 .ro,
               reg1 0x0124 .w1, reg1 0x0128 .rc ]
  | 0x012 => [ reg1 0x0100 .rw 0 0x3, reg1 0x0104 .ro, reg1 0x0108 .rw 0 0x3FFFFF, reg1 0x010C .rw 0 0x3FFFFF,
               reg1 0x0110 .rw 0x6400 0x00FFFF03, reg1 0x0114 .rw, reg1 0x0118 .rw 0 0x3, reg1 0x011C .rw 0 0x1,
               reg1 0x0120 .rw, regN 0x0124 4 3 .ro, reg1 0x0130 .rc ]
  | _ => []

/-- Host interface pages 0x018-0x01B (R451-R465). -/
def hifRows (p : Nat) : List RegRow :=
  match p with
  | 0x018 => [ reg1 0x0100 .ro, reg1 0x0104 .rwd 0x10 0x7F, reg1 0x0108 .ro, regN 0x010C 4 4 .rc,
               reg1 0x011C .ro, reg1 0x0120 .ro, reg1 0x0124 .w1 ]
  | 0x01A => [ reg1 0x0100 .rw 1 0x3F, regN 0x0104 4 2 .ro, regN 0x010C 4 2 .rc ]
  | _ => []

/-- Safety partition pages 0x020-0x025 and 0x030 (R412-R444, R390-R411). -/
def mshRows (p : Nat) : List RegRow :=
  match p with
  | 0x020 => [ regN 0x0100 4 6 .ro, reg1 0x0118 .rc, reg1 0x011C .rc, reg1 0x0120 .sf 0 0, reg1 0x0124 .sf,
               reg1 0x0128 .sf, reg1 0x012C .ro, reg1 0x0130 .sf 0 0, reg1 0x0134 .ro, reg1 0x0138 .rc,
               regN 0x0140 4 16 .sf ]
  | 0x021 => [ reg1 0x0100 .w1, reg1 0x0104 .rw 0 0x3FFF, reg1 0x0108 .ro, reg1 0x010C .ro ]
  | 0x022 => [ reg1 0x0100 .sf 0 0xFFFFFF07, reg1 0x0104 .sf, reg1 0x0108 .sf 0 0xFFFF, reg1 0x010C .sf,
               reg1 0x0110 .sf 0 0xFFFF, reg1 0x0114 .ro, reg1 0x0118 .rc, reg1 0x011C .ro ]
  | 0x024 => [ reg1 0x0100 .rw 0 0xFF, reg1 0x0104 .rw 0 0x3FF, reg1 0x0108 .rw 0 0x1FFF, reg1 0x010C .rw 0 0x1FFF,
               regN 0x0110 4 3 .rw, reg1 0x011C .w1, reg1 0x0120 .ro, regN 0x0130 4 4 .rw ]
  | 0x025 => [ reg1 0x0100 .sf 5 0x7, regN 0x0104 4 4 .ro, reg1 0x0114 .sf 0 0, reg1 0x0118 .sf 0 0, reg1 0x011C .ro ]
  | 0x030 => [ reg1 0x0100 .sf 0x000A0000 0x00FFFF3F, reg1 0x0104 .sf 0 0, reg1 0x0108 .sf, reg1 0x010C .sf,
               regN 0x0110 4 3 .ro, reg1 0x011C .rw, regN 0x0120 4 7 .ro, reg1 0x013C .rc,
               regN 0x0140 4 8 .sf 0xFFFFFFFF ]
  | _ => []

/-- PRE, MAIN and POST of the transmit taps; the bits between them are reserved. -/
def txeqMask : Nat := 0x003F3F3F

/-- Line interface page of channel `c` (R93-R114); the baton-lane registers exist on channels 0-7 only. -/
def licRows (c : Nat) : List RegRow :=
  [ reg1 0x0100 .rwd 0 0x1FF, reg1 0x0104 .rwd 0x2580 0x00033FFF, reg1 0x0108 .rwd 0x28 0x7FF, reg1 0x010C .ro,
    reg1 0x0110 .rwd 0x01234567, reg1 0x0114 .ro, reg1 0x0118 .rw 1 0x1FFFF, reg1 0x011C .ro, reg1 0x0120 .rc,
    reg1 0x0124 .rc, reg1 0x0128 .rc, reg1 0x0200 .rw 0 0x7F, reg1 0x0204 .rw 0x00043704 txeqMask, reg1 0x0208 .ro,
    reg1 0x0300 .rw 0 0x7F, reg1 0x0304 .rw 0x00043704 txeqMask, reg1 0x0308 .ro, reg1 0x030C .rc ] ++
  (if c < 8 then [ reg1 0x0400 .rw 0 0x7F, reg1 0x0404 .rw 0x00043704 txeqMask, reg1 0x0408 .ro ] else [])

/-- SDH page of channel `n` (R115-R139); the shared registers exist on page 0x140 only. -/
def sdhRows (n : Nat) : List RegRow :=
  [ reg1 0x0100 .rwd 0 0xFFFFF, reg1 0x0104 .ro, reg1 0x0108 .rc, reg1 0x010C .rw 0 0x3, regN 0x0110 4 4 .rw,
    regN 0x0120 4 4 .rw, regN 0x0130 4 4 .ro, reg1 0x0140 .rw 0 0x1FFF, reg1 0x0144 .ro, regN 0x0148 4 3 .rc,
    reg1 0x0154 .rw 0 0x3F03 ] ++
  (if n = 0 then [ reg1 0x1000 .rw 0 0x07FFFFFF, reg1 0x1004 .rw 0 0x3F00, reg1 0x1008 .rw 0 0x80003FC0 ] else [])

/-- Parse and classify pages 0x160-0x162. -/
def pacRows (p : Nat) : List RegRow :=
  match p with
  | 0x160 => [ reg1 0x0100 .rwd 0 0x3, reg1 0x0104 .rwd 0x910088A8, reg1 0x0108 .rwd 0 0xFFFF, reg1 0x010C .ro,
               reg1 0x0110 .ro, reg1 0x0114 .rw 0x801 0xFFF1, reg1 0x0118 .ro, reg1 0x011C .rc, reg1 0x0120 .ro,
               reg1 0x0124 .rc, reg1 0x0128 .rc, reg1 0x012C .rw 0 0x1FF80 ]
  | _ => []

/-- Forwarding table pages 0x170-0x175. -/
def ftbRows (p : Nat) : List RegRow :=
  match p with
  | 0x170 => [ reg1 0x0100 .rwd 0 0x1FFFFF, reg1 0x0104 .rwd, reg1 0x0108 .rwd 0x5A5A5A5A, reg1 0x010C .rwd,
               reg1 0x0110 .rwd 0x5A5A5A5A, reg1 0x0114 .rwd, reg1 0x0118 .rw 0x0001012C 0x3FFFF, reg1 0x011C .ro,
               reg1 0x0120 .rw 0x1F5 0xFFFF, reg1 0x0124 .rc, reg1 0x0128 .ro, reg1 0x012C .ro, reg1 0x0130 .rc,
               regN 0x0134 4 3 .ro, reg1 0x0140 .w1, regN 0x0144 4 8 .ro, regN 0x0180 8 16 .rw,
               regN 0x0184 8 16 .rw 0 0x9FFFFFFF ]
  | 0x171 => [ reg1 0x0100 .rw 0 0xFFE00 ]
  | 0x172 => [ reg1 0x0100 .rw 0 0xFC00, reg1 0x0104 .rw 0 0xFF800 ]
  | 0x173 => [ reg1 0x0100 .rw 0 0xE00 ]
  | 0x174 => [ reg1 0x0100 .rw 0 0x7FFC00, reg1 0x0104 .rw 0 0x1 ]
  | _ => []

/-- Express path pages 0x180-0x18B (the duplicate engines from 0x188, the seal units on 0x18B). -/
def expRows (p : Nat) : List RegRow :=
  match p with
  | 0x180 => [ reg1 0x0100 .sf 0 0x1, reg1 0x0104 .ro, reg1 0x0108 .sf, regN 0x010C 4 4 .ro, reg1 0x011C .rw,
               reg1 0x0120 .rc, reg1 0x0124 .ro, reg1 0x0128 .rc ]
  | 0x181 => [ reg1 0x0100 .rw 0 0x80000F00, reg1 0x0104 .sf 0 0x80000F00 ]
  | 0x182 => [ reg1 0x0100 .rw 0 0x80000E00, reg1 0x0104 .sf 0 0x80000E00 ]
  | 0x183 => [ reg1 0x0100 .rw 0 0x80000000, reg1 0x0104 .sf 0 0x80000000 ]
  | 0x184 => [ reg1 0x0100 .rw 0 0x80000000, reg1 0x0104 .sf 0 0x80000000 ]
  | 0x185 => [ reg1 0x0100 .rw 0 0x80000F00, reg1 0x0104 .sf 0 0x80000F00 ]
  | 0x188 => [ reg1 0x0100 .sf 0x003C01F4, reg1 0x0104 .ro, reg1 0x0108 .ro, regN 0x0200 16 64 .sf 0 0x7FFFFF,
               regN 0x0204 16 64 .ro ]
  | 0x189 => [ reg1 0x0100 .rw 0 0x3C00, reg1 0x0104 .sf 0 0x3C00 ]
  | 0x18A => [ reg1 0x0100 .rw 0 0x1E00, reg1 0x0104 .sf 0 0x1E00 ]
  | 0x18B => [ reg1 0x0100 .sf 0x1000 0xFFFF, reg1 0x0104 .ro 0xFFFFFFFF, reg1 0x0108 .ro 0xFFFFFFFF,
               regN 0x010C 4 3 .ro, reg1 0x0118 .rc, reg1 0x011C .sf 0 0 ]
  | _ => []

/-- Basin page 0x190 and its table pages. -/
def basRows (p : Nat) : List RegRow :=
  match p with
  | 0x190 => [ reg1 0x0100 .rwd 0x4801 0xFF01, reg1 0x0104 .rwd 0x00402D32 0xFFFF7F7F, reg1 0x0108 .ro 0x180000,
               regN 0x010C 4 5 .ro, reg1 0x0120 .rc, reg1 0x0124 .rw 0 0x1FFFFF, reg1 0x0128 .w1, reg1 0x012C .ro,
               reg1 0x0130 .rwd 0 0x3F, reg1 0x0134 .rwd 0 0x3F, regN 0x0400 4 64 .rwd 0 0x3FFFFF,
               regN 0x0500 4 64 .rwd 0x180000 0x1FFFFF, regN 0x0600 4 64 .rwd 0x06000000 0x07FFFFFF,
               regN 0x0700 4 128 .ro, regN 0x0900 4 64 .rc, regN 0x1000 4 256 .rwd 0 0x7F,
               regN 0x1400 4 289 .rwd 0 0x3F, regN 0x1A00 4 256 .rc ]
  | 0x191 => [ reg1 0x0100 .rw 0 0xFFE00 ]
  | 0x193 => [ reg1 0x0100 .rw 0 0xFC00 ]
  | 0x194 => [ reg1 0x0100 .rw 0 0xFC00 ]
  | 0x195 => [ reg1 0x0100 .rw 0 0xFF800 ]
  | _ => []

/-- Pacer page 0x1A0 and its table pages. -/
def pcrRows (p : Nat) : List RegRow :=
  match p with
  | 0x1A0 => [ reg1 0x0100 .rwd 1 0x1, reg1 0x0104 .rwd 0 0x1, reg1 0x0108 .ro, reg1 0x010C .ro, reg1 0x0110 .rc,
               reg1 0x0114 .ro, reg1 0x0118 .rc, reg1 0x011C .rc, regN 0x0200 4 256 .rwd 0x14 0xFF,
               regN 0x0600 4 256 .ro ]
  | 0x1A1 => [ reg1 0x0100 .rw 0 0x3FE03 ]
  | 0x1A2 => [ reg1 0x0100 .rw 0 0xFFE00 ]
  | 0x1A3 => [ reg1 0x0100 .rw 0 0x8000FC00 ]
  | 0x1A4 => [ reg1 0x0100 .rw 0 0x3FE00 ]
  | 0x1A5 => [ reg1 0x0100 .rw 0 0x1FF, reg1 0x0104 .sf 0 0x1FF, regN 0x1000 16 256 .sf 0 0x3,
               regN 0x1004 16 256 .sf 0x1E848 0x3FFFFFFF, regN 0x1008 16 256 .sf 0x1E848 0x3FFFFFFF,
               regN 0x100C 16 256 .sf 0 0x07FF07FF ]
  | 0x1A6 => [ regN 0x0200 16 32 .rwd 0x400 0x1FFFFF, regN 0x0204 16 32 .rwd 0x200 0x1FFFFF,
               regN 0x0208 16 32 .rwd 0x0064FFFF, regN 0x020C 16 32 .rwd 1 0x1, regN 0x1000 4 256 .rwd 0 0x7FFF ]
  | _ => []

/-- Fabric page 0x1B0 and its table pages. -/
def fabRows (p : Nat) : List RegRow :=
  match p with
  | 0x1B0 => [ reg1 0x0100 .rwd 8 0x03FF001F, reg1 0x0104 .rwd 0x3202140A, regN 0x0108 4 6 .ro, reg1 0x0120 .rc,
               reg1 0x0124 .ro, reg1 0x0128 .rc, reg1 0x012C .ro, reg1 0x0130 .ro ]
  | 0x1B2 => [ reg1 0x0100 .rw 0 0xF000 ]
  | 0x1B3 => [ reg1 0x0100 .rw 0 0x3C0 ]
  | 0x1B4 => [ reg1 0x0100 .rw 0 0xF00 ]
  | 0x1B7 => [ reg1 0x0100 .rw 0 0xFC00 ]
  | 0x1B8 => [ reg1 0x0100 .rw 0 0xFC00 ]
  | _ => []

/-- Memory pages: controllers 0x1C0-0x1CB and the common page 0x1CC. -/
def memRows (p : Nat) : List RegRow :=
  if p = 0x1CC then
    [ reg1 0x0100 .rwd 0x3E800 0xFFFF01, reg1 0x0104 .ro, reg1 0x0108 .rw 0x1801 0xFF01, reg1 0x010C .ro,
      regN 0x0110 16 5 .ro, regN 0x0114 16 5 .ro, regN 0x0118 16 5 .ro ]
  else
    [ reg1 0x0100 .w1, reg1 0x0104 .ro, reg1 0x0108 .ro, reg1 0x010C .rc, regN 0x0110 4 8 .ro,
      reg1 0x0130 .rw 0 0x1FFFFFFF, reg1 0x0134 .w1, reg1 0x0138 .ro ]

/-- Archive page 0x1D0 and its table pages. -/
def arcRows (p : Nat) : List RegRow :=
  match p with
  | 0x1D0 => [ reg1 0x0100 .rwd 0x003E8C00 0x0FFFFDFF, reg1 0x0104 .rwd 0x00643414, reg1 0x0108 .ro,
               reg1 0x010C .rwd 0 0x1FFFFFFF, reg1 0x0110 .ro, regN 0x0114 4 4 .rc, reg1 0x0124 .w1,
               regN 0x0130 4 6 .rw, reg1 0x0148 .rw 0 0x3FF, reg1 0x014C .w1, reg1 0x0150 .ro,
               reg1 0x0160 .rw 0 0x1FFFFFF, reg1 0x0164 .rw 0 0x7FFFF, reg1 0x0168 .w1, reg1 0x016C .ro ]
  | 0x1D1 => [ reg1 0x0100 .rw 0 0x100 ]
  | 0x1D3 => [ reg1 0x0100 .rw 0 0x1FFFFC00 ]
  | 0x1D4 => [ reg1 0x0100 .rw 0 0x3FFFF ]
  | _ => []

/-- The live registers of a page. -/
def pageRows (p : Nat) : List RegRow :=
  if p < 0x010 then ctlRows p else if p < 0x018 then timRows p else if p < 0x020 then hifRows p
  else if p < 0x040 then mshRows p else if p < 0x140 then licRows (p - 0x040) else if p < 0x160 then sdhRows (p - 0x140)
  else if p < 0x170 then pacRows p else if p < 0x180 then ftbRows p else if p < 0x190 then expRows p
  else if p < 0x1A0 then basRows p else if p < 0x1B0 then pcrRows p else if p < 0x1C0 then fabRows p
  else if p < 0x1D0 then memRows p else arcRows p

/-- The register at an offset of a page below 0x4000. -/
def regAt (p off : Nat) : Option RegRow :=
  if off < 0x100 then headerRows.find? (·.covers off) else (pageRows p).find? (·.covers off)

/-- The key of a register in the register file. -/
def rkey (p off : Nat) : Nat := p * 65536 + off

/-- The reset value of a register, by its key (R32 and the register tables). -/
def resetOf (k : Nat) : Word :=
  match regAt (k / 65536) (k % 65536) with
  | some r => w32 r.reset
  | none => 0

end Sys2Proof.Machine
end

