-- ==== Sys2Proof/Machine/Ops.lean ====
section
/-! DEFINITION. The named operations that every block uses: time, the register file, tables, counters, interrupts, the change log. -/
namespace Sys2Proof.Machine

/-- The outcome of a command. -/
abbrev Res := Host.Outcome State Fault Refusal

/-! ## Time -/

/-- The time base as a stamp (R69). -/
def nowStamp (s : State) : Nat := s.tim.now / 65536

/-- The time base moves forward to stamp `t`; it never goes backward (R70, R82). Time since reset release moves with it. -/
def advance (t : Nat) (s : State) : State :=
  if s.tim.now < t * 65536 then
    { s with tim := { s.tim with now := t * 65536, up := s.tim.up + (t * 65536 - s.tim.now) } }
  else s

/-- One epoch in stamp units: 125 microseconds (R87). -/
def epochU : Nat := 125000 * nsU

/-- The epoch in force, 0 before the first boundary (R88). -/
def epochNow (s : State) : Nat := s.tim.inForce.getD 0

/-- The epoch to which an event stamped `t` belongs, by comparison with the boundaries issued (R21, R87): one at or after the issued
boundary belongs to the epoch that it opens, even when that boundary is yet to be carried out; after a step the epoch of T runs on
to B (R89); before the first boundary the number is 0 (R88). -/
def epochOf (t : Nat) (s : State) : Nat :=
  match s.tim.issued with
  | some b => if b.at_ ≤ t then b.epoch else past t s
  | none => past t s
where
  past (t : Nat) (s : State) : Nat :=
    match s.tim.inForce with
    | none => 0
    | some m =>
      if t < s.tim.firstB then 0
      else match s.tim.stretch.find? (fun g => decide (g.1 ≤ t) && decide (t < g.2.1)) with
        | some g => g.2.2
        | none => min m (t / epochU)

/-- The epoch of an event stamped now. -/
def epochHere (s : State) : Nat := epochOf (nowStamp s) s

/-- The generation in force at a reference instant, which may lie before the last apply or after the next one (R48). -/
def genOf (stamp : Nat) (s : State) : Nat :=
  if s.lock.st == .ready && s.lock.bound.any (fun n => decide (n * epochU ≤ stamp)) then s.lock.gen + 1
  else if 0 < s.lock.gen && decide (stamp < s.lock.openAt) then s.lock.gen - 1 else s.lock.gen

/-- The device is in reset or held by its fuses. -/
def held (s : State) : Bool := s.boot.inReset || s.boot.holdWord.isSome || s.boot.scrapped

/-- What no command changes by its effect: the queue of waiting commands, the reset pins, which are inputs, and a reset
under way, which only its release ends (R466). `s` is the state before, `r` the effect. -/
def owned (s r : State) : State :=
  { r with
    boot := { r.boot with rstN := s.boot.rstN, devPg := s.boot.devPg, inReset := s.boot.inReset || r.boot.inReset }
    pending := s.pending }

/-- A command that acts unless the device is in reset (R466, R478). -/
def onLive (f : State → State) (s : State) : Res := .next (if held s then s else owned s (f s))

/-- A command of forwarding, PCIe or the baton: it also stops out of service (R516). -/
def onService (f : State → State) (s : State) : Res :=
  .next (if held s || s.jtag.outOfService then s else owned s (f s))

/-- Learning and ageing take no action from traffic: the device is standby or in SYNC, or has taken over in this epoch
(R186, R405, R407). -/
def pairPassive (s : State) : Bool :=
  s.pair.role == .standby || s.pair.role == .sync || decide (epochNow s < s.pair.learnAt)

/-- Uptime in nanoseconds. -/
def upNs (s : State) : Nat := s.tim.up / 2 ^ 32

/-- Cycles of the core domain of a page's die in a time since reset release: 2.0 GHz on the FE die, 1.6 GHz on the TM die (R61). -/
def cycUp (p up : Nat) : Nat := (if pageOnFe p then up * 2 / 2 ^ 32 else up * 8 / 5 / 2 ^ 32) % 2 ^ 64

/-- The cycle counter of a page (R61). -/
def pgCyc (p : Nat) (s : State) : Nat := cycUp p s.tim.up

/-! ## Domains that act on epochs (R9, R22, R23) -/

/-- The domain in which a page acts: time unit, heat controller (the self-test page, whose heats it times), marshal, FE core, TM core. -/
def pageDomain (p : Nat) : Nat :=
  if 0x010 ≤ p && p < 0x018 then 607 else if p = 0x025 then 609 else if 0x020 ≤ p && p < 0x030 then 606
  else if pageOnFe p then 600 else 601

/-- The domains that act on epochs. -/
def epochDomains : List Nat := [600, 601, 606, 607, 609]

/-- A domain holds no preannouncement for the boundary; `miss` lists the first page of each that does not (R22). -/
def domainMissed (miss : List Nat) (d : Nat) : Bool := miss.any (fun q => pageDomain q == d)

/-- The page's domain holds no preannouncement for the boundary (R22). -/
def pageMissed (miss : List Nat) (p : Nat) : Bool := domainMissed miss (pageDomain p)

/-! ## Register file -/

/-- The page exists on this variant (R4, R30). -/
def pageLive (p : Nat) (s : State) : Bool := pageKnown p && !(s.fixed.ident.varH && pageAbsentH p)

/-- The live value of a register. -/
def rd (p off : Nat) (s : State) : Word := look (resetOf (rkey p off)) s.regs.live (rkey p off)

/-- The live register takes a value. -/
def wr (p off : Nat) (v : Word) (s : State) : State :=
  { s with regs := { s.regs with live := put (resetOf (rkey p off)) s.regs.live (rkey p off) v } }

/-- A field of a live register. -/
def rf (p off lo n : Nat) (s : State) : Nat := fld (rd p off s) lo n

/-- A bit of a live register. -/
def rb (p off i : Nat) (s : State) : Bool := bitOf (rd p off s) i

/-- A field of a live register takes a value. -/
def wf (p off lo n v : Nat) (s : State) : State := wr p off (setFld (rd p off s) lo n v) s

/-- Bits of a live register are set. -/
def setBits (p off mask : Nat) (s : State) : State := wr p off (rd p off s ||| w32 mask) s

/-- A saturating count in a register field. -/
def bump (p off lo n k : Nat) (s : State) : State := wf p off lo n (satAdd (rf p off lo n s) k (2 ^ n - 1)) s

/-- The chamber word of a live register. -/
def chm (k : Nat) (s : State) : Word := look (resetOf k) s.regs.chamber k

/-- The chamber word takes a value. -/
def setChm (k : Nat) (v : Word) (s : State) : State :=
  { s with regs := { s.regs with chamber := put (resetOf k) s.regs.chamber k v } }

/-- The live register by key. -/
def rdk (k : Nat) (s : State) : Word := look (resetOf k) s.regs.live k

/-- A frame-judged register as a frame of generation `g` sees it: the copy that matches its generation bit; a frame stamped at
or after the T of the lock about to apply sees the staged value (R47, R48). -/
def rdG (g p off : Nat) (s : State) : Word :=
  if s.lock.gen < g then (if s.lock.st == .ready && has s.regs.dirty (rkey p off) && s.lock.members.contains p then chm (rkey p off) s else rd p off s)
  else if g % 2 = s.lock.gen % 2 then rd p off s
  else (find? s.regs.oldLive (rkey p off)).getD (rd p off s)

/-! ## Tables behind the windows -/

/-- Table numbers. -/
def tbIrqMap : Nat := 1
def tbCal : Nat := 2
def tbCls : Nat := 20
def tbSrc : Nat := 21
def tbNh : Nat := 22
def tbGroup : Nat := 23
def tbMember : Nat := 24
def tbVlan : Nat := 25
def tbPort : Nat := 26
def tbSmac : Nat := 27
def tbPart : Nat := 28
def tbCmd : Nat := 29
def tbMap : Nat := 30
def tbCon : Nat := 31
def tbOpen : Nat := 32
def tbAlw : Nat := 33
def tbGrp : Nat := 34
def tbHist : Nat := 35
def tbNodeT : Nat := 36
def tbStr : Nat := 37
def tbBq : Nat := 40
def tbWeir : Nat := 41
def tbDst : Nat := 42
def tbBGrp : Nat := 43
def tbMbr : Nat := 44
def tbMir : Nat := 45
def tbPmir : Nat := 46
def tbNode : Nat := 50
def tbQ : Nat := 51
def tbProf : Nat := 52
def tbPol : Nat := 53
def tbGcl : Nat := 54
def tbPfc : Nat := 55
def tbLane : Nat := 60
def tbFPort : Nat := 61
def tbRt : Nat := 62
def tbTree : Nat := 63
def tbPref : Nat := 64

/-- The key of a table word. -/
def tkey (tab idx w : Nat) : Nat := (tab * 2 ^ 24 + idx) * 64 + w

/-- What a table word holds after reset. -/
def tblReset (k : Nat) : Word :=
  let tab := k / 2 ^ 30
  let w := k % 64
  if tab = tbIrqMap then 0x8000
  else if tab = tbSrc then (if w = 0 then 0x001C0002 else if w = 2 then 0x00053977 else if w = 8 then 1 else 0)
  else if tab = tbPart && k / 64 % 2 ^ 24 == 0 then
    (match w with
     | 0 => 0x01000000 | 1 => 0x01000000 | 3 => 0x100000 | 4 => 0x400000 | 5 => 0x200000 | 6 => 0x600000 | 7 => 0x340000 | _ => 0)
  else if tab = tbWeir then (if w = 0 then 0x4B00 else if w = 1 then 0x4000 else 0)
  else if tab = tbNode then (if w = 0 then 0x00010001 else 0)
  else if tab = tbQ then (if w = 0 then 0x00010000 else 0)
  else if tab = tbHist then (if w = 1 then 0x100 else 0)
  else 0

/-- A word of a table entry. -/
def tw (tab idx w : Nat) (s : State) : Word := look (tblReset (tkey tab idx w)) s.regs.tbl (tkey tab idx w)

/-- A word of a table entry takes a value. -/
def tput (tab idx w : Nat) (v : Word) (s : State) : State :=
  { s with regs := { s.regs with tbl := put (tblReset (tkey tab idx w)) s.regs.tbl (tkey tab idx w) v } }

/-- A field of a table word. -/
def tf (tab idx w lo n : Nat) (s : State) : Nat := fld (tw tab idx w s) lo n

/-- A bit of a table word. -/
def tb (tab idx w i : Nat) (s : State) : Bool := bitOf (tw tab idx w s) i

/-- A field of a table word takes a value. -/
def tfput (tab idx w lo n v : Nat) (s : State) : State := tput tab idx w (setFld (tw tab idx w s) lo n v) s

/-- The word of a table entry that a window offset shows (R31, R520). -/
structure WinRef where
  tab : Nat
  idx : Nat
  word : Nat
  /-- Table number of R520: the region's start with the selector in its low bits. -/
  table : Nat
  /-- Index and word number that the batch record takes. -/
  index : Nat
  wordNo : Nat
  /-- Writable bits; 0 for an RO or reserved word. -/
  mask : Nat
  /-- Marshal only (SF). -/
  sf : Bool := false
  /-- Words from W1 up wait for the write of W0 (R127). -/
  staged : Bool := false
  /-- The entry does not exist on this variant: it reads zero and a write is WR_IGNORED (R261, R280). -/
  absent : Bool := false
  deriving DecidableEq, Repr

/-! ## Counters and interrupts -/

/-- Counter k of a page counts `n` more, wrapping at 2^48 with PM_OVF and the freeze of R63. -/
def pmAdd (p k n : Nat) (s : State) : State :=
  let v := look 0 s.regs.pm (p * 8 + k) + n
  if v < 2 ^ 48 then { s with regs := { s.regs with pm := put 0 s.regs.pm (p * 8 + k) v } }
  else
    let s := { s with regs := { s.regs with pm := put 0 s.regs.pm (p * 8 + k) (v - 2 ^ 48) } }
    let s := setBits p 0x1C (2 ^ k) s
    if rb p 0x28 3 s then { s with regs := { s.regs with ovfPend := Sys2Proof.Machine.add s.regs.ovfPend p } } else s

/-- The page's counters count: RUN is set and no global freeze stops them (R62, R64). -/
def pmRuns (p : Nat) (s : State) : Bool :=
  rb p 0x28 0 s && !(s.snap.doms.contains (pageDomain p) && rb p 0x28 1 s)

/-- An event of a page occurs `n` times; every counter that selects it counts (R62). -/
def evRaw (p num n : Nat) (s : State) : State :=
  if pmRuns p s && decide (0 < num) then
    (List.range 8).foldl (fun a k => if rf p (0x30 + 4 * k) 0 16 a = num then pmAdd p k n a else a) s
  else s

/-- The page's summary: an enabled interrupt cause is set (R65). -/
def summary (p : Nat) (s : State) : Bool := (rd p 0x1C s &&& rd p 0x18 s) != 0

/-- The vector that CTL_IRQ_MAP gives a page, as TARGET * 2048 + VECTOR; none while masked. -/
def vecOf (p : Nat) (s : State) : Option Nat :=
  let e := tw tbIrqMap p 0 s
  if bitOf e 15 then none else some (fld e 16 1 * 2048 + fld e 0 11)

/-- Pages with any interrupt cause set. -/
def irqPages (s : State) : List Nat :=
  (s.regs.live.filter (fun e => e.1 % 65536 == 0x1C)).map (fun e => e.1 / 65536)

/-- The OR of the unmasked summaries mapped to a vector (R65). -/
def vecOr (v : Nat) (s : State) : Bool := (irqPages s).any (fun p => vecOf p s == some v && summary p s)

/-- An event of the host interface: page 0x018 counts it, and the view of VF f (R465). -/
def hifEvRaw (f num n : Nat) (s : State) : State :=
  let s := evRaw 0x018 num n s
  if f = 0 then s else evRaw (0x1000 + f) num n s

/-- One MSI-X message of function f leaves on a vector (R463). -/
def msiSend (f vec : Nat) (s : State) : State :=
  let k := f * 2048 + vec
  hifEvRaw f 0x010D 1 { s with hif := { s.hif with msgs := put 0 s.hif.msgs k (look 0 s.hif.msgs k + 1) } }

/-- One message leaves on a vector, which is then disarmed (R65). -/
def irqSend (v : Nat) (s : State) : State :=
  (fun s => if v < 2048 then msiSend 0 v s else s) <| evRaw 0x004 0x0100 1
    { s with irq := { s.irq with
        disarmed := Sys2Proof.Machine.add s.irq.disarmed v, waiting := rem s.irq.waiting v,
        lastMsg := ins s.irq.lastMsg v s.tim.up, sent := put 0 s.irq.sent v (look 0 s.irq.sent v + 1) } }

/-- CTL_IRQ_HOLDOFF has passed since the last message on the vector. -/
def holdoffOver (v : Nat) (s : State) : Bool :=
  match find? s.irq.lastMsg v with
  | none => true
  | some t => decide (t + rf 0x004 0x300 0 16 s * 100 * 2 ^ 32 ≤ s.tim.up)

/-- A message is due on a vector: sent at once, or once the hold-off has passed (R65). -/
def irqDue (v : Nat) (s : State) : State :=
  if holdoffOver v s then irqSend v s
  else evRaw 0x004 0x0101 1
    { s with irq := { s.irq with
        disarmed := Sys2Proof.Machine.add s.irq.disarmed v, waiting := Sys2Proof.Machine.add s.irq.waiting v } }

/-- The vector's OR went from 0 to 1 between two states: an armed vector sends one message (R65). The message is itself counted
on pages 0x004 and 0x018, whose own summaries an overflow of those counts may raise; each can rise once, so `n` = 3 leaves none out. -/
def irqEdgeN : Nat → State → Option Nat → State → State
  | 0, _, _, s => s
  | n + 1, before, v, s =>
    match v with
    | none => s
    | some v =>
      if !vecOr v before && vecOr v s && !has s.irq.disarmed v then
        let t := irqDue v s
        irqEdgeN n s (vecOf 0x018 t) (irqEdgeN n s (vecOf 0x004 t) t)
      else s

/-- The message that a change from `before` to `s` causes on a vector. -/
def irqEdge (before : State) (v : Option Nat) (s : State) : State := irqEdgeN 3 before v s

/-- A message is sent, or is due, outside a change of the vector's own OR; what its counts raise follows (R63, R65). -/
def irqAfter (f : State → State) (s : State) : State :=
  let t := f s
  irqEdge s (vecOf 0x018 t) (irqEdge s (vecOf 0x004 t) t)

/-- A change of a page's interrupt registers, and the message that it causes. -/
def irqStep (p : Nat) (f : State → State) (s : State) : State := irqEdge s (vecOf p s) (f s)

/-- An interrupt cause of a page is set (R32, R65). -/
def raise (p bit : Nat) (s : State) : State :=
  if pageLive p s then irqStep p (setBits p 0x1C (2 ^ bit)) s else s

/-- An event of a page occurs `n` times, with the interrupt message of an overflow (R62, R63). -/
def ev (p num n : Nat) (s : State) : State := irqStep p (evRaw p num n) s

/-- A PG_STAT bit is set, and STAT_ANY with it (R32). -/
def setStat (p bit : Nat) (s : State) : State :=
  if pageLive p s then raise p 8 (setBits p 0x0C (2 ^ bit) s) else s

/-! ## Change log -/

/-- Free ring entries (R58). -/
def logFree (s : State) : Nat := 65536 - (s.log.wrSeq - s.log.rdSeq)

/-- The log is holding (R59). -/
def logHolding (s : State) : Bool := decide (logFree s ≤ 256)

/-- A record enters the ring at the next sequence number (R54, R58). -/
def logPut (r : LogRec) (s : State) : State :=
  let before := logFree s
  let r := LogRec.chained { r with seq := s.log.wrSeq } s.log.lastChain
  let s := { s with log := { s.log with
      ring := ins s.log.ring (s.log.wrSeq % 65536) r, wrSeq := s.log.wrSeq + 1, lastChain := r.chain } }
  let s := ev 0x002 0x0100 1 s
  let thr := rf 0x002 0x100 16 16 s
  if thr < before && decide (logFree s ≤ thr) then raise 0x002 9 s else s

/-- A record is lost for want of an entry (R59). -/
def logLose (s : State) : State :=
  raise 0x002 11 (ev 0x002 0x0101 1 (bump 0x002 0x114 0 32 1
    { s with log := { s.log with lostRun := s.log.lostRun + 1 } }))

/-- The GAP record that covers the records lost, once an entry is free (R59). -/
def logGap (s : State) : State :=
  if s.log.lostRun = 0 || logFree s = 0 then s
  else
    let n := s.log.lostRun
    let r : LogRec := ⟨0, min n 0xFFFF, epochHere s % 128, 0x002, 0x7F, 0x09, nowStamp s, s.log.wrSeq, min n 0xFFFFFFFF, 0⟩
    logPut r { s with log := { s.log with lostRun := 0 } }

/-- A record is written, or lost when no entry is free (R53, R59). -/
def logAt (stamp elo page off origin type w5 w6 : Nat) (s : State) : State :=
  let s := logGap s
  if logFree s = 0 then logLose s else logPut ⟨0, off, elo, page, origin, type, stamp, w5, w6, 0⟩ s

/-- A record stamped now (R54, R55). -/
def logRec (page off origin type w5 w6 : Nat) (s : State) : State :=
  logAt (nowStamp s) (epochHere s % 128) page off origin type w5 w6 s

/-- A DEVICE_EVENT record (R55); the marshal keeps the code of its own and the pair logic's last one (R429). -/
def logDev (page origin code w5 w6 : Nat) (s : State) : State :=
  let s := if page / 16 = 2 || page = 0x030 then
      { s with msh := { s.msh with lastEvent := code, statusDue := s.msh.statusDue || rf 0x022 0x100 16 16 s != 0 } } else s
  logRec page code origin 0x0A w5 w6 s

/-- The TABLE_BATCH record of a closed batch, at the time of its first write (R57, R520). Its writes took effect while the log was
not holding, so the record is written into the reserve when the log is holding at the close (DESIGN CHOICE, log entry 210); it is
counted only when it is written. -/
def batchWrite (b : Batch) (s : State) : State :=
  let r := logAt b.stamp b.epochLo b.page b.table b.origin 0x03 (b.first % 2 ^ 24 + (b.count - 1) * 2 ^ 24) (b.crc ^^^ 0xFFFFFFFF) s
  if logFree (logGap s) = 0 then r else ev 0x002 0x0103 1 r

/-- Every open batch that a test names is closed, oldest first (R57). -/
def batchClose (f : Batch → Bool) (s : State) : State :=
  (s.log.batches.filter f).foldl (fun a b => batchWrite b a)
    { s with log := { s.log with batches := s.log.batches.filter (fun b => !f b) } }

/-- A held or lost record of a host-side access is counted (R59). -/
def logHeld (s : State) : State := raise 0x002 10 (ev 0x002 0x0102 1 (bump 0x002 0x118 0 32 1 s))

/-- The records of a write by the origin are held back while the log is holding; those of writes to page 0x002 never are (R59). -/
def heldOrigin (page o : Nat) (s : State) : Bool := decide (o ≤ 0x43) && logHolding s && !(page == 0x002)

/-- A record of a write by an origin, or its count while the log is holding (R59). -/
def logAccess (page off o type w5 w6 : Nat) (s : State) : State :=
  if heldOrigin page o s then logHeld s else logRec page off o type w5 w6 s

/-- The ACCESS_REFUSED record of an access, or its count while the log is holding: only a write is exempt on page 0x002 (R59). -/
def logRefused (write : Bool) (page off o w5 : Nat) (s : State) : State :=
  if heldOrigin (if write then page else 0) o s then logHeld s else logRec page off o 0x04 w5 0 s

/-- The counter event of a PG_STAT bit (R67). -/
def statEvent (bit : Nat) : Nat :=
  match bit with
  | 0 => 0x0005 | 1 => 0x0006 | 2 => 0x0007 | 3 => 0x0009 | 4 => 0x0008 | 5 => 0x000A | _ => 0

/-- The page that a record names for an access to page `p`: 0x018 for the header of a VF view (R450). -/
def logPage (p : Nat) : Nat := if 0x1000 ≤ p then 0x018 else p

/-- A write is ignored, denied or refused: the status bit, its event and the WRITE_IGNORED record (R33, R53). -/
def ignore (p off o bit : Nat) (v : Word) (s : State) : State :=
  logAccess (logPage p) off o 0x05 v.toNat bit (ev p (statEvent bit) 1 (setStat p bit s))

/-- The page registers an accepted write: its count and PG_LAST_ORIGIN (R32, R67). -/
def accepted (p off o : Nat) (chamber : Bool) (s : State) : State :=
  wr p 0x94 (w32 (o % 256 + off / 4 % 16384 * 256 + b2n chamber * 2 ^ 31)) (ev p (if chamber then 0x0004 else 0x0003) 1 s)

/-- A write that takes effect is logged with its old and new values; it closes the origin's batch on another page (R57). -/
def logWrite (p off o : Nat) (old new : Word) (s : State) : State :=
  logRec (logPage p) off o 0x01 old.toNat new.toNat (batchClose (fun b => b.origin == o && !(b.page == logPage p)) s)

/-! ## Free values -/

/-- A free value is drawn (log entry 11). -/
def drawFree (s : State) : Nat × State := (Config.freeValue s.free, { s with free := s.free + 1 })

end Sys2Proof.Machine
end

