-- ==== Sys2Proof/Machine/Lic.lean ====
section
/-! DEFINITION. The line interface: lanes, port modes, the port state machine, verification and pause (R93-R114). -/
namespace Sys2Proof.Machine

/-! ## State access -/

/-- The port of channel `c`. -/
def port (c : Nat) (s : State) : Port := look {} s.lic.port c

/-- The port of a channel is changed. -/
def setPort (c : Nat) (f : Port → Port) (s : State) : State :=
  { s with lic := { s.lic with port := put {} s.lic.port c (f (port c s)) } }

/-- The N-lane, F-lane or baton lane `n`. -/
def nlane (n : Nat) (s : State) : Lane := look {} s.lic.nl n
def flane (n : Nat) (s : State) : Lane := look {} s.lic.fl n
def blane (n : Nat) (s : State) : Lane := look {} s.lic.bl n

def setNl (n : Nat) (f : Lane → Lane) (s : State) : State :=
  { s with lic := { s.lic with nl := put {} s.lic.nl n (f (nlane n s)) } }
def setFl (n : Nat) (f : Lane → Lane) (s : State) : State :=
  { s with lic := { s.lic with fl := put {} s.lic.fl n (f (flane n s)) } }
def setBl (n : Nat) (f : Lane → Lane) (s : State) : State :=
  { s with lic := { s.lic with bl := put {} s.lic.bl n (f (blane n s)) } }

/-- A frame of the device. -/
def frm (i : Nat) (s : State) : Frm := (find? s.lic.frames i).getD {}

/-- Frame `a` goes before frame `b` where frames of one cycle are ordered: the earlier reference instant, then the lower source number
(R206, R294). -/
def refBefore (s : State) (a b : Nat) : Bool :=
  let f := frm a s
  let g := frm b s
  decide (f.stamp < g.stamp) || (f.stamp == g.stamp && decide (f.src < g.src))

/-- The frame is still inside the device. -/
def frmLive (i : Nat) (s : State) : Bool := (find? s.lic.frames i).isSome

def setFrm (i : Nat) (f : Frm → Frm) (s : State) : State :=
  match find? s.lic.frames i with
  | none => s
  | some x => { s with lic := { s.lic with frames := ins s.lic.frames i (f x) } }

/-- A new frame enters the device; its number. -/
def newFrm (x : Frm) (s : State) : State :=
  { s with lic := { s.lic with frames := ins s.lic.frames s.lic.nextFrame x, nextFrame := s.lic.nextFrame + 1 } }

/-- What a receive capture point holds of a frame changes (R362). -/
def tapNote (i : Nat) (f : RxTap → RxTap) (s : State) : State :=
  match find? s.arc.taps i with
  | none => s
  | some x => { s with arc := { s.arc with taps := ins s.arc.taps i (f x) } }

/-- The frame's verdict is known to its receive capture point: the first one stands (R362). -/
def tapEnd (i : Nat) (bad : Bool) (s : State) : State :=
  tapNote i (fun x => if x.done then x else { x with done := true, bad := bad }) s

/-- A frame leaves the device. -/
def dropFrm (i : Nat) (s : State) : State :=
  tapEnd i true { s with lic := { s.lic with frames := del s.lic.frames i } }

/-! ## Port modes (R94, R95) -/

/-- The page of channel `c`. -/
def licPage (c : Nat) : Nat := 0x040 + c

/-- The lanes and the lane rate in kb/s that a row of R95 gives SPEED, LANES and FEC. -/
def portRow (speed lanes fec : Nat) : Option (Nat × Nat) :=
  match speed, lanes, fec with
  | 1, 0, 0 => some (1, 1250000)
  | 2, 0, 0 => some (1, 10312500)
  | 3, 0, 0 => some (1, 25781250)
  | 3, 0, 1 => some (1, 25781250)
  | 4, 0, 2 => some (1, 53125000)
  | 5, 0, 2 => some (1, 106250000)
  | 5, 1, 2 => some (2, 53125000)
  | 6, 1, 2 => some (2, 106250000)
  | 6, 2, 2 => some (4, 53125000)
  | 7, 2, 2 => some (4, 106250000)
  | 7, 3, 2 => some (8, 53125000)
  | 8, 3, 2 => some (8, 106250000)
  | 9, 0, 0 => some (1, 2488320)
  | 10, 0, 0 => some (1, 2488320)
  | 11, 0, 0 => some (1, 2488320)
  | 12, 0, 0 => some (1, 9953280)
  | _, _, _ => none

/-- The MAC rate in Mb/s of a SPEED code; 0 for a port that is off or carries SDH. -/
def macMbps (speed : Nat) : Nat :=
  match speed with
  | 1 => 1000 | 2 => 10000 | 3 => 25000 | 4 => 50000 | 5 => 100000 | 6 => 200000 | 7 => 400000 | 8 => 800000
  | _ => 0

/-- LIC_PORT_CFG.SPEED of channel `c`. -/
def chSpeed (c : Nat) (s : State) : Nat := rf (licPage c) 0x100 0 4 s

/-- The row of R95 that the port configuration of a channel selects. -/
def chRow (c : Nat) (s : State) : Option (Nat × Nat) :=
  portRow (chSpeed c s) (rf (licPage c) 0x100 4 2 s) (rf (licPage c) 0x100 6 2 s)

/-- The number of lanes of the port, by its LANES code. -/
def chLanes (c : Nat) (s : State) : Nat := 2 ^ rf (licPage c) 0x100 4 2 s

/-- The port uses NRZ signalling. -/
def chNrz (c : Nat) (s : State) : Bool :=
  match chSpeed c s with
  | 4 => false | 5 => false | 6 => false | 7 => false | 8 => false | _ => true

/-- Channel `c` is enabled on its page. -/
def chEn (c : Nat) (s : State) : Bool := pageLive (licPage c) s && decide (c < 256) && rb (licPage c) 0x08 0 s

/-- The channels of the device. -/
def channels (s : State) : List Nat := List.range (if s.fixed.ident.varH then 128 else 256)

/-- The channels whose port uses N-lane `n`. -/
def laneOwner (n : Nat) (s : State) : Option Nat :=
  [n, n - 1, n - 2, n - 3, n - 4, n - 5, n - 6, n - 7].find?
    (fun c => decide (c ≤ n) && chEn c s && chSpeed c s != 0 && decide (n < c + chLanes c s))

/-- What a port sends (R97, R112, R115): nothing, frames, idle, remote fault, the Clause 37 remote fault of a 1000BASE-X port; and on an STM
port the frames of its SDH channel, or all ones. -/
inductive PortOut where
  | off | frames | idle | remoteFault | an37Fault | stm | allOnes
  deriving DecidableEq, Repr

/-- Remote fault as the port signals it: a 1000BASE-X port through Clause 37 with AN37_EN, and otherwise not at all, by idle (R112). -/
def faultSignal (c : Nat) (s : State) : PortOut :=
  if chSpeed c s = 1 then (if rb (licPage c) 0x100 8 s then .an37Fault else .idle) else .remoteFault

/-- An enabled SDH channel names network channel `c` (R115). -/
def sdhNamed (c : Nat) (s : State) : Bool :=
  (upto 0x140 32).any (fun p => rb p 0x008 0 s && rf p 0x100 0 8 s == c)

/-- What the port of a channel sends in its state; SEND_RF forces remote fault in every state (R97, R112). An STM port carries no frames: it
sends what its SDH channel builds, or all ones without one, and the MAC discards what it receives (R115). -/
def portSends (c : Nat) (s : State) : PortOut :=
  match (port c s).st with
  | .disabled => .off
  | st => if 9 ≤ chSpeed c s && chSpeed c s ≤ 12 then (if sdhNamed c s then .stm else .allOnes) else match st with
  | .disabled => .off
  | .up => if rb (licPage c) 0x118 16 s then faultSignal c s else .frames
  | .remoteFault => if rb (licPage c) 0x118 16 s then faultSignal c s else .idle
  | _ => faultSignal c s

/-- What Clause 37 advertises on a 1000BASE-X port: full duplex, and symmetric pause equal to PAUSE_EN (R97). -/
def an37Ability (c : Nat) (s : State) : Bool × Bool := (true, rb (licPage c) 0x104 16 s)

/-- The port is up for traffic: it sends frames (R97). -/
def chUp (c : Nat) (s : State) : Bool := portSends c s == .frames

/-- N-lane `n` is muted by the pair logic; the F-lanes are (R101, R391). -/
def nMuted (n : Nat) (s : State) : Bool :=
  s.pair.mute == 2 || (s.pair.mute == 1 && rb 0x030 (0x140 + 4 * (n / 32)) (n % 32) s)
def fMuted (s : State) : Bool := s.pair.mute != 0

/-- What a serializer puts out: mute overrides TX_SQUELCH (R101). -/
def serializer (l : Lane) (muted : Bool) (ctl : Word) : LaneOut :=
  if !l.powered then .off else if muted then .zero else if bitOf ctl 2 then .idle else .stream

/-- The serializer of N-lane, F-lane or baton lane `n`; baton lanes are never muted (R101). -/
def nlaneOut (n : Nat) (s : State) : LaneOut := serializer (nlane n s) (nMuted n s) (rd (licPage n) 0x200 s)
def flaneOut (n : Nat) (s : State) : LaneOut := serializer (flane n s) (fMuted s) (rd (licPage n) 0x300 s)
def blaneOut (n : Nat) (s : State) : LaneOut := serializer (blane n s) false (rd (licPage n) 0x400 s)

/-- RX_POL of a lane matches the board's wiring, without which it never reaches block or codeword lock (R113; the wiring is log entry
202). `grp` is 0 for N-lanes, 1 for F-lanes, 2 for baton lanes. -/
def polOk (grp n : Nat) (s : State) : Bool :=
  rb (licPage n) (0x200 + 0x100 * grp) 3 s == s.fixed.crossed.contains (256 * grp + n)

/-! ## The page check (R96) -/

/-- Another enabled port, in the same transmit group, with another lane rate (R24). -/
def groupClash (c rate : Nat) (s : State) : Bool :=
  (upto (c / 8 * 8) 8).any (fun d => d != c && chEn d s && chSpeed d s != 0 &&
    (match chRow d s with | some (_, r) => r != rate | none => false))

/-- A port other than that of channel `c`, enabled, has N-lane `n` (R94). -/
def laneTaken (c n : Nat) (s : State) : Bool :=
  [n, n - 1, n - 2, n - 3, n - 4, n - 5, n - 6, n - 7].any
    (fun d => d != c && decide (d ≤ n) && chEn d s && chSpeed d s != 0 && decide (n < d + chLanes d s))

/-- FAIL_REASON of the LIC page check; 0 when every condition passes (R96). -/
def licCheck (c : Nat) (s : State) : Nat :=
  let sp := chSpeed c s
  let k := chLanes c s
  let mac := rd (licPage c) 0x104 s
  if sp != 0 && c % k != 0 then 0x01
  else if sp != 0 && ((upto c k).any (fun n => laneTaken c n s) || (upto (c + 1) (k - 1)).any (fun d => chSpeed d s != 0)) then 0x02
  else if sp != 0 && (chRow c s).isNone then 0x03
  else if sp != 0 && groupClash c ((chRow c s).getD (0, 0)).2 s then 0x04
  else if bitOf mac 16 && bitOf mac 17 then 0x05
  else if fld mac 0 14 < 128 then 0x06
  else if sp != 0 && sp != 1 && rb (licPage c) 0x100 8 s then 0x07
  else 0

/-! ## F-lanes and baton lanes (R100) -/

/-- An F-lane or baton lane moves to a state; a change is counted and reported (R100, R114). -/
def flaneGo (n st : Nat) (s : State) : State :=
  if (flane n s).st = st then s
  else raise (licPage n) 10 (ev (licPage n) 0x0122 1 (setFl n (fun l => { l with st := st }) s))
def blaneGo (n st : Nat) (s : State) : State :=
  if (blane n s).st = st then s
  else raise (licPage n) 10 (ev (licPage n) 0x0124 1 (setBl n (fun l => { l with st := st }) s))

/-- The lane's EN decides between OFF and ADAPT; its receiver adapts anew (R100, R113). -/
def flaneStart (n : Nat) (s : State) : State :=
  let on := rb (licPage n) 0x300 0 s
  flaneGo n (b2n on) (setFl n (fun l => { st := l.st, powered := on }) s)
/-- A baton lane is on by its EN, or while the pair logic runs (R100, R394). -/
def blaneOn (n : Nat) (s : State) : Bool := rb (licPage n) 0x400 0 s || s.pair.role != .solo
def blaneStart (n : Nat) (s : State) : State :=
  let on := blaneOn n s
  blaneGo n (b2n on) (setBl n (fun l => { st := l.st, powered := on }) s)

/-! ## Register side -/

/-- LIC_LINK_STAT.STATE code. -/
def portCode (st : PortState) : Nat :=
  match st with
  | .disabled => 0 | .acquire => 1 | .align => 2 | .up => 3 | .localFault => 4 | .remoteFault => 5

/-- A lane status word. -/
def laneWord (l : Lane) (muted : Bool) (st : Nat) : Word :=
  w32 (st + b2n l.signal * 8 + b2n l.cdr * 16 + b2n l.adapt * 32 + b2n muted * 64 + b2n l.powered * 128 +
    (if l.powered && l.adapt then l.eye % 256 else 0) * 256)

/-- The hold is on for bulk class `k` of channel `c`. -/
def classHeld (c k : Nat) (s : State) : Bool := (find? (port c s).hold k).isSome

/-- Read-only registers of a LIC page (R113); lane status words need the mute of the pair logic. -/
def licRo (c off : Nat) (mutedN mutedF : Bool) (s : State) : Option Word :=
  let p := port c s
  if off = 0x10C then
    let idle := b2n (rb (licPage c) 0x108 0 s && !rb (licPage c) 0x108 1 s)
    some (w32 (if p.st == .up then p.verify + b2n p.active * 8 else idle))
  else if off = 0x114 then
    some (w32 ((List.range 8).foldl (fun a k => a + b2n (classHeld c k s) * 2 ^ k) 0 + b2n p.linkPaused * 256))
  else if off = 0x11C then
    let ls := upto c (chLanes c s)
    let on := p.st != .disabled
    let lf := on && (p.lfRx || !p.blockLock || !p.fecLock || (rf (licPage c) 0x100 6 2 s != 0 && !p.amLock))
    some (w32 (portCode p.st + b2n (on && ls.all (fun n => (nlane n s).signal)) * 8 +
      b2n (on && ls.all (fun n => (nlane n s).cdr)) * 16 + b2n p.blockLock * 32 + b2n p.amLock * 64 + b2n p.fecLock * 128 +
      b2n lf * 256 + b2n p.rfRx * 512 + b2n p.anDone * 1024 + b2n p.anPause * 2048))
  else if off = 0x208 then some (laneWord (nlane c s) mutedN 0)
  else if off = 0x308 then some (laneWord (flane c s) mutedF (flane c s).st)
  else if off = 0x408 && decide (c < 8) then some (laneWord (blane c s) false (blane c s).st)
  else none

/-- A write that a LIC rule refuses with WR_IGNORED: transmit taps above full swing (R113). -/
def licRefuses (off : Nat) (v : Word) : Bool :=
  (off == 0x204 || off == 0x304 || off == 0x404) && decide (63 < fld v 0 6 + fld v 8 6 + fld v 16 6)

/-- The writable value of a lane control: LOOPBACK 3 is reserved and ignored, N-lane and baton reserved bits read zero (R113). -/
def laneCtlValue (off : Nat) (old v : Word) : Word :=
  let v := if fld v 5 2 = 3 then setFld v 5 2 (fld old 5 2) else v
  if off = 0x200 then v &&& 0x7C else if off = 0x400 then v &&& 0x7D else v

/-! ## Lane meanings -/

/-- A lane whose receiver has adapted, and from ADAPT goes on to FEC_ALIGN. -/
def adapted (l : Lane) : Lane := { l with signal := true, cdr := true, adapt := true }

/-- FLANE_UP (R100): adaptation takes a lane from ADAPT to FEC_ALIGN, and codeword lock held for 1 ms, `locked`, on to UP. -/
def flaneUpEffect (n : Nat) (locked : Bool) (s : State) : State :=
  if (flane n s).st = 1 || (flane n s).st = 2 then
    let s := flaneGo n 2 (setFl n adapted s)
    if locked && polOk 1 n s then flaneGo n 3 s else s
  else s
def blaneUpEffect (n : Nat) (locked : Bool) (s : State) : State :=
  if (blane n s).st = 1 || (blane n s).st = 2 then
    let s := blaneGo n 2 (setBl n adapted s)
    if locked && polOk 2 n s then blaneGo n 3 s else s
  else s

/-- What a loss leaves of a lane's receiver: 0 the signal, 1 the CDR lock with the signal there, 2 the codeword lock alone. -/
def laneLose (what : Nat) (l : Lane) : Lane :=
  match what with
  | 0 => { l with signal := false, cdr := false, adapt := false, eye := 0 }
  | 1 => { l with cdr := false, adapt := false, eye := 0 }
  | _ => l

/-- FLANE_DOWN (R100): loss of signal, CDR lock or codeword lock returns a lane to ADAPT. -/
def flaneDownEffect (n what : Nat) (s : State) : State :=
  if (flane n s).st = 2 || (flane n s).st = 3 then flaneGo n 1 (setFl n (laneLose what) s) else s
def blaneDownEffect (n what : Nat) (s : State) : State :=
  if (blane n s).st = 2 || (blane n s).st = 3 then blaneGo n 1 (setBl n (laneLose what) s) else s

/-- Codewords that the FEC decoder of a lane corrected and could not correct count in their events and saturating registers (R114). -/
def fecCount (p corrEv uncEv corrOff uncOff corr unc : Nat) (s : State) : State :=
  let s := if corr = 0 then s else ev p corrEv corr (if corrOff = 0 then s else bump p corrOff 0 32 corr s)
  if unc = 0 then s else ev p uncEv unc (if uncOff = 0 then s else bump p uncOff 0 32 unc s)

/-- The codewords that a lane's receiver decoded since its last report: a port with FEC counts those of its N-lanes on its own page,
an F-lane that is UP and a baton lane that is UP those of their own (R95, R100, R114). -/
def fecReport (grp n corr unc sym : Nat) (s : State) : State :=
  match grp with
  | 0 => match laneOwner n s with
    | some c =>
      if (port c s).fecLock && rf (licPage c) 0x100 6 2 s != 0 then
        (if sym = 0 then id else ev (licPage c) 0x0116 sym) (fecCount (licPage c) 0x0114 0x0115 0x124 0x128 corr unc s)
      else s
    | none => s
  | 1 => if (flane n s).st = 3 then fecCount (licPage n) 0x0120 0x0121 0 0x30C corr unc s else s
  | _ => if (blane n s).st = 3 && unc != 0 then ev (licPage n) 0x0123 unc s else s

/-- EYE_UPDATE (R113, R114): an adapted, powered receiver reports its EYE monitor and the codewords and symbols that its FEC decoder
corrected or could not correct since its last report. -/
def execEyeUpdate (t grp n eye corr unc sym : Nat) : State → Res := onLive fun s =>
  let s := advance t s
  let f (l : Lane) : Lane := if l.powered && l.adapt then { l with eye := eye % 256 } else l
  fecReport grp n corr unc sym (match grp with
  | 0 => setNl n f s
  | 1 => setFl n f s
  | _ => setBl n f s)

end Sys2Proof.Machine
end

