-- ==== Sys2Proof/Machine/Tim.lean ====
section
/-! DEFINITION. The time unit: the time base, the servo, references and pins, epochs and steps (R68-R92). -/
namespace Sys2Proof.Machine

/-- The time unit's pages. -/
def pgTim : Nat := 0x010
def pgPtp : Nat := 0x011
def pgRef : Nat := 0x012

/-! ## The servo (R81-R83) -/

/-- TIM_SERVO_CFG.MODE (R81). -/
def servoMode (s : State) : Nat := rf pgTim 0x114 0 2 s

/-- The servo drives TIM_FREQ_ADJ: modes OFFSET and PPS. -/
def servoDrives (s : State) : Bool := servoMode s == 1 || servoMode s == 2

/-- The range of TIM_FREQ_ADJ, in 2^-8 ppb (R68). -/
def adjClamp (v : Int) : Int := clampI v (-51200000) 51200000

/-- TIM_FREQ_ADJ takes a value, clamped to 200 ppm (R68, R81). -/
def setAdj (v : Int) (s : State) : State := wr pgTim 0x110 (w32 (unsgn (adjClamp v) 32)) s

/-- The servo state changes (STATE_CHANGE). -/
def servoGo (st : ServoState) (s : State) : State :=
  if s.tim.servo = st then s
  else raise pgTim 9 { s with tim := { s.tim with servo := st, inRun := 0, outRun := 0 } }

/-- The PI loop on one input in 2^-8 ns: I is kept in 2^-20 ppb (R81). ADJ is rounded down to a unit of TIM_FREQ_ADJ (DESIGN CHOICE, log
entry 216). -/
def piLoop (ofs : Int) (s : State) : State :=
  let cfg := rd pgTim 0x114 s
  let acc := s.tim.acc + fld cfg 12 8 * ofs
  let adj := (acc + fld cfg 4 8 * ofs * 16) / 4096
  let s := { s with tim := { s.tim with acc := acc, adjHist := (adjClamp adj :: s.tim.adjHist).take (rf pgTim 0x120 0 16 s) } }
  let s := setAdj adj s
  if adjClamp adj = adj then s else ev pgTim 0x0103 1 s

/-- BACK_STEP_NEEDED: an offset that needs a backward correction beyond BACK_LIMIT while epochs run (R82). -/
def backStepJudge (ofs : Int) (s : State) : State :=
  let lim : Int := rf pgTim 0x114 20 8 s * 1000000 * 256
  if s.tim.run && decide (lim < ofs) then raise pgTim 10 { s with tim := { s.tim with backStep := true } }
  else if decide (-lim ≤ ofs) && decide (ofs ≤ lim) then { s with tim := { s.tim with backStep := false } }
  else s

/-- The state table of R83 on an input: runs of inputs in and out of THR. -/
def servoTable (ofs : Int) (s : State) : State :=
  let thr : Int := rf pgTim 0x11C 0 12 s * 256
  let need := rf pgTim 0x11C 12 4 s + 1
  let inside := decide (-thr ≤ ofs) && decide (ofs ≤ thr)
  match s.tim.servo with
  | .acquiring =>
    let n := if inside then s.tim.inRun + 1 else 0
    if need ≤ n then servoGo .locked { s with tim := { s.tim with adjHist := [] } }
    else { s with tim := { s.tim with inRun := n } }
  | .locked =>
    let n := if inside then 0 else s.tim.outRun + 1
    if need ≤ n then servoGo .acquiring s else { s with tim := { s.tim with outRun := n } }
  | _ => s

/-- SERVO_INPUT (R81, R83): the loop takes the input that an offset write or a 1PPS edge left. -/
def execServoInput (t : Nat) : State → Res := onLive fun s =>
  let s := advance t s
  match s.tim.pendOfs with
  | none => s
  | some ofs =>
    let s := { s with tim := { s.tim with pendOfs := none } }
    if !servoDrives s then s
    else
      let s := { s with tim := { s.tim with lastInput := s.tim.up, lastOfs := ofs } }
      let s := backStepJudge ofs (ev pgTim 0x0102 1 s)
      match s.tim.servo with
      | .free => piLoop ofs (servoGo .acquiring { s with tim := { s.tim with acc := 0 } })
      | .holdover => piLoop ofs (servoGo .acquiring { s with tim := { s.tim with acc := sgn (rd pgTim 0x110 s).toNat 32 * 4096 } })
      | _ => servoTable ofs (piLoop ofs s)

/-- The mean of the ADJ values kept, rounded down (DESIGN CHOICE, log entry 216); the last value when none is kept (R83). -/
def adjMean (s : State) : Int :=
  if s.tim.adjHist.isEmpty then sgn (rd pgTim 0x110 s).toNat 32
  else s.tim.adjHist.foldl (· + ·) 0 / s.tim.adjHist.length

/-- SERVO_SOURCE_TIMEOUT (R83): no input for SRC_TIMEOUT. -/
def execServoSourceTimeout (t : Nat) : State → Res := onLive fun s =>
  let s := advance t s
  match s.tim.servo with
  | .locked => servoGo .holdover (setAdj (adjMean s) { s with tim := { s.tim with holdStart := s.tim.up } })
  | .acquiring => servoGo .free s
  | _ => s

/-- HOLDOVER_LIMIT (R83): LIMIT minutes have passed in HOLDOVER; the frozen value is kept. -/
def execHoldoverLimit (t : Nat) : State → Res := onLive fun s =>
  let s := advance t s
  if s.tim.servo = .holdover then raise pgTim 11 (servoGo .free s) else s

/-- MODE has been written: 0 returns the servo to FREE (R83). Code 3 acts as MANUAL on the loop and leaves STATE as it is (DESIGN CHOICE, log
entry 217). -/
def servoModeWritten (s : State) : State := if servoMode s = 0 then servoGo .free s else s

/-! ## Replica, references, pins (R70, R80, R84-R86) -/

/-- REPLICA_CORRECTION (R70): the TM replica takes its correction; its error is reported. -/
def execReplicaCorrection (t : Nat) (err : Int) : State → Res := onLive fun s =>
  let s := advance t s
  let s := { s with tim := { s.tim with replicaErr := err } }
  if err < -256 || 256 < err then ev pgTim 0x0106 1 s else s

/-- A write that changes SEL starts a change of reference (R80). -/
def refSelect (sel : Nat) (s : State) : State := { s with tim := { s.tim with refPending := some sel } }

/-- The live conditions of the three inputs, whether or not they are selected, and the lock of the time PLL: it locks on a healthy
selected input, and keeps its lock and its frequency without one (R80, R513). -/
def refReport (ok : Nat) (s : State) : State :=
  let lock := nbit ok s.tim.refActive || nbit s.tim.refStat 3
  { s with tim := { s.tim with refStat := ok % 8 + b2n lock * 8 } }

/-- REFERENCE_SWITCH (R80): the time PLL has been steered to the reference selected, without a step; with no change asked for it locks
on the one in use (log entry 22). `ok` gives the inputs that are healthy: oscillator, SyncE, 10 MHz. -/
def execReferenceSwitch (t ok : Nat) : State → Res := onLive fun s =>
  let s := advance t s
  match s.tim.refPending with
  | none => refReport ok s
  | some r => refReport ok (ev pgRef 0x0103 1 { s with tim := { s.tim with refPending := none, refActive := r } })

/-- REFERENCE_LOSS (R513): a reference disappears; the PLL holds its frequency. -/
def execReferenceLoss (t ref : Nat) : State → Res := onLive fun s =>
  let s := advance t s
  if nbit s.tim.refStat ref && decide (ref < 3) then { s with tim := { s.tim with refStat := s.tim.refStat - 2 ^ ref } } else s

/-- The configuration word of a recovered-clock output. -/
def rclkCfg (outB : Bool) (s : State) : Word := rd pgRef (if outB then 0x10C else 0x108) s

/-- The output frequency of a recovered-clock configuration exceeds 250 MHz (R23, R84). -/
def rclkTooFast (w : Word) (s : State) : Bool :=
  match laneOwner (fld w 0 8) s with
  | none => false
  | some c =>
    match chRow c s with
    | none => false
    | some (_, r) => decide (250000 * (fld w 8 12 + 1) < r / (if r ≤ 28000000 then 64 else 128))

/-- The N-lane whose receive clock an output presents has signal and lock. -/
def rclkLaneOk (outB : Bool) (s : State) : Bool :=
  let l := nlane (fld (rclkCfg outB s) 0 8) s
  l.signal && l.cdr

/-- The squelch of an output is set or lifted. -/
def rclkSquelched (outB on : Bool) (s : State) : State :=
  { s with tim := if outB then { s.tim with sqB := on } else { s.tim with sqA := on } }

/-- RCLK_SQUELCH (R84): the lane of a recovered-clock output lost signal or lock with SQUELCH_EN. -/
def execRclkSquelch (t : Nat) (outB : Bool) : State → Res := onLive fun s =>
  let s := advance t s
  let w := rclkCfg outB s
  let was := if outB then s.tim.sqB else s.tim.sqA
  if bitOf w 20 && bitOf w 21 && !was && !rclkLaneOk outB s then ev pgRef 0x0102 1 (rclkSquelched outB true s) else s

/-- RCLK_RESUME (R84): 10 ms after lock returned the output resumes. -/
def execRclkResume (t : Nat) (outB : Bool) : State → Res := onLive fun s =>
  let s := advance t s
  if rclkLaneOk outB s then rclkSquelched outB false s else s

/-- An output's configuration has been written: a squelch of another lane, or one no longer enabled, is lifted (R84). -/
def rclkWrote (outB : Bool) (old v : Word) (s : State) : State :=
  if fld old 0 8 != fld v 0 8 || !bitOf v 21 then rclkSquelched outB false s else s

/-- A recovered-clock output is driven: enabled, not squelched, within 250 MHz (R84). -/
def rclkDriven (outB : Bool) (s : State) : Bool :=
  bitOf (rclkCfg outB s) 20 && !(if outB then s.tim.sqB else s.tim.sqA) && !rclkTooFast (rclkCfg outB s) s

/-- A stamp moved by a signed delay in 2^-8 ns. -/
def shiftStamp (t : Nat) (d : Int) : Nat := ((t : Int) + d * 256).toNat

/-- The signed distance of a stamp from the nearest whole second, in 2^-8 ns (R81, R85). -/
def secondOfs (t : Nat) : Int :=
  let r := t % secU
  if 2 * r ≤ secU then (r / 256 : Nat) else ((r : Int) - secU) / 256

/-- The distance of a stamp from the nearest whole second, in stamp units (R85). -/
def secondDist (t : Nat) : Nat := min (t % secU) (secU - t % secU)

/-- PPS_IN_EDGE (R85): an input edge is stamped and accepted or rejected. The 500 ms run in time that no step moves. -/
def execPpsInEdge (raw : Nat) : State → Res := onLive fun s =>
  let s := advance raw s
  if !rb pgRef 0x11C 0 s then s
  else
    let t := shiftStamp raw (-(sgn (rd pgRef 0x120 s).toNat 32))
    let near := s.tim.ppsIn.isSome && decide (s.tim.up < s.tim.ppsUp + 500000000 * 2 ^ 32)
    let ofs := secondOfs t
    let far := s.tim.servo = .locked && decide (100000000 * nsU < secondDist t)
    if near || far then ev pgRef 0x0101 1 (bump pgRef 0x130 0 32 1 s)
    else
      let s := ev pgRef 0x0100 1 { s with tim := { s.tim with ppsIn := some t, ppsUp := s.tim.up } }
      if servoMode s = 2 then { s with tim := { s.tim with pendOfs := some ofs } } else s

/-- The squelch of an output by the servo state: allowed in LOCKED and HOLDOVER (R86). -/
def squelchOk (w : Word) (s : State) : Bool := !bitOf w 1 || s.tim.servo = .locked || s.tim.servo = .holdover

/-- The output edge nearest to `t`: a whole second of the time base minus TIM_PPS_OUT_OFS (R86). -/
def ppsEdgeAt (t : Nat) (s : State) : Nat :=
  let ofs := sgn (rd pgRef 0x114 s).toNat 32
  shiftStamp ((shiftStamp t ofs + secU / 2) / secU * secU) (-ofs)

/-- PPS_OUT_EDGE (R86): the 1PPS output rises at a whole second minus its offset and falls WIDTH µs later; the 10 MHz edge comes with the
rise. -/
def execPpsOutEdge (t : Nat) : State → Res := onLive fun s =>
  let s := advance t s
  let w := rd pgRef 0x110 s
  let m := rd pgRef 0x118 s
  let e := ppsEdgeAt t s
  let s := if bitOf w 0 && squelchOk w s then
      { s with tim := { s.tim with ppsOut := some e, ppsFall := e + fld w 8 16 * 1000 * nsU } }
    else s
  if bitOf m 0 && squelchOk m s then { s with tim := { s.tim with tenmOut := some e } } else s

/-- The level of the 1PPS output: high from its edge for WIDTH µs, and low while it is off or squelched (R86). -/
def ppsHigh (s : State) : Bool :=
  let w := rd pgRef 0x110 s
  bitOf w 0 && squelchOk w s &&
  (match s.tim.ppsOut with
   | some e => decide (e ≤ nowStamp s) && decide (nowStamp s < s.tim.ppsFall)
   | none => false)

/-! ## Epochs and steps (R87-R89) -/

/-- Setting RUN starts the generator at the first boundary whose preannouncement instant is not past (R88). -/
def epochRun (s : State) : State :=
  if s.tim.run then s
  else
    let t := s.tim.now + 20000 * 2 ^ 32
    let u := epochU * 65536
    { s with tim := { s.tim with run := true, nextIssue := (t + u - 1) / u } }

/-- The step amount in the step registers, in stamp units (R89). -/
def stepAmount (s : State) : Nat :=
  mkStamp (rf pgTim 0x12C 0 16 s * 2 ^ 32 + (rd pgTim 0x128 s).toNat) (rd pgTim 0x124 s).toNat 0

/-- A TIM_STEP_CMD write that is refused with WR_IGNORED (R89): STEP while paired or with a step pending, SET while RUN. A write of both is
refused whole when either is; before RUN the step acts first and SET after it (DESIGN CHOICE, log entry 218). -/
def stepRefused (v : Word) (s : State) : Bool :=
  (bitOf v 0 && (s.lock.paired || s.tim.step.isSome)) || (bitOf v 1 && s.tim.run)

/-- TIM_STEP_CMD.STEP: committed for the next unissued boundary, or applied at once before RUN (R89). -/
def timStep (s : State) : State :=
  if s.tim.run then { s with tim := { s.tim with step := some (stepAmount s) } }
  else raise pgTim 13 (ev pgTim 0x0104 1 { s with tim := { s.tim with now := s.tim.now + stepAmount s * 65536 } })

/-- TIM_STEP_CMD.SET: the step registers are loaded as the absolute time, before RUN (R89). -/
def timSet (s : State) : State := raise pgTim 13 { s with tim := { s.tim with now := stepAmount s * 65536 } }

/-- The preannouncement of the next boundary, 20 microseconds before it, with any committed step (R88, R89). -/
def preIssue (miss : List Nat) (s : State) : State :=
  let n := s.tim.nextIssue
  let s := advance (n * epochU - 20000 * nsU) s
  ev pgTim 0x0100 1
    { s with tim := { s.tim with issued := some ⟨n, n * epochU, s.tim.step⟩, missPages := miss } }

/-- A boundary is reached: its epoch opens, and a step that it carries is applied (R87, R89). -/
def boundaryOpen (b : Pre) (s : State) : State :=
  let s := advance b.at_ s
  let s := { s with tim := { s.tim with
    issued := none, missPages := [], inForce := some b.epoch, nextIssue := b.epoch + 1
    firstB := if s.tim.inForce.isNone then b.at_ else s.tim.firstB } }
  match b.step with
  | none => s
  | some d =>
    let after := b.at_ + d
    let nxt := (after + 20000 * nsU + epochU - 1) / epochU
    let s := { s with tim := { s.tim with
      now := s.tim.now + d * 65536, step := none, nextIssue := nxt
      stretch := s.tim.stretch ++ [(after, nxt * epochU, b.epoch)] } }
    raise pgTim 13 (ev pgTim 0x0105 (nxt - (b.epoch + 1)) (ev pgTim 0x0104 1 s))

/-- A domain without the preannouncement reports an epoch miss, naming the first page (R22). -/
def epochMiss (p : Nat) (s : State) : State :=
  let s := if rf pgTim 0x140 0 16 s = 0 then wf pgTim 0x140 16 9 p s else s
  raise pgTim 12 (ev pgTim 0x0101 1 (bump pgTim 0x140 0 16 1 s))

/-! ## PTP (R72-R79) -/

/-- RX_USER (word 2) or TX_USER (word 3) as a frame stamped `internal` sees it: a change applies 1 µs after its write. -/
def calUser (c w internal : Nat) (s : State) : Int :=
  let v := match s.tim.userOld.find? (fun e => e.1 == 4 * c + w && decide (internal < e.2.1 + 1000 * nsU)) with
    | some e => e.2.2
    | none => tw tbCal c w s
  sgn v.toNat 32

/-- RX_USER or TX_USER of a channel has been written over `old`. -/
def userWritten (c w : Nat) (old : Word) (s : State) : State :=
  if w = 2 || w = 3 then
    { s with tim := { s.tim with
      userOld := s.tim.userOld.filter (fun e => decide (nowStamp s < e.2.1 + 1000 * nsU)) ++ [(4 * c + w, nowStamp s, old)] } }
  else s

/-- The receive stamp of a channel from the internal stamp and V, in stamp units (R73). -/
def rxStamp (c internal v : Nat) (s : State) : Nat :=
  ((internal : Int) - ((tw tbCal c 0 s).toNat + v + calUser c 2 internal s) * 256).toNat

/-- The transmit stamp of a channel from the internal stamp (R73). -/
def txStamp (c internal : Nat) (s : State) : Nat :=
  ((internal : Int) + ((tw tbCal c 1 s).toNat + calUser c 3 internal s) * 256).toNat

/-- A two-step transmit stamp enters the device FIFO, or is discarded when it is full (R78). -/
def txtsPush (e : TxTs) (s : State) : State :=
  if s.tim.txts.length < 4096 then { s with tim := { s.tim with txts := s.tim.txts ++ [e] } }
  else raise pgPtp 9 (ev pgPtp 0x0104 1 (bump pgPtp 0x128 0 32 1 s))

/-- TIM_TXTS_POP removes the head entry (R78). -/
def txtsPop (s : State) : State := { s with tim := { s.tim with txts := s.tim.txts.drop 1 } }

/-- A TC domain with this number is enabled (R79). -/
def tcDomain (dom : Nat) (s : State) : Bool :=
  (List.range 4).any (fun k => rb pgPtp 0x100 (16 + k) s && rf pgPtp 0x104 (8 * k) 8 s == dom)

/-- A Pdelay message of an enabled TC domain is not forwarded; firmware's own, from source 288, is sent (R79). `ptp` is what the parser found:
messageType, domain and the rest. -/
def pdelayStops (src : Nat) (ptp : Option (Nat × Nat × Bool)) (s : State) : Bool :=
  match ptp with
  | some (m, dom, _) => src != 288 && (m == 2 || m == 3 || m == 10) && tcDomain dom s
  | none => false

/-! ## Register side -/

def servoCode (st : ServoState) : Nat :=
  match st with | .free => 0 | .acquiring => 1 | .locked => 2 | .holdover => 3

/-- Read-only registers of the TIM pages. -/
def timRo (p off : Nat) (s : State) : Option Word :=
  if p = pgTim then
    if off = 0x100 then some (stampA (nowStamp s)) else if off = 0x104 then some (stampB (nowStamp s))
    else if off = 0x108 then some (stampC (nowStamp s))
    else if off = 0x10C then
      some (w32 (servoCode s.tim.servo + b2n s.tim.run * 8 + b2n s.tim.step.isSome * 16 + b2n s.tim.backStep * 32 + s.tim.refActive * 64))
    else if off = 0x134 then some (w32 (b2n s.tim.run))
    else if off = 0x138 then some (w32 (epochNow s)) else if off = 0x13C then some (w32 (epochNow s / 2 ^ 32))
    else if off = 0x144 then some (w32 (unsgn s.tim.replicaErr 32)) else none
  else if p = pgPtp then
    let h := s.tim.txts.headD ⟨0, 0, 0, 0, 0⟩
    let v := !s.tim.txts.isEmpty
    if off = 0x108 then some (w32 s.tim.txts.length)
    else if off = 0x110 then some (w32 (h.chan % 256 + h.msgType % 16 * 256 + h.seqId % 65536 * 65536))
    else if off = 0x114 then some (w32 (h.dom % 256 + b2n v * 256))
    else if off = 0x118 then some (stampA h.stamp) else if off = 0x11C then some (stampB h.stamp)
    else if off = 0x120 then some (stampC h.stamp) else none
  else if p = pgRef then
    let e := s.tim.ppsIn.getD 0
    if off = 0x104 then some (w32 s.tim.refStat)
    else if off = 0x124 then some (stampA e) else if off = 0x128 then some (stampB e) else if off = 0x12C then some (stampC e)
    else none
  else none

/-- Writes that the time unit refuses with WR_IGNORED (R81, R89). -/
def timRefuses (p off : Nat) (v : Word) (s : State) : Bool :=
  p == pgTim && ((off == 0x110 && servoDrives s) || (off == 0x124 && !stampAValid v) || (off == 0x134 && !bitOf v 0) || (off == 0x130 && stepRefused v s))

/-- What a write of a TIM register starts. A recovered-clock configuration above 250 MHz is stored and sets WR_IGNORED when its EN is 1; the
output stays low (DESIGN CHOICE, log entry 219). -/
def timWrote (p off : Nat) (old v : Word) (s : State) : State :=
  if p = pgTim then
    if off = 0x110 then setAdj (sgn v.toNat 32) s
    else if off = 0x114 then servoModeWritten s
    else if off = 0x118 then { s with tim := { s.tim with pendOfs := if servoMode s = 1 then some (sgn v.toNat 32) else s.tim.pendOfs } }
    else if off = 0x130 then
      let s := if bitOf v 0 then timStep s else s
      if bitOf v 1 then timSet s else s
    else if off = 0x134 then (if bitOf v 0 then epochRun s else s)
    else s
  else if p = pgPtp then (if off = 0x124 && bitOf v 0 then txtsPop s else s)
  else if p = pgRef then
    if off = 0x100 then (if fld v 0 2 = fld old 0 2 then s else refSelect (fld v 0 2) s)
    else if off = 0x108 || off = 0x10C then
      let s := rclkWrote (off == 0x10C) old v s
      if bitOf v 20 && rclkTooFast v s then ev pgRef 0x0005 1 (setStat pgRef 0 s) else s
    else s
  else s

/-! ## The idle cycle (R68) -/

/-- The denominator of one cycle of domain 607 in 2^-32 ns: fifths of 8 ns, and 2^-8 ppb of TIM_FREQ_ADJ. -/
def cycleDen : Nat := 1280000000000

/-- One cycle of domain 607 with no command waiting: the master counter adds 1.6 ns, adjusted by TIM_FREQ_ADJ (R68); five
cycles without adjustment add exactly 8 ns. Log entry 17. -/
def idleCycle (s : State) : State :=
  if held s then s
  else
    let n := s.tim.frac + 2 ^ 35 * (256000000000 + sgn (rd pgTim 0x110 s).toNat 32).toNat
    { s with tim := { s.tim with now := s.tim.now + n / cycleDen, up := s.tim.up + n / cycleDen, frac := n % cycleDen } }

end Sys2Proof.Machine
end

