-- ==== Sys2Proof/Machine/Sdh.lean ====
section
/-! DEFINITION. SDH channels and circuit emulation: framing, defects, mapping, pseudowires, performance bins (R115-R139). -/
namespace Sys2Proof.Machine

/-- Tables of the SDH windows (R127). -/
def tbPath : Nat := 10
def tbTrib : Nat := 11
def tbPw : Nat := 12
def tbTpl : Nat := 13

/-- The page shared by all SDH channels. -/
def pgSdh : Nat := 0x140
/-- The page of SDH channel `c`. -/
def sdhPage (c : Nat) : Nat := 0x140 + c

def sch (c : Nat) (s : State) : SdhCh := look {} s.sdh.ch c
def setCh (c : Nat) (f : SdhCh → SdhCh) (s : State) : State :=
  { s with sdh := { s.sdh with ch := put {} s.sdh.ch c (f (sch c s)) } }
def spath (k : Nat) (s : State) : SdhPath := look {} s.sdh.path k
def setPath (k : Nat) (f : SdhPath → SdhPath) (s : State) : State :=
  { s with sdh := { s.sdh with path := put {} s.sdh.path k (f (spath k s)) } }
def trib (k : Nat) (s : State) : Trib := look {} s.sdh.trib k
def setTrib (k : Nat) (f : Trib → Trib) (s : State) : State :=
  { s with sdh := { s.sdh with trib := put {} s.sdh.trib k (f (trib k s)) } }
def pwOf (k : Nat) (s : State) : Pw := look {} s.sdh.pw k
def setPw (k : Nat) (f : Pw → Pw) (s : State) : State :=
  { s with sdh := { s.sdh with pw := put {} s.sdh.pw k (f (pwOf k s)) } }
def pmEnt (k : Nat) (s : State) : PmEnt := look {} s.sdh.ent k
def setEnt (k : Nat) (f : PmEnt → PmEnt) (s : State) : State :=
  { s with sdh := { s.sdh with ent := put {} s.sdh.ent k (f (pmEnt k s)) } }

/-! ## Channels (R115-R117) -/

/-- The channel is enabled. -/
def sdhEn (c : Nat) (s : State) : Bool := decide (c < 32) && rb (sdhPage c) 0x08 0 s
def sdhLic (c : Nat) (s : State) : Nat := rf (sdhPage c) 0x100 0 8 s
def sdhRate (c : Nat) (s : State) : Nat := rf (sdhPage c) 0x100 8 2 s
/-- VC-4 slots of the channel (R116). -/
def sdhSlots (c : Nat) (s : State) : Nat := 4 ^ sdhRate c s
def sdhBase (c : Nat) (s : State) : Nat := rf (sdhPage c) 0x100 10 8 s

/-- FAIL_REASON of the SDH page check (R117). -/
def sdhCheck (c : Nat) (s : State) : Nat :=
  let others := (List.range 32).filter (fun d => d != c && sdhEn d s)
  let b := sdhBase c s
  let n := sdhSlots c s
  if chSpeed (sdhLic c s) s != 9 + sdhRate c s then 0x01
  else if b % n != 0 then 0x02
  else if others.any (fun d => decide (b < sdhBase d s + sdhSlots d s) && decide (sdhBase d s < b + n)) then 0x03
  else if others.any (fun d => sdhLic d s == sdhLic c s) then 0x04
  else if c = 0 && (rf pgSdh 0x1000 10 17 s + 900 - rf pgSdh 0x1000 0 10 s % 900) % 900 != 0 then 0x05
  else 0

/-- The channel and AU-4 that own a VC-4 slot (R116). -/
def slotOwner (slot : Nat) (s : State) : Option (Nat × Nat) :=
  match (List.range 32).find? (fun c => sdhEn c s && decide (sdhBase c s ≤ slot) && decide (slot < sdhBase c s + sdhSlots c s)) with
  | some c => some (c, slot - sdhBase c s)
  | none => none

/-- The TUG3_MODE of a tributary's TUG-3, when its slot is owned (R116, R124, R127). -/
def tribMode (t : Nat) (s : State) : Option Nat :=
  match slotOwner (t / 63) s with
  | some (c, a) => if tb tbPath (c * 64 + a) 0 0 s then some (tf tbPath (c * 64 + a) 0 (1 + 2 * (t % 63 / 21)) 2 s % 3) else none
  | none => none

/-- The tributary entry is in use: inside an enabled channel, in a used index (R127). -/
def tribUsed (t : Nat) (s : State) : Bool :=
  match tribMode t s with
  | some 1 => t % 21 == 0 && tb tbTrib t 0 0 s
  | some 2 => tb tbTrib t 0 0 s
  | _ => false

/-! ## Defects (R121) -/

/-- CRC-7 of a 16-byte trace message with its own CRC bits as zero (x^7 + x^3 + 1, log entry 20). -/
def crc7 (b : Bytes) : Nat :=
  (bitsOf b).foldl (fun r x => let t := r / 64 % 2 != b2n x
                               let r := r * 2 % 128
                               if t then r ^^^ 9 else r) 0

/-- A 16-byte message carries a correct CRC-7 in its first byte. -/
def traceOk (m : Bytes) : Bool := byteAt m 0 == 128 + crc7 (0x80 :: m.drop 1)

/-- One byte of a 16-byte trace: the same message with a correct CRC-7 three times in a row is accepted (R121). -/
def Trace.byte16 (x : Trace) (b : Nat) : Trace :=
  let buf := if 128 ≤ b then [BitVec.ofNat 8 b] else x.buf ++ [BitVec.ofNat 8 b]
  if buf.length < 16 then { x with buf := buf }
  else if traceOk buf then
    let same := if buf = x.last then x.same + 1 else 1
    { buf := [], last := buf, same := same, acc := if 3 ≤ same then buf else x.acc }
  else { x with buf := [], last := [], same := 0 }

/-- One byte of a 1-byte trace, accepted after three equal bytes (R121). -/
def Trace.byte1 (x : Trace) (b : Nat) : Trace :=
  let m : Bytes := [BitVec.ofNat 8 b]
  let same := if m = x.last then x.same + 1 else 1
  { x with last := m, same := same, acc := if 3 ≤ same then m else x.acc }

/-- The bytes of consecutive words, byte 0 in bits [7:0] of the first. -/
def wordBytes (ws : List Word) : Bytes := ws.flatMap (fun w => toLE 4 w.toNat)

/-- The defects of R121 as SDH_CH_STAT [10:3] shows them; the framer of a channel that is not enabled searches nothing and has no OOF. -/
def sdhDefects (c : Nat) (s : State) : Nat :=
  let x := sch c s
  let paths := s.sdh.path.filter (fun e => e.1 / 64 == c)
  let anyP := paths.any (fun e => e.2.vc.ais.on || e.2.vc.lop || e.2.uneq.on || e.2.plm.on || e.2.rdi.on || e.2.j1Tim)
  let lo := 63 * sdhBase c s
  let anyT := s.sdh.trib.any (fun e => decide (lo ≤ e.1) && decide (e.1 < lo + 63 * sdhSlots c s) &&
    (e.2.vc.ais.on || e.2.vc.lop || e.2.rdi.on || e.2.label || e.2.e1lof))
  b2n x.los + b2n (sdhEn c s && decide (x.frame < 2)) * 2 + b2n x.lof * 4 + b2n x.msAis.on * 8 + b2n x.msRdi.on * 16 + b2n x.j0Tim * 32 +
    b2n anyP * 64 + b2n anyT * 128

/-- After a change of defects: the latch takes the new ones, and DEFECT_CHANGE is raised. -/
def defectsAfter (before c : Nat) (s : State) : State :=
  let now := sdhDefects c s
  let s := setBits (sdhPage c) 0x108 now s
  if before = now then s else raise (sdhPage c) 9 s

/-! ## Performance entities (R135) -/

/-- Errored blocks and defects of a second in progress. -/
def entBlocks (c e n : Nat) (dfct bad : Bool) (s : State) : State :=
  setEnt (c * 65536 + e) (fun x => { x with eb := x.eb + n, dfct := x.dfct || dfct, bad := x.bad || bad }) s

/-! ## Received frames (R118-R121) -/

/-- The framer's state table (R118). -/
def framer (hit : Bool) (found : Option Nat) (x : SdhCh) : SdhCh :=
  match x.frame with
  | 0 => match found with
    | some p => { x with frame := 1, cand := p }
    | none => x
  | 1 =>
    if hit then { x with frame := 2, errs := 0 }
    else match found with
      | some p => { x with frame := 1, cand := p }
      | none => { x with frame := 0 }
  | 2 => if hit then x else { x with frame := 3, errs := 1 }
  | _ => if hit then { x with frame := 2, errs := 0 }
         else if 5 ≤ x.errs + 1 then { x with frame := 0, errs := 0 } else { x with errs := x.errs + 1 }

/-- LOF: 24 frames of OOF enter it, 24 frames in frame leave it (R119). -/
def lofRun (x : SdhCh) : SdhCh :=
  if x.frame < 2 then
    let n := x.oofRun + 1
    { x with oofRun := n, inRun := 0, lof := x.lof || decide (24 ≤ n) }
  else
    let n := x.inRun + 1
    { x with inRun := n, oofRun := 0, lof := x.lof && decide (n < 24) }

/-- The next state of a trace identifier mismatch: entered while `check` compares, left when the accepted trace is the expected one (R121). -/
def timNext (was check : Bool) (acc exp : Bytes) : Bool :=
  if acc = exp.take acc.length && !acc.isEmpty then false else was || (check && !acc.isEmpty)

/-- A tributary's bytes of one VC-4 join those not yet demapped; multiframes stay whole (R123, R124). -/
def tuCollect (t ph : Nat) (e3 : Bool) (b : Bytes) (s : State) : State :=
  if !tribUsed t s || !tb tbTrib t 0 2 s then s
  else setTrib t (fun x =>
    let whole := x.raw.take (x.raw.length / 144 * 144)
    { x with raw := if e3 || x.raw.length % 144 = 36 * ph then x.raw ++ b else if ph = 0 then whole ++ b else whole }) s

/-- One received VC-4 (R120, R121, R124). -/
def vc4Frame (c a : Nat) (v : Bytes) (s : State) : State :=
  let k := c * 64 + a
  let exp := tf tbPath k 0 8 8 s
  let j1exp := wordBytes [tw tbPath k 4 s, tw tbPath k 5 s, tw tbPath k 6 s, tw tbPath k 7 s]
  let x := spath k s
  let b3 := match x.vc.bip with
    | some b => onesOf (b ^^^ byteAt v 261)
    | none => 0
  let c2 := byteAt v 522
  let g1 := byteAt v 783
  let ph := x.mf
  let s := setPath k (fun x =>
    let j1 := x.j1.byte16 (byteAt v 0)
    { x with
      vc := { x.vc with bip := some (bip8 v) }
      uneq := x.uneq.run (c2 == 0) (c2 != 0) 5 5
      plm := x.plm.run (c2 != exp && c2 != 0) (c2 == exp) 5 5
      rdi := x.rdi.run (nbit g1 3) (!nbit g1 3) 5 5
      c2 := c2, j1 := j1
      j1Tim := timNext x.j1Tim (tb tbPath k 0 7 s) j1.acc j1exp
      rei := b3
      mf := byteAt v 1305 % 4 }) s
  let s := if b3 = 0 then s else ev (sdhPage c) 0x0107 1 s
  let s := entBlocks c (64 + 2 * a) (b2n (b3 != 0)) false false s
  let s := entBlocks c (65 + 2 * a) (b2n (nfld g1 4 4 != 0)) (spath k s).rdi.on false s
  let t0 := 63 * (sdhBase c s + a)
  (List.range 3).foldl (fun s q =>
    if tf tbPath k 0 (1 + 2 * q) 2 s = 1 then tuCollect (t0 + 21 * q) 0 true (tug3Of q v) s
    else if tf tbPath k 0 (1 + 2 * q) 2 s = 2 then
      (List.range 21).foldl (fun s i => tuCollect (t0 + 21 * q + i) ph false (tu12Of q (i / 3) (i % 3) v) s) s
    else s) s

/-- The AU-4 pointer of one frame and the VC-4s that it closes (R121, R123). -/
def pathFrame (c n a : Nat) (d : Bytes) (s : State) : State :=
  let k := c * 64 + a
  if !tb tbPath k 0 0 s then s
  else
    let x := spath k s
    let p := ptrRead x.vc.ptr 783 (stmAt n 3 a d) (stmAt n 3 (3 * n + a) d)
    let h3 := [6, 7, 8].map (fun b => BitVec.ofNat 8 (stmAt n 3 (b * n + a) d))
    let (vc, done) := x.vc.feed 3 783 522 p ([0, 1, 2].flatMap (fun r => auRow n a r d)) [] h3
      ((upto 3 6).flatMap (fun r => auRow n a r d))
    let s := setPath k (fun x => { x with vc := vc.defects true p }) s
    let s := match p with
      | .inc => ev (sdhPage c) 0x0108 1 s
      | .dec => ev (sdhPage c) 0x0109 1 s
      | _ => s
    let x := spath k s
    let s := entBlocks c (64 + 2 * a) 0 (x.vc.ais.on || x.vc.lop || x.uneq.on || x.plm.on || x.j1Tim) (x.vc.ais.on || x.vc.lop) s
    (done.filter (fun v => v.length == 2349)).foldl (fun s v => vc4Frame c a v s) s

/-- The section overhead of one frame: its bytes, and the errors that its parities show against the frame before it (R120). -/
structure SdhOvh where
  b1 : Nat
  b2 : Nat
  m1 : Nat
  k1 : Nat
  k2 : Nat
  j0 : Nat
  deriving DecidableEq, Repr

/-- The overhead of a descrambled frame (R120). -/
def sohOf (n : Nat) (x : SdhCh) (d : Bytes) : SdhOvh :=
  { b1 := match x.b1 with
      | some b => onesOf (b ^^^ stmAt n 1 0 d)
      | none => 0
    b2 := bipErrs x.b2 ((List.range (3 * n)).map (fun i => stmAt n 4 i d))
    m1 := stmAt n 8 (3 * n + 2) d, k1 := stmAt n 4 (3 * n) d, k2 := stmAt n 4 (6 * n) d, j0 := stmAt n 0 (6 * n) d }

/-- The section overhead of one frame, processed in IN_FRAME and ERRORED (R120, R121). -/
def sectionOvh (c : Nat) (o : SdhOvh) (s : State) : State :=
  let cfg := rd (sdhPage c) 0x10C s
  let exp := wordBytes [rd (sdhPage c) 0x110 s, rd (sdhPage c) 0x114 s, rd (sdhPage c) 0x118 s, rd (sdhPage c) 0x11C s]
  let low := o.k2 % 8
  let s := setCh c (fun x =>
    let j0 := if bitOf cfg 0 then x.j0.byte16 o.j0 else x.j0.byte1 o.j0
    let k := o.k1 * 256 + o.k2
    let kr := if k = x.kCand then x.kRun + 1 else 1
    { x with
      msAis := x.msAis.run (low == 7) (low != 7) 3 3
      msRdi := x.msRdi.run (low == 6) (low != 6) 5 5
      j0 := j0
      j0Tim := bitOf cfg 1 && timNext x.j0Tim true j0.acc exp
      kCand := k, kRun := kr
      k1 := if 3 ≤ kr then o.k1 else x.k1, k2 := if 3 ≤ kr then o.k2 else x.k2
      m1Next := if 255 < o.b2 then 255 else o.b2 }) s
  let p := sdhPage c
  let s := bump p 0x148 0 32 o.b1 (ev p 0x0104 o.b1 s)
  let s := bump p 0x14C 0 32 o.b2 (ev p 0x0105 o.b2 s)
  let s := bump p 0x150 0 32 o.m1 (ev p 0x0106 o.m1 s)
  let x := sch c s
  let s := entBlocks c 0 (b2n (o.b1 != 0)) (x.lof || x.j0Tim) x.lof s
  let s := entBlocks c 1 (b2n (o.b2 != 0)) (x.lof || x.msAis.on) (x.lof || x.msAis.on) s
  entBlocks c 2 (b2n (o.m1 != 0)) x.msRdi.on false s

/-- A whole frame in alignment: descrambled, its overhead and its VC-4s processed, its parities kept (R118, R120). -/
def stmFrame (c n : Nat) (f : Bytes) (s : State) : State :=
  let d := scrFrame n (rb (sdhPage c) 0x100 19 s) f
  let s := sectionOvh c (sohOf n (sch c s) d) (ev (sdhPage c) 0x0100 1 s)
  let s := (List.range n).foldl (fun s a => pathFrame c n a d s) s
  setCh c (fun x => { x with b1 := some (bip8 f), b2 := b2Of n d }) s

/-- The bit of the frame time at which the frame of a pattern at `p` starts: the pattern's six bytes lie around the border of A1 and A2. -/
def frameBit (n p : Nat) : Nat := (p + 8 * stmLen n - 8 * (3 * n - 3)) % (8 * stmLen n)

/-- The frame that has ended in the frame time of `line`, which follows `prev`, when frames start at bit `q`. -/
def endedFrame (n q : Nat) (prev line : Bytes) : Bytes :=
  if q = 0 then line else bytesOf (stmLen n) ((bitsOf prev).drop q ++ (bitsOf line).take q)

/-- Frame alignment judged at one frame time's bits, with the events of OOF and LOF (R118, R119). -/
def frameAlign (c n : Nat) (line : Bytes) (s : State) : State :=
  let x := sch c s
  let len := 8 * stmLen n
  let hits := patHits len (bitsOf line) (beNat (x.prev.drop (x.prev.length - 6)) % 2 ^ 48) 0
  let found := if x.frame = 1 then (hits.filter (fun p => decide (x.cand < p)) ++ hits.filter (fun p => decide (p < x.cand))).head? else hits.head?
  let s := setCh c (fun x => lofRun (framer (hits.contains x.cand) found x)) s
  let y := sch c s
  let s := if x.frame = 3 && y.frame = 0 then ev (sdhPage c) 0x0101 1 s else s
  let s := if y.lof && !x.lof then ev (sdhPage c) 0x0102 1 s else s
  if 2 ≤ y.frame then s else setCh c (fun x => { x with b1 := none, b2 := [] }) s

/-- The frame that has ended is processed when its start was in alignment. -/
def frameEnded (c n : Nat) (line : Bytes) (s : State) : State :=
  let x := sch c s
  if 2 ≤ x.frame then stmFrame c n (endedFrame n (frameBit n x.cand) x.prev line) s
  else entBlocks c 1 0 true x.lof (entBlocks c 0 0 true x.lof s)

/-- One frame time of line bits: the frame that ends in it is processed after the judgement of its own pattern, which lies in this frame time
when frames start at its border or the pattern straddles it, and otherwise in the one before (R118-R121). -/
def framePass (c : Nat) (line : Bytes) (s : State) : State :=
  let n := sdhSlots c s
  let len := 8 * stmLen n
  let x := sch c s
  let late := frameBit n x.cand = 0 || decide (x.cand < frameBit n x.cand) || decide (len < x.cand + 48)
  let s := if late then frameEnded c n line (frameAlign c n line s) else frameAlign c n line (frameEnded c n line s)
  setCh c (fun x => { x with prev := line }) s

/-- SDH_FRAME (R118-R121): the bits of one frame time arrive on the line. Under LOS no bits are examined; OOF stands on and LOF counts it (R119). -/
def execSdhFrame (t c : Nat) (line : Bytes) : State → Res := onService fun s =>
  let s := advance t s
  if !sdhEn c s then s
  else
    let before := sdhDefects c s
    let s := if (sch c s).los then
        let was := (sch c s).lof
        let s := setCh c lofRun s
        let s := if (sch c s).lof && !was then ev (sdhPage c) 0x0102 1 s else s
        entBlocks c 1 0 true true (entBlocks c 0 0 true true s)
      else framePass c line s
    defectsAfter before c s

/-- LOS_ENTRY (R118, R121): SIGNAL low, or no transitions for 20 microseconds. -/
def execLosEntry (t c : Nat) : State → Res := onService fun s =>
  let s := advance t s
  if !sdhEn c s || (sch c s).los then s
  else
    let before := sdhDefects c s
    let s := setCh c (fun x => { x with los := true, frame := 0, errs := 0, prev := [], b1 := none, b2 := [] }) s
    let s := entBlocks c 1 0 true true (entBlocks c 0 0 true true s)
    defectsAfter before c (ev (sdhPage c) 0x0103 1 s)

/-- LOS_EXIT (R121): SIGNAL high and transitions without a 20 microsecond gap for 125 microseconds. -/
def execLosExit (t c : Nat) : State → Res := onService fun s =>
  let s := advance t s
  if !sdhEn c s || !(sch c s).los then s
  else
    let before := sdhDefects c s
    let s := entBlocks c 1 0 true true (entBlocks c 0 0 true true s)
    defectsAfter before c (setCh c (fun x => { x with los := false }) s)

/-- CONSEQUENT_ACTION (R122): the consequent actions of a channel follow its defects. -/
def execConsequentAction (t c : Nat) : State → Res := onService fun s =>
  let s := advance t s
  if !sdhEn c s then s
  else
    let tim := rb (sdhPage c) 0x100 18 s
    let s := setCh c (fun x => { x with lineAct := x.los || x.lof || x.msAis.on || (x.j0Tim && tim) }) s
    let s := (s.sdh.path.filter (fun e => e.1 / 64 == c)).foldl (fun a e => setPath e.1 (fun x =>
      let r := x.vc.ais.on || x.vc.lop || x.uneq.on || (x.j1Tim && tim)
      { x with actRdi := r, actAis := r || x.plm.on }) a) s
    let lo := 63 * sdhBase c s
    (s.sdh.trib.filter (fun e => decide (lo ≤ e.1) && decide (e.1 < lo + 63 * sdhSlots c s))).foldl
      (fun a e => setTrib e.1 (fun x => { x with act := x.vc.ais.on || x.vc.lop || x.e1lof }) a) s

/-- The tributary is treated as TU-AIS (R122). -/
def tribAis (t : Nat) (s : State) : Bool :=
  (trib t s).act ||
  (match slotOwner (t / 63) s with
   | some (c, a) => (sch c s).lineAct || (spath (c * 64 + a) s).actAis
   | none => false)

/-! ## Demapping and mapping (R123-R126) -/

/-- The pseudowires of a tributary: the one named, and with CESoPSN its chain (R127, R130). -/
def pwChain (k : Nat) (s : State) : List Nat :=
  let rec go : Nat → Nat → List Nat → List Nat
    | 0, _, l => l
    | n + 1, w, l => if tb tbPw w 3 14 s && !(w :: l).contains (tf tbPw w 3 0 14 s) then go n (tf tbPw w 3 0 14 s) (l ++ [w]) else l ++ [w]
  let first := tf tbTrib k 0 8 14 s
  (if tb tbTrib k 0 22 s then go 31 first [] else [first]).filter (fun w => tb tbPw w 0 0 s && tf tbPw w 0 3 14 s == k)

/-- Demapped bits go to every pseudowire of the tributary that sends, each with its own place in them (R128, R130). -/
def pwFeed (k : Nat) (bits : List Bool) (s : State) : State :=
  ((pwChain k s).filter (fun w => tb tbPw w 0 1 s)).foldl (fun s w => setPw w (fun p => { p with rx := p.rx ++ bits }) s) s

/-- Information bits of a tributary: for CESoPSN aligned to E1 frames; all ones while it is treated as TU-AIS (R121, R122, R130). -/
def tribBits (k : Nat) (bits : List Bool) (s : State) : State :=
  let ais := tribAis k s
  let bits := if ais then List.replicate bits.length true else bits
  let s := setTrib k (fun x => { x with bitsIn := bits.length }) s
  if !tb tbTrib k 0 22 s || ais then pwFeed k bits s
  else
    let r := e1Align bits (trib k s)
    pwFeed k r.2 (setTrib k (fun _ => r.1) s)

/-- A received VC-12: V5, its parity, and the data bits by the majority of each opportunity's control copies (R120, R121, R125). V5 [3] is REI
as R120 has it; the label is read in the bits beside it (log entry 226). -/
def vc12Frame (c k : Nat) (v : Bytes) (s : State) : State :=
  let x := trib k s
  let v5 := byteAt v 0
  let errs := match x.vc.bip with
    | some b => onesOf (b ^^^ v5 / 64)
    | none => 0
  let l := ((List.range 140).map vc12Byte).zip v
  let (v1, v2) := votesOf false l
  let s := setTrib k (fun x => { x with
    vc := { x.vc with bip := some (bip2 (bip8 v)) }
    rdi := x.rdi.run (nbit v5 0) (!nbit v5 0) 5 5
    label := nfld v5 1 2 != tf tbTrib k 0 4 3 s
    rei := b2n (errs != 0) }) s
  let s := if v1 ≤ 1 then ev pgSdh 0x010B 1 s else s
  let s := if v2 ≤ 1 then s else ev pgSdh 0x010C 1 s
  let s := if v1 = 1 || v1 = 2 || v2 = 1 || v2 = 2 then ev pgSdh 0x010D 1 s else s
  let s := if errs = 0 then s else ev pgSdh 0x010A 1 s
  let j := k - 63 * sdhBase c s
  let x := trib k s
  let s := entBlocks c (256 + 2 * j) (b2n (errs != 0)) x.label false s
  let s := entBlocks c (257 + 2 * j) (b2n (nbit v5 3)) x.rdi.on false s
  tribBits k (dataOf (decide (v1 ≤ 1)) (decide (v2 ≤ 1)) l) s

/-- A received VC-3 with its three C-3 subframes (R120, R121, R125). -/
def vc3Frame (c k : Nat) (v : Bytes) (s : State) : State :=
  let x := trib k s
  let g1 := byteAt v 255
  let errs := match x.vc.bip with
    | some b => onesOf (b ^^^ byteAt v 85)
    | none => 0
  let body := (List.range 9).flatMap (fun r => sub v (85 * r + 1) 84)
  let subs := (List.range 3).map (fun i => ((List.range 252).map c3Byte).zip (sub body (252 * i) 252))
  let votes := subs.map (votesOf true)
  let s := setTrib k (fun x => { x with
    vc := { x.vc with bip := some (bip8 v) }
    rdi := x.rdi.run (nbit g1 3) (!nbit g1 3) 5 5
    label := false
    rei := errs }) s
  let odd (n : Nat) : Bool := decide (0 < n) && decide (n < 5)
  let s := votes.foldl (fun s q => if odd q.1 || odd q.2 then ev pgSdh 0x010D 1 s else s) s
  let s := if errs = 0 then s else ev (sdhPage c) 0x0107 1 s
  let j := k - 63 * sdhBase c s
  let s := entBlocks c (256 + 2 * j) (b2n (errs != 0)) false false s
  let s := entBlocks c (257 + 2 * j) (b2n (nfld g1 4 4 != 0)) (trib k s).rdi.on false s
  tribBits k ((subs.zip votes).flatMap (fun q => dataOf (decide (q.2.1 ≤ 2)) (decide (q.2.2 ≤ 2)) q.1)) s

/-- The TU-12 of one multiframe: its pointer in V1 and V2, its containers (R121, R123). -/
def tu12Frame (c k : Nat) (raw : Bytes) (s : State) : State :=
  let x := trib k s
  let p := ptrRead x.vc.ptr 140 (byteAt raw 0) (byteAt raw 36)
  let (vc, done) := x.vc.feed 1 140 105 p (sub raw 1 35) (sub raw 37 35) (sub raw 72 1) (sub raw 73 35 ++ sub raw 109 35)
  let s := setTrib k (fun x => { x with vc := vc.defects false p, raw := x.raw.drop 144 }) s
  (done.filter (fun v => v.length == 140)).foldl (fun s v => vc12Frame c k v s) s

/-- The TU-3 of one multiframe, four frames: the pointer is followed in each, its defects are judged once, by the last (R121, R123, log
entry 227). -/
def tu3Frame (c k : Nat) (raw : Bytes) (s : State) : State :=
  let one (y : Vc × List Bytes × PtrRx) (i : Nat) : Vc × List Bytes × PtrRx :=
    let f := sub raw (774 * i) 774
    let p := ptrRead y.1.ptr 765 (byteAt f 0) (byteAt f 86)
    let row (r : Nat) : Bytes := sub f (86 * r + 1) 85
    let (vc, done) := y.1.feed 1 765 595 p ([0, 1].flatMap row) [] (sub f 172 1) ((upto 2 7).flatMap row)
    (vc, y.2.1 ++ done, p)
  let (vc, done, p) := (List.range 4).foldl one ((trib k s).vc, [], .ais)
  let s := setTrib k (fun x => { x with vc := vc.defects false p, raw := x.raw.drop 3096 }) s
  (done.filter (fun v => v.length == 765)).foldl (fun s v => vc3Frame c k v s) s

/-- TU_MULTIFRAME (R125): the TU of one multiframe is demapped from the bytes that the channel's frames have brought. With none there, a
tributary treated as TU-AIS yields its all ones at the nominal rate (R122). -/
def execTuMultiframe (t k : Nat) : State → Res := onService fun s =>
  let s := advance t s
  match slotOwner (k / 63) s with
  | none => s
  | some (c, _) =>
    if !tribUsed k s || !tb tbTrib k 0 2 s then s
    else
      let before := sdhDefects c s
      let e3 := tb tbTrib k 0 1 s
      let raw := (trib k s).raw
      let s := if (if e3 then 3096 else 144) ≤ raw.length then (if e3 then tu3Frame c k raw s else tu12Frame c k raw s)
        else if tribAis k s then tribBits k (List.replicate (if e3 then 17184 else 1024) true) s else s
      let x := trib k s
      let s := entBlocks c (256 + 2 * (k - 63 * sdhBase c s)) 0 (x.vc.ais.on || x.vc.lop) (x.vc.ais.on || x.vc.lop) s
      defectsAfter before c s

/-! ### Transmission -/

/-- A byte of the transmitted signal that the spec gives no value. -/
def sdhFill (i : Nat) : Byte := BitVec.ofNat 8 (Config.sdhOther i)

/-- Timeslots that a mask selects. -/
def tsCount (mask : Word) : Nat := ((List.range 32).filter (fun i => bitOf mask i)).length

/-- One E1 frame from the timeslots that the chain's pseudowires play: timeslot 0 carries framing; a pseudowire with nothing in hand gives ones;
a timeslot that no mask holds is open (R130, log entry 228). -/
def e1Assemble (odd : Bool) (chain : List Nat) (s : State) : List Bool :=
  (List.range 32).flatMap (fun i =>
    if i = 0 then (if odd then bitsOf [0xDF] else bitsOf [0x9B])
    else match chain.find? (fun w => bitOf (tw tbPw w 2 s) i) with
      | none => bitsOf [sdhFill (8192 + i)]
      | some w =>
        let at_ := ((List.range i).filter (fun j => bitOf (tw tbPw w 2 s) j)).length
        let b := ((pwOf w s).play.drop (8 * at_)).take 8
        b ++ List.replicate (8 - b.length) true)

/-- E1 frames assembled until `n` bits stand ready towards the mapper, or nothing plays. -/
def e1Refill (k : Nat) (chain : List Nat) : Nat → Nat → State → State
  | 0, _, s => s
  | f + 1, n, s =>
    if n ≤ (trib k s).asm.length || chain.all (fun w => (pwOf w s).play.isEmpty) then s
    else
      let l := e1Assemble (trib k s).txOdd chain s
      let s := chain.foldl (fun s w => setPw w (fun p => { p with play := p.play.drop (8 * tsCount (tw tbPw w 2 s)) }) s) s
      e1Refill k chain f n (setTrib k (fun x => { x with asm := x.asm ++ l, txOdd := !x.txOdd }) s)

/-- Played bits move towards a tributary's mapper until `n` stand ready (R130, R133). -/
def mapRefill (k n : Nat) (s : State) : State :=
  let chain := (pwChain k s).filter (fun w => tb tbPw w 0 2 s)
  if tb tbTrib k 0 22 s then e1Refill k chain (n / 256 + 2) n s
  else match chain with
    | [] => s
    | w :: _ =>
      let m := n - (trib k s).asm.length
      setPw w (fun p => { p with play := p.play.drop m }) (setTrib k (fun x => { x with asm := x.asm ++ (pwOf w s).play.take m }) s)

/-- The rate at which a tributary's jitter buffer plays: that of its pseudowire, of a chain its first (R133). -/
def mapRate (k : Nat) (s : State) : Int :=
  match (pwChain k s).filter (fun w => tb tbPw w 0 2 s) with
  | [] => 0
  | w :: _ => (pwOf w s).rate

/-- A run of a container goes out from the buffer; underruns are counted (R126). Without EN_MAP it carries zeros. -/
def mapGo (k : Nat) (on e3 : Bool) (slots nominal : Nat) (l : List (VcByte × Byte)) (s : State) : Bytes × State :=
  if !on then (zeros l.length, s)
  else
    let (b, x, u) := mapRun e3 slots nominal (mapRate k s) l (trib k s) 0
    let s := setTrib k (fun _ => x) s
    (b, if u = 0 then s else ev pgSdh 0x0116 u s)

/-- The TU-12 bytes of one frame: V1 or V2 with the fixed pointer 105, V3 or V4, and a quarter of the VC-12, whose first byte is V5 (R120,
R122-R124, R126). -/
def tu12Send (k ph : Nat) (s : State) : Bytes × State :=
  let on := tribUsed k s && tb tbTrib k 0 3 s
  let lead : Byte := match ph with
    | 0 => 0x68
    | 1 => 0x69
    | _ => sdhFill (4096 + ph)
  let l := (upto (35 * ph) 35).map (fun i => (vc12Byte i, sdhFill (4200 + i)))
  let s := if on then mapRefill k 300 s else s
  let x := trib k s
  let label := if on then 2 else 0
  let v5 := x.txPrev * 64 + b2n (x.rei != 0) * 8 + label * 2 + b2n x.act
  let s := if ph != 0 then s else setTrib k (fun x => { x with
    dec := false, sentRei := x.rei != 0, sentRdi := x.act, sentLabel := label, rei := 0, txBip := 0 }) s
  let (b, s) := mapGo k on false 140 1024 l s
  let b := if ph = 0 then BitVec.ofNat 8 v5 :: b.drop 1 else b
  let s := setTrib k (fun x =>
    let p := x.txBip ^^^ bip8 b
    if ph = 3 then { x with txBip := 0, txPrev := bip2 p } else { x with txBip := p }) s
  (lead :: b, s)

/-- The TUG-3 bytes of one TU-3: pointer 0, the rest of the last VC-3, and a new VC-3 (R120, R122-R124, R126). -/
def tu3Send (k : Nat) (s : State) : Bytes × State :=
  let on := tribUsed k s && tb tbTrib k 0 1 s && tb tbTrib k 0 3 s
  let s := if on then mapRefill k 4400 s else s
  let part (y : Bytes × State) (i : Nat) : Bytes × State :=
    let s := setTrib k (fun x => { x with dec := false }) y.2
    let (b, s) := mapGo k on true 756 4296 ((List.range 252).map (fun j => (c3Byte j, sdhFill (5000 + 252 * i + j)))) s
    (y.1 ++ b, s)
  let (body, s) := (List.range 3).foldl part ([], s)
  let x := trib k s
  let poh (r : Nat) : Byte := match r with
    | 1 => BitVec.ofNat 8 x.txPrev
    | 2 => if on then 0x04 else 0
    | 3 => BitVec.ofNat 8 (x.rei * 16 + b2n x.act * 8)
    | _ => sdhFill (4400 + r)
  let v := (List.range 9).flatMap (fun r => poh r :: sub body (84 * r) 84)
  let s := setTrib k (fun x => { x with
    txPrev := bip8 v, txTail := v.drop 595, sentRei := x.rei != 0, sentRdi := x.act, sentLabel := if on then 2 else 0, rei := 0 }) s
  let flow := x.txTail ++ zeros (170 - x.txTail.length) ++ v.take 595
  let lead (r : Nat) : Byte := match r with
    | 0 => 0x68
    | 1 => 0x00
    | _ => sdhFill (4500 + r)
  ((List.range 9).flatMap (fun r => lead r :: sub flow (85 * r) 85), s)

/-- The 774 bytes of a TUG-3 by its mode; an unequipped one is sent as zeros (R124, log entry 224). -/
def tug3Send (path q t0 ph : Nat) (s : State) : Bytes × State :=
  match tf tbPath path 0 (1 + 2 * q) 2 s with
  | 1 => tu3Send t0 s
  | 2 =>
    let (tus, s) := (List.range 21).foldl (fun (y : List Bytes × State) i =>
      let (b, s) := tu12Send (t0 + i) ph y.2
      (y.1 ++ [b], s)) ([], s)
    ((List.range 9).flatMap (fun r => sdhFill (4600 + r) :: sdhFill (4610 + r) ::
      (List.range 84).map (fun z => ((tus.getD (3 * (z % 7) + z / 7 % 3) []).getD (4 * r + z / 21) 0))), s)
  | _ => (zeros 774, s)

/-- A VC-4 that the device generates; with VALID 0 an unequipped one (R120, R122, R124, R127). -/
def vc4Send (c a ph : Nat) (s : State) : Bytes × State :=
  let k := c * 64 + a
  let b3 := BitVec.ofNat 8 (bip8 (spath k s).txVc)
  if !tb tbPath k 0 0 s then (splice (zeros 2349) 261 [b3], s)
  else
    let t0 := 63 * (sdhBase c s + a)
    let (t1, s) := tug3Send k 0 t0 (ph % 4) s
    let (t2, s) := tug3Send k 1 (t0 + 21) (ph % 4) s
    let (t3, s) := tug3Send k 2 (t0 + 42) (ph % 4) s
    let x := spath k s
    let j1 := wordBytes [tw tbPath k 8 s, tw tbPath k 9 s, tw tbPath k 10 s, tw tbPath k 11 s]
    let poh (r : Nat) : Byte := match r with
      | 0 => j1.getD ph 0
      | 1 => b3
      | 2 => BitVec.ofNat 8 (tf tbPath k 0 8 8 s)
      | 3 => BitVec.ofNat 8 (x.rei * 16 + b2n ((sch c s).lineAct || x.actRdi) * 8)
      | 5 => BitVec.ofNat 8 (Config.sdhOther 4700 % 64 * 4 + (ph + 1) % 4)
      | _ => sdhFill (4710 + r)
    let row (r : Nat) : Bytes := poh r :: sdhFill (4800 + r) :: sdhFill (4810 + r) ::
      (List.range 86).flatMap (fun j => [t1.getD (86 * r + j) 0, t2.getD (86 * r + j) 0, t3.getD (86 * r + j) 0])
    ((List.range 9).flatMap row, setPath k (fun x => { x with rei := 0 }) s)

/-- The VC-4s of a frame, each with the one before it, whose end the frame's first three rows carry. -/
def vc4sSend (c n ph : Nat) (s : State) : List (Bytes × Bytes) × State :=
  (List.range n).foldl (fun (y : List (Bytes × Bytes) × State) a =>
    let old := (spath (c * 64 + a) y.2).txVc
    let (v, s) := vc4Send c a ph y.2
    (y.1 ++ [(old ++ zeros (2349 - old.length), v)], setPath (c * 64 + a) (fun x => { x with txVc := v }) s)) ([], s)

/-- A byte of the section overhead sent: framing, J0, parities of the last frame, the fixed AU-4 pointers 0, K1, K2 and M1 (R120, R122,
R123). -/
def sohSend (n j0 b1 : Nat) (b2 : List Nat) (k1 k2 m1 r col : Nat) : Byte :=
  if r = 0 then (if col < 3 * n then 0xF6 else if col < 6 * n then 0x28 else if col = 6 * n then BitVec.ofNat 8 j0 else sdhFill col)
  else if r = 1 && col = 0 then BitVec.ofNat 8 b1
  else if r = 3 then (if col < n then 0x68 else if col < 3 * n then 0x9B else if col < 4 * n then 0x00 else if col < 6 * n then 0xFF else 0x00)
  else if r = 4 && decide (col < 3 * n) then BitVec.ofNat 8 (b2.getD col 0)
  else if r = 4 && col = 3 * n then BitVec.ofNat 8 k1
  else if r = 4 && col = 6 * n then BitVec.ofNat 8 k2
  else if r = 8 && col = 3 * n + 2 then BitVec.ofNat 8 m1
  else sdhFill (9 * n * r + col)

/-- Row `r` of the payload: the AU-4s' bytes in turn. -/
def payRow (vs : List (Bytes × Bytes)) (r : Nat) : Bytes :=
  (List.range 261).flatMap (fun j => vs.map (fun v => if r < 3 then v.1.getD (1566 + 261 * r + j) 0 else v.2.getD (261 * (r - 3) + j) 0))

/-- SDH_TX_FRAME (R120, R122-R126): the device builds one transmitted frame on its own clock. -/
def execSdhTxFrame (t c : Nat) : State → Res := onService fun s =>
  let s := advance t s
  if !sdhEn c s then s
  else
    let n := sdhSlots c s
    let x := sch c s
    let p := sdhPage c
    let k := rd p 0x140 s
    let k1 := fld k 0 8
    let k2 := fld k 8 5 * 8 + (if x.lineAct then 6 else 0)
    let j0 := wordBytes [rd p 0x120 s, rd p 0x124 s, rd p 0x128 s, rd p 0x12C s]
    let (vs, s) := vc4sSend c n x.txPhase s
    let f := (List.range 9).flatMap (fun r =>
      (List.range (9 * n)).map (sohSend n (byteAt j0 (if rb p 0x10C 0 s then x.txPhase else 0)) x.txB1 x.txB2 k1 k2 x.m1Next r) ++ payRow vs r)
    let line := scrFrame n (rb p 0x100 19 s) f
    setCh c (fun x => { x with
      txPhase := (x.txPhase + 1) % 16, m1Next := 0, txB1 := bip8 line, txB2 := b2Of n f, sent := ⟨x.m1Next, k1, k2, line⟩ }) s

/-! ## Pseudowires (R128-R133) -/

/-- The source number of an SDH channel (R140). -/
def sdhSource (c : Nat) : Nat := 256 + c

/-- Timeslots of one 32-byte E1 frame that a mask selects (R130). -/
def slotBytes (mask : Word) (f : Bytes) : Bytes :=
  (List.range 32).filterMap (fun i => if bitOf mask i then f[i]? else none)

/-- Bits of the tributary that one packet takes: PLEN bytes, or PLEN E1 frames (R128). -/
def pwBits (k : Nat) (s : State) : Nat :=
  let n := tf tbPw k 1 0 11 s
  if tb tbPw k 0 17 s then n * 256 else n * 8

/-- Payload bytes of one packet (R128, R130). -/
def pwBytes (k : Nat) (s : State) : Nat :=
  if tb tbPw k 0 17 s then tf tbPw k 1 0 11 s * tsCount (tw tbPw k 2 s) else tf tbPw k 1 0 11 s

/-- The payload of one packet (R128, R130). -/
def pwPayload (k : Nat) (bits : List Bool) (s : State) : Bytes :=
  let b := bytesOf (pwBits k s / 8) bits
  if tb tbPw k 0 17 s then (List.range (tf tbPw k 1 0 11 s)).flatMap (fun i => slotBytes (tw tbPw k 2 s) (sub b (32 * i) 32))
  else b

/-- The header of a pseudowire packet up to the payload (R128, R129). -/
def pwHeader (k plen ts pt : Nat) (l r : Bool) (s : State) : Bytes :=
  let tpl := tf tbPw k 3 16 12 s
  let len := tf tbTpl tpl 15 0 6 s
  let eth := (wordBytes ((List.range 15).map (fun i => tw tbTpl tpl i s))).take len
  let lab := tf tbPw k 4 0 20 s * 4096 + tf tbPw k 4 20 3 s * 512 + 256 + tf tbPw k 4 23 8 s
  let rtp := tb tbPw k 0 18 s
  let body := 4 + (if rtp then 12 else 0) + plen
  let short := decide (len + 4 + body + 4 < 64)
  let cw := b2n l * 2 ^ 27 + b2n r * 2 ^ 26 + (if short then body % 64 else 0) * 65536 + (pwOf k s).seq
  eth ++ toBE 4 lab ++ toBE 4 cw ++
    (if rtp then [0x80, BitVec.ofNat 8 pt] ++ toBE 2 (pwOf k s).seq ++ toBE 4 ts ++ toBE 4 (tw tbPw k 6 s).toNat else [])

/-- The packet that a pseudowire sends when its payload closes, and the state after it; none while the tributary has too
few bits (R128, R129). -/
def pwClose (k : Nat) (s : State) : Option (Bytes × Nat × State) :=
  let t := tf tbPw k 0 3 14 s
  match slotOwner (t / 63) s with
  | none => none
  | some (c, _) =>
    let need := pwBits k s
    let x := pwOf k s
    if !tb tbPw k 0 0 s || !tb tbPw k 0 1 s || !tribUsed t s || decide (x.rx.length < need) then none
    else
      let l := tribAis t s
      let pay := if l && tb tbPw k 0 21 s then [] else pwPayload k (x.rx.take need) s
      let (pt, s) := drawFree s
      let ts := nowStamp s / (40 * nsU) % 2 ^ 32
      let h := pwHeader k pay.length ts (pt % 128) l ((pwOf k s).st == 3) s
      let b := h ++ pay
      let b := b ++ zeros (60 - b.length)
      let s := setPw k (fun p => { p with seq := (p.seq + 1) % 65536, rx := p.rx.drop need }) s
      some (b ++ fcsOf b, c, ev pgSdh 0x010E 1 s)

/-- Jitter buffer depth and LOPS thresholds of a pseudowire (R127). -/
def jbDepth (k : Nat) (s : State) : Nat := tf tbPw k 1 16 8 s
def lopsEntry (k : Nat) (s : State) : Nat := tf tbPw k 1 24 4 s + 1
def lopsExit (k : Nat) (s : State) : Nat := tf tbPw k 1 28 4 s + 1

/-- Packets that a jitter buffer counts as held (R132, R402). -/
def jbFill (x : Pw) : Nat := (x.jb.length + x.fillOfs).toNat

/-- A packet with a sequence number is stored in the jitter buffer or discarded (R132). -/
def jbArrive (k q : Nat) (pay : Nat × Bytes) (s : State) : State :=
  let x := pwOf k s
  let depth := jbDepth k s
  let x := if x.st = 0 || (x.st = 3 && x.jb.isEmpty) then { x with next := q } else x
  let d := (q + 65536 - x.next) % 65536
  if (find? x.jb q).isSome then ev pgSdh 0x0111 1 s
  else if d < 2 * depth then
    let run := if (x.lastSeq + 1) % 65536 = q then x.run + 1 else 1
    let x := { x with jb := ins x.jb q pay, run := run, lastSeq := q }
    let x := if x.st = 0 then { x with st := 1 } else x
    let left := x.st = 3 && decide (lopsExit k s ≤ run)
    let x := if left then { x with st := 1, missing := 0 } else x
    let x := if x.st = 1 && decide (depth ≤ jbFill x) then { x with st := 2, missing := 0 } else x
    let s := ev pgSdh 0x010F 1 (setPw k (fun _ => x) s)
    if left then raise pgSdh 11 s else s
  else if 32768 ≤ d then ev pgSdh 0x0111 1 s
  else ev pgSdh 0x0112 1 (setPw k (fun x => { x with jb := [], fillOfs := 0, st := if x.st = 3 then 3 else 0, missing := 0, run := 0 }) s)

/-- A pseudowire packet delivered from the crossbar, from its control word on (R129, R131, R132). -/
def pwArrive (k : Nat) (b : Bytes) (s : State) : State :=
  if !tb tbPw k 0 0 s || !tb tbPw k 0 2 s then s
  else
    let cw := beAt b 0 4
    let q := cw % 65536
    let s := setPw k (fun x => { x with rRx := nbit cw 26, rCount := x.rCount + b2n (nbit cw 26) }) s
    if nfld cw 22 2 != 0 then ev pgSdh 0x0117 1 s
    else
      let s := if tb tbPw k 0 17 s && nfld cw 24 2 != 0 then ev pgSdh 0x0117 1 s else s
      let rtp := tb tbPw k 0 18 s
      let n := pwBytes k s
      jbArrive k q (if rtp then beAt b 8 4 else 0, if nbit cw 27 then List.replicate n 0xFF else (b.drop (if rtp then 16 else 4)).take n) s

/-- The rate within its capture range of 100 ppm (R133). -/
def rateClamp (r : Int) : Int := max (-25600000) (min 25600000 r)

/-- The measures of a pseudowire's clock reference: the average fill; the played RTP timestamp and the device's time in its ticks; the bits of
the tributary's last received multiframe. CLK_MODE 3 acts as ADAPTIVE (R133). -/
def clockMeasure (k ts : Nat) (s : State) : Nat × Nat × Nat :=
  match tf tbPw k 0 19 2 s with
  | 1 => (1, ts, nowStamp s / (40 * nsU) % 2 ^ 32)
  | 2 => (2, (trib (tf tbPw k 0 3 14 s) s).bitsIn, 0)
  | _ => (0, (pwOf k s).fillAvg, 0)

/-- Clock recovery at one packet time: the fill joins its average over 1,024 of them, and the rate follows its reference (R133). -/
def clockStep (k ts : Nat) (s : State) : State :=
  let s := setPw k (fun x =>
    if x.fillN + 1 = 1024 then { x with fillSum := 0, fillN := 0, fillAvg := (x.fillSum + jbFill x) / 1024 }
    else { x with fillSum := x.fillSum + jbFill x, fillN := x.fillN + 1 }) s
  let m := clockMeasure k ts s
  setPw k (fun x => { x with rate := rateClamp (Config.clockRate m.1 x.rate m.2.1 m.2.2) }) s

/-- A packet time of a buffer that plays: the slot due, or all ones; enough missing packets in a row enter LOPS (R132). -/
def jbPlay (k : Nat) (s : State) : State :=
  let x := pwOf k s
  let go (ts : Nat) (bits : List Bool) (miss : Nat) (s : State) : State :=
    clockStep k ts (setPw k (fun x => { x with jb := del x.jb x.next, next := (x.next + 1) % 65536, missing := miss, play := x.play ++ bits }) s)
  match find? x.jb x.next with
  | some pay => go pay.1 (bitsOf pay.2) 0 s
  | none =>
    let m := x.missing + 1
    let s := go 0 (List.replicate (8 * pwBytes k s) true) m (ev pgSdh 0x0110 1 s)
    if m = lopsEntry k s then
      raise pgSdh 11 (ev pgSdh 0x0113 1 (setPw k (fun x => { x with st := 3, jb := [], fillOfs := 0, run := 0 }) s))
    else s

/-- JB_PLAYOUT (R132, R133): one packet time passes on a pseudowire's jitter buffer; in LOPS it plays all ones. -/
def execJbPlayout (t k : Nat) : State → Res := onService fun s =>
  let s := advance t s
  if !tb tbPw k 0 0 s || !tb tbPw k 0 2 s then s
  else if (pwOf k s).st = 2 then jbPlay k s
  else if (pwOf k s).st = 3 then setPw k (fun x => { x with play := x.play ++ List.replicate (8 * pwBytes k s) true }) s
  else s

/-! ## Performance bins (R135-R138) -/

/-- The errored blocks that make a second severely errored: 30% of its blocks (R135). -/
def sesLimit (c e : Nat) (s : State) : Nat :=
  if e < 256 || tb tbTrib (63 * sdhBase c s + (e - 256) / 2) 0 1 s then 2400 else 600

/-- Defects that stand on an entity, and whether they make its second severely errored (R135). -/
def entStanding (c e : Nat) (s : State) : Bool × Bool :=
  let x := sch c s
  let los := x.los || x.lof
  if e = 0 then (los || decide (x.frame < 2) || x.j0Tim, los)
  else if e = 1 then (los || x.msAis.on, los || x.msAis.on)
  else if e = 2 then (x.msRdi.on, false)
  else if e < 256 then
    let y := spath (c * 64 + (e - 64) / 2) s
    if e % 2 = 0 then (y.vc.ais.on || y.vc.lop || y.uneq.on || y.plm.on || y.j1Tim, y.vc.ais.on || y.vc.lop) else (y.rdi.on, false)
  else
    let y := trib (63 * sdhBase c s + (e - 256) / 2) s
    if e % 2 = 0 then (y.vc.ais.on || y.vc.lop || y.label || y.e1lof, y.vc.ais.on || y.vc.lop) else (y.rdi.on, false)

/-- Saturating addition to a bin word (R138). -/
def binAdd (bin c e w n : Nat) (s : State) : State :=
  let k := ((bin * 32 + c) * 65536 + e) * 4 + w
  { s with sdh := { s.sdh with bin := put 0 s.sdh.bin k (satAdd (look 0 s.sdh.bin k) n 0xFFFFFFFF) } }
def binWord (bin c e w : Nat) (s : State) : Nat := look 0 s.sdh.bin (((bin * 32 + c) * 65536 + e) * 4 + w)
def binPut (bin c e w n : Nat) (s : State) : State :=
  { s with sdh := { s.sdh with bin := put 0 s.sdh.bin (((bin * 32 + c) * 65536 + e) * 4 + w) n } }

/-- The epoch at which a bin began (R138). -/
def binStart (bin c : Nat) (s : State) : Nat := binWord bin c 3 0 s + binWord bin c 3 1 s * 2 ^ 32

/-- Of a current bin and the one before it, the bin that contains the start of a second (R137). -/
def binOfSec (cur c sec : Nat) (s : State) : Nat := if sec * 8000 < binStart cur c s then cur + 1 else cur

/-- A judged second enters the 15-minute and the 24-hour bin that contain its start (R136, R137). -/
def secToBins (c e : Nat) (x : PmSec) (s : State) : State :=
  [0, 2].foldl (fun a cur =>
    let bin := binOfSec cur c x.sec a
    if x.unav then binAdd bin c e 3 1 a
    else
      let a := if x.es then binAdd bin c e 0 1 a else a
      if x.ses then binAdd bin c e 1 1 a else binAdd bin c e 2 x.eb a) s

/-- Unavailable time begins at the first of 10 SES and ends at the first of 10 seconds that are not (R136). -/
def unavRun (x : PmEnt) (y : PmSec) : PmEnt :=
  let flips := y.ses != x.unav
  let run := if flips then x.run + 1 else 0
  let hold := x.hold ++ [{ y with unav := x.unav }]
  if 10 ≤ run then
    { x with unav := !x.unav, run := 0,
             hold := hold.take (hold.length - 10) ++ (hold.drop (hold.length - 10)).map (fun z => { z with unav := !x.unav }) }
  else { x with run := run, hold := hold }

/-- One entity's second ends (R135, R136). -/
def entSecond (c e sec : Nat) (s : State) : State :=
  let k := c * 65536 + e
  let x := pmEnt k s
  let st := entStanding c e s
  let ses := x.bad || st.2 || decide (sesLimit c e s ≤ x.eb)
  let y : PmSec := ⟨sec, decide (0 < x.eb) || x.dfct || st.1 || ses, ses, x.eb, false⟩
  let x := unavRun { x with eb := 0, dfct := false, bad := false } y
  match x.hold with
  | z :: r =>
    if 10 < x.hold.length then secToBins c e z (setEnt k (fun _ => { x with hold := r }) s) else setEnt k (fun _ => x) s
  | [] => setEnt k (fun _ => x) s

/-- The entities of a channel that are evaluated: its section, its paths and its tributaries in use (R135, R138). -/
def pmEnts (c : Nat) (s : State) : List Nat :=
  let lo := 63 * sdhBase c s
  let ps := ((s.sdh.path.map (·.1)).filter (fun k => k / 64 == c && tb tbPath k 0 0 s)).map (· % 64)
  let ts := ((s.sdh.trib.map (·.1)).filter (fun t => decide (lo ≤ t) && decide (t < lo + 63 * sdhSlots c s) && tribUsed t s)).map (· - lo)
  [0, 1, 2] ++ ps.flatMap (fun a => [64 + 2 * a, 65 + 2 * a]) ++ ts.flatMap (fun j => [256 + 2 * j, 257 + 2 * j])

/-- PM_SECOND (R135): a one-second period ends for the channel's entities. -/
def execPmSecond (t c : Nat) : State → Res := onService fun s =>
  let s := advance t s
  if !sdhEn c s then s
  else
    let sec := stSec (nowStamp s) - 1
    let s := (pmEnts c s).foldl (fun a e => entSecond c e sec a) s
    [0, 2].foldl (fun a cur => binAdd (binOfSec cur c sec a) c 3 3 1 a) s

/-- The current bin becomes the previous bin, and a new one begins (R137, R138). -/
def binTurn (cur c epoch : Nat) (suspect : Bool) (s : State) : State :=
  let lo := (cur * 32 + c) * 65536 * 4
  let n := 65536 * 4
  let keep := s.sdh.bin.filter (fun e => !(decide (lo ≤ e.1) && decide (e.1 < lo + n)) &&
    !(decide (lo + 32 * n ≤ e.1) && decide (e.1 < lo + 33 * n)))
  let moved := (s.sdh.bin.filter (fun e => decide (lo ≤ e.1) && decide (e.1 < lo + n))).map (fun e => (e.1 + 32 * n, e.2))
  let s := { s with sdh := { s.sdh with bin := moved.foldl (fun m e => put 0 m e.1 e.2) keep } }
  let s := if suspect then binPut (cur + 1) c 3 2 (binWord (cur + 1) c 3 2 s ||| 2) s else s
  binPut cur c 3 1 (epoch / 2 ^ 32) (binPut cur c 3 0 (epoch % 2 ^ 32) s)

/-- Bin boundaries of the given length and offset, both in seconds, at or before an epoch. -/
def binsTo (len ofs epoch : Nat) : Nat := (epoch + 8000 * (len - ofs % len)) / (8000 * len)

/-- BIN_BOUNDARY inside the boundary that opens `epoch`, after that of `last`: bins close whose boundary lies in between or here. One that a
step has skipped makes its bin SUSPECT (R137, R138). -/
def sdhBoundary (epoch last : Nat) (s : State) : State :=
  let pend := s.sdh.alignPend
  let close (cur len ofs : Nat) (s : State) : State :=
    if !pend && binsTo len ofs epoch = binsTo len ofs last then s
    else
      let skipped := decide (binsTo len ofs last < binsTo len ofs (epoch - 1))
      ((List.range 32).filter (fun c => sdhEn c s)).foldl (fun x c => binTurn cur c epoch (pend || skipped) x)
        { s with sdh := if cur = 0 then { s.sdh with wait15 := true } else { s.sdh with waitDay := true } }
  let s := close 2 86400 (rf pgSdh 0x1000 10 17 s) (close 0 900 (rf pgSdh 0x1000 0 10 s) s)
  { s with sdh := { s.sdh with alignPend := false } }

/-- BIN_COMPLETE (R137): 10 s after a bin boundary the previous bin is complete. -/
def execBinComplete (t : Nat) : State → Res := onService fun s =>
  let s := advance t s
  let chans := (List.range 32).filter (fun c => sdhEn c s)
  let mark (bin : Nat) (s : State) : State :=
    chans.foldl (fun a c => raise (sdhPage c) 10 (ev pgSdh 0x0115 1 (binPut bin c 3 2 (binWord bin c 3 2 a ||| 1) a))) s
  let s := if s.sdh.wait15 then mark 1 { s with sdh := { s.sdh with wait15 := false } } else s
  if s.sdh.waitDay then mark 3 { s with sdh := { s.sdh with waitDay := false } } else s

/-- SDH_PM_ALIGN has been written: the current bins are SUSPECT and close at the next boundary (R138). -/
def pmAlignWritten (s : State) : State :=
  let chans := (List.range 32).filter (fun c => sdhEn c s)
  let s := chans.foldl (fun a c => binPut 2 c 3 2 (binWord 2 c 3 2 a ||| 2) (binPut 0 c 3 2 (binWord 0 c 3 2 a ||| 2) a)) s
  { s with sdh := { s.sdh with alignPend := true } }

/-! ## Register side -/

/-- Read-only registers of an SDH page. -/
def sdhRo (c off : Nat) (s : State) : Option Word :=
  let x := sch c s
  if off = 0x104 then some (w32 (x.frame + sdhDefects c s * 8))
  else if 0x130 ≤ off && off < 0x140 then some (w32 (leNat (sub (x.j0.acc ++ zeros 16) (off - 0x130) 4)))
  else if off = 0x144 then some (w32 (x.k1 + x.k2 * 256))
  else none

/-- The windows of an SDH page (R127, R520). -/
def sdhWin (c off : Nat) (s : State) : Option WinRef :=
  if off < 0x5000 then
    let a := (off - 0x4000) / 64
    let w := off % 64 / 4
    let m := if w = 0 then 0xFFFF else if 4 ≤ w && w ≤ 11 then 0xFFFFFFFF else 0
    some { tab := tbPath, idx := c * 64 + a, word := w, table := 0x4000, index := a, wordNo := w, mask := m, staged := true }
  else if off < 0x6000 then
    let e := rf (sdhPage c) 0x154 8 6 s * 256 + (off - 0x5000) / 16
    some { tab := 0, idx := e, word := off % 16 / 4, table := 0x5000, index := e, wordNo := off % 16 / 4, mask := 0 }
  else if c != 0 then none
  else if off < 0x7000 then
    let e := rf pgSdh 0x1004 8 6 s * 256 + (off - 0x6000) / 16
    let w := off % 16 / 4
    some { tab := tbTrib, idx := e, word := w, table := 0x6000, index := e, wordNo := w,
           mask := if w = 0 then 0x7FFF7F else 0, staged := true }
  else
    let b := rd pgSdh 0x1008 s
    if bitOf b 31 then
      let e := fld b 6 6 * 64 + (off - 0x7000) / 64
      let w := off % 64 / 4
      some { tab := tbTpl, idx := e, word := w, table := 0x7001, index := e, wordNo := w,
             mask := if w = 15 then 0x3F else 0xFFFFFFFF, staged := true }
    else
      let e := fld b 7 7 * 128 + (off - 0x7000) / 32
      let w := off % 32 / 4
      let m := match w with
        | 0 => 0x3FFFFF | 1 => 0xFFFF07FF | 2 => 0xFFFFFFFF | 3 => 0x0FFF7FFF | 4 => 0x7FFFFFFF | 6 => 0xFFFFFFFF | _ => 0
      some { tab := tbPw, idx := e, word := w, table := 0x7000, index := e, wordNo := w, mask := m, staged := true }

/-- Words of SDH entries that hardware reports (R127, R138). -/
def sdhWinRo (c off : Nat) (r : WinRef) (s : State) : Option Word :=
  if 0x5000 ≤ off && off < 0x6000 then
    some (w32 (binWord (rf (sdhPage c) 0x154 0 2 s) c r.idx r.word s))
  else if r.tab = tbPath then
    let x := spath r.idx s
    if r.word = 1 then
      some (w32 (b2n x.vc.ais.on + b2n x.vc.lop * 2 + b2n x.rdi.on * 4 + b2n x.j1Tim * 8 + b2n x.plm.on * 16 + b2n x.uneq.on * 32 + x.c2 * 256))
    else if 12 ≤ r.word then some (w32 (leNat (sub (x.j1.acc ++ zeros 16) ((r.word - 12) * 4) 4)))
    else none
  else if r.tab = tbTrib && r.word = 1 then
    let x := trib r.idx s
    some (w32 (b2n x.vc.ais.on + b2n x.vc.lop * 2 + b2n x.rdi.on * 4 + b2n x.label * 8 + b2n x.e1lof * 16))
  else if r.tab = tbPw && r.word = 5 then
    let x := pwOf r.idx s
    some (w32 (x.st + b2n x.rRx * 4 + jbFill x % 256 * 256 + x.next * 65536))
  else none

/-- The stored value of a committed SDH word: a reserved TUG3_MODE reads as 0 (R127). -/
def sdhStored (r : WinRef) (v : Word) : Word :=
  if r.tab = tbPath && r.word = 0 then
    [1, 3, 5].foldl (fun a i => if fld a i 2 = 3 then setFld a i 2 0 else a) v
  else v

/-- A pseudowire entry has been committed: its sequence number starts at 0 (R129). -/
def sdhCommitted (r : WinRef) (s : State) : State :=
  if r.tab = tbPw then setPw r.idx (fun _ => {}) s else s

end Sys2Proof.Machine
end

