-- ==== Sys2Proof/Machine/Parse.lean ====
section
/-! DEFINITION. The parser of the 128-byte window, and the search keys (R150-R155). -/
namespace Sys2Proof.Machine

/-- What the parser needs of the configuration: TPID_S, TPID_ALT with its enable, the checksum check (R150, R152). -/
structure ParseCfg where
  tpidS : Nat
  tpidAlt : Option Nat
  csum : Bool

/-- A tag type (R150). -/
def ParseCfg.isTag (g : ParseCfg) (ty : Nat) : Bool := ty == 0x8100 || ty == g.tpidS || g.tpidAlt == some ty

/-- The data of a received frame: its bytes without the FCS. -/
def frameData (b : Bytes) : Bytes := b.take (b.length - 4)

/-- A node of `n` bytes at `off` fits; otherwise the parse ends with PARTIAL, or fails with 0x09 (R151). -/
def nodeFits (b : Bytes) (off n : Nat) (p : Parse) (k : Parse → Parse) : Parse :=
  if b.length < 128 then (if b.length < off + n then { p with fail := 0x09 } else k p)
  else (if 128 < off + n then { p with partial_ := true } else k p)

/-- UDP, TCP or the end (R150). -/
def parseL4 (b : Bytes) (proto off : Nat) (p : Parse) : Parse :=
  if proto = 17 then
    nodeFits b off 8 p fun p =>
      let dp := beAt b (off + 2) 2
      if beAt b (off + 4) 2 < 8 then { p with fail := 0x07 }
      else { p with l4 := some (beAt b off 2, dp), l4Off := off, ptpUdp := dp == 319 || dp == 320 }
  else if proto = 6 then
    nodeFits b off 14 p fun p =>
      { p with l4 := some (beAt b off 2, beAt b (off + 2) 2), l4Off := off, tcpFlags := byteAt b (off + 13) }
  else p

/-- The one's complement sum of the 16-bit words of a header. -/
def ipSum (h : Bytes) : Nat :=
  let t := (List.range (h.length / 2)).foldl (fun a i => a + beAt h (2 * i) 2) 0
  let t := t % 65536 + t / 65536
  t % 65536 + t / 65536

/-- The IPv4 node (R150, R152). -/
def parseIp4 (g : ParseCfg) (b : Bytes) (off : Nat) (p : Parse) : Parse :=
  nodeFits b off 20 p fun p =>
    let ihl := byteAt b off % 16
    let tot := beAt b (off + 2) 2
    if byteAt b off / 16 != 4 || decide (ihl < 5) then { p with fail := 0x03 }
    else nodeFits b off (ihl * 4) p fun p =>
      if tot < ihl * 4 then { p with fail := 0x04 }
      else if g.csum && ipSum (sub b off (ihl * 4)) != 0xFFFF then { p with fail := 0x05 }
      else
        let fr := beAt b (off + 6) 2
        let later := fr % 8192 != 0
        let h : IpHdr := {
          off := off, hlen := ihl * 4, src := beAt b (off + 12) 4, dst := beAt b (off + 16) 4,
          proto := byteAt b (off + 9), dscp := byteAt b (off + 1) / 4, ecn := byteAt b (off + 1) % 4,
          ttl := byteAt b (off + 8), tot := tot, flow := 0 }
        let p := { p with ip4 := some h, opts := decide (5 < ihl), frag := later || nbit fr 13, fragLater := later }
        if later then p else parseL4 b h.proto (off + ihl * 4) p

/-- The extensions after the IPv6 header, at most two (R150). -/
def parseExt (b : Bytes) (h : IpHdr) : Nat → Nat → Nat → Parse → Parse
  | 0, nh, off, p =>
    let p := { p with ip6 := some { h with proto := nh, hlen := off - h.off } }
    if nh = 0 || nh = 43 || nh = 44 || nh = 60 then { p with extLimit := true } else parseL4 b nh off p
  | n + 1, nh, off, p =>
    let p := { p with ip6 := some { h with proto := nh, hlen := off - h.off } }
    if nh = 0 || nh = 43 || nh = 60 then
      nodeFits b off 8 p fun p =>
        let len := 8 * (byteAt b (off + 1) + 1)
        nodeFits b off len p fun p => parseExt b h n (byteAt b off) (off + len) { p with opts := true }
    else if nh = 44 then
      nodeFits b off 8 p fun p =>
        let fr := beAt b (off + 2) 2
        let p := { p with opts := true, frag := true, fragLater := fr / 8 != 0 }
        if fr / 8 != 0 then { p with ip6 := some { h with proto := byteAt b off, hlen := off + 8 - h.off } }
        else parseExt b h n (byteAt b off) (off + 8) p
    else parseL4 b nh off p

/-- The IPv6 node (R150, R152). -/
def parseIp6 (b : Bytes) (off : Nat) (p : Parse) : Parse :=
  nodeFits b off 40 p fun p =>
    if byteAt b off / 16 != 6 then { p with fail := 0x06 }
    else
      let tc := beAt b off 2 / 16 % 256
      let h : IpHdr := {
        off := off, hlen := 40, src := beAt b (off + 8) 16, dst := beAt b (off + 24) 16,
        proto := byteAt b (off + 6), dscp := tc / 4, ecn := tc % 4, ttl := byteAt b (off + 7), tot := beAt b (off + 4) 2,
        flow := beAt b off 4 % 2 ^ 20 }
      parseExt b h 2 h.proto (off + 40) p

/-- The label stack, and the node after S = 1 (R150). -/
def parseMpls (g : ParseCfg) (b : Bytes) : Nat → Nat → Parse → Parse
  | 0, _, p => { p with fail := 0x02 }
  | n + 1, off, p =>
    nodeFits b off 4 p fun p =>
      let w := beAt b off 4
      let l : Label := ⟨w / 4096, w / 512 % 8, nbit w 8, w % 256⟩
      let p := { p with mpls := if p.mpls.length < 4 then p.mpls ++ [l] else p.mpls, depth := p.depth + 1, mplsEnd := off + 4 }
      if !l.s then parseMpls g b n (off + 4) p
      else
        let nib := if off + 4 < min 128 b.length then byteAt b (off + 4) / 16 else 0xF
        let p := { p with nib := if nib = 0xF && decide (min 128 b.length ≤ off + 4) then 0 else nib }
        if nib = 4 then parseIp4 g b (off + 4) p
        else if nib = 6 then parseIp6 b (off + 4) p
        else if nib = 0 then { p with pw := true }
        else if nib = 1 then nodeFits b (off + 4) 4 p fun p => { p with gach := some (beAt b (off + 6) 2) }
        else p

/-- The GOOSE or SV header (R150, R152). -/
def parseGrid (b : Bytes) (off : Nat) (p : Parse) : Parse :=
  nodeFits b off 8 p fun p =>
    let len := beAt b (off + 2) 2
    if len < 8 then { p with fail := 0x08 }
    else { p with grid := some (beAt b off 2, len, nbit (byteAt b (off + 4)) 7, off)
                  gridRes := (beAt b (off + 4) 2 % 32768, beAt b (off + 6) 2) }

/-- The PTP header over Ethernet (R150). -/
def parsePtp (b : Bytes) (off : Nat) (p : Parse) : Parse :=
  nodeFits b off 5 p fun p =>
    { p with ptp := some (byteAt b off % 16, byteAt b (off + 4),
        decide (off + 6 < min 128 b.length) && nbit (byteAt b (off + 6)) 1) }

/-- The node that a type names once tags and HSR are past (R150). -/
def parseType (g : ParseCfg) (b : Bytes) (ty off : Nat) (p : Parse) : Parse :=
  let p := { p with type := ty, typeEnd := off }
  if ty = 0x8847 || ty = 0x8848 then parseMpls g b 8 off { p with mplsOff := off }
  else if ty = 0x0800 then parseIp4 g b off p
  else if ty = 0x86DD then parseIp6 b off p
  else if ty = 0x88B8 || ty = 0x88BA then parseGrid b off p
  else if ty = 0x88F7 then parsePtp b off p
  else if ty < 0x0600 then { p with llc := true }
  else p

/-- The HSR node (R150). -/
def parseHsr (g : ParseCfg) (b : Bytes) (off : Nat) (p : Parse) : Parse :=
  nodeFits b off 6 { p with type := 0x892F, typeEnd := off } fun p =>
    let w := beAt b off 2
    let ty := beAt b (off + 4) 2
    let p := { p with hsr := true, hsrPath := w / 4096, hsrSize := w % 4096, hsrSeq := beAt b (off + 2) 2 }
    if g.isTag ty || ty = 0x892F then { p with fail := 0x01 } else parseType g b ty (off + 6) p

/-- VLAN tags, at most two, and what follows (R150). -/
def parseTags (g : ParseCfg) (b : Bytes) : Nat → Nat → Nat → Parse → Parse
  | 0, ty, off, p => if g.isTag ty then { p with fail := 0x01 } else if ty = 0x892F then parseHsr g b off p else parseType g b ty off p
  | n + 1, ty, off, p =>
    if g.isTag ty then
      nodeFits b off 4 { p with type := ty, typeEnd := off } fun p =>
        let w := beAt b off 2
        parseTags g b n (beAt b (off + 2) 2) (off + 4) { p with tags := p.tags ++ [⟨w / 8192, w / 4096 % 2, w % 4096⟩] }
    else if ty = 0x892F then parseHsr g b off p
    else parseType g b ty off p

/-- The parse of a frame's data (R150-R152). -/
def parse (g : ParseCfg) (b : Bytes) : Parse :=
  nodeFits b 0 14 {} fun p => parseTags g b 2 (beAt b 12 2) 14 { p with da := beAt b 0 6, sa := beAt b 6 6 }

/-- The outer tag, zero when absent. -/
def Parse.outer (p : Parse) : Tag := p.tags.headD ⟨0, 0, 0⟩
/-- The inner tag, zero when absent. -/
def Parse.inner (p : Parse) : Tag := p.tags.getD 1 ⟨0, 0, 0⟩
/-- The top label, zero when absent. -/
def Parse.top (p : Parse) : Label := p.mpls.headD ⟨0, 0, false, 0⟩

/-- A length field claims more bytes than the frame holds (R153); `b` is the frame's data, as far as it is held, and `n` its length. -/
def lengthBad (p : Parse) (b : Bytes) (n : Nat) : Bool :=
  (match p.ip4 with | some h => decide (n < h.off + h.tot) | none => false) ||
  (match p.ip6 with | some h => decide (n < h.off + 40 + h.tot) | none => false) ||
  (match p.l4 with
   | some _ => p.tcpFlags == 0 && (match p.ip4, p.ip6 with
      | some h, _ => h.proto == 17 && decide (n < p.l4Off + beAt b (p.l4Off + 4) 2)
      | none, some h => h.proto == 17 && decide (n < p.l4Off + beAt b (p.l4Off + 4) 2)
      | none, none => false)
   | none => false) ||
  (match p.grid with | some (_, len, _, off) => decide (n < off + len) | none => false)

/-! ## Keys (R154, R155) -/

/-- A field at a bit position of a key. -/
def kf (lo n v : Nat) : Nat := v % 2 ^ n * 2 ^ lo

/-- KTYPE (R154); 0 for a failed parse, which builds no key. -/
def keyType (wide : Bool) (p : Parse) : Nat :=
  if p.fail != 0 then 1
  else if p.ip4.isSome then 2 else if p.ip6.isSome then (if wide then 4 else 3) else if p.depth != 0 then 5 else 1

/-- The TTL or hop limit is at most 1. -/
def Parse.ttlLow (p : Parse) : Bool :=
  match p.ip4, p.ip6 with
  | some h, _ => decide (h.ttl ≤ 1)
  | none, some h => decide (h.ttl ≤ 1)
  | none, none => false

/-- The bits that every key shares (R155). -/
def keyCommon (kt src tag : Nat) (p : Parse) : Nat :=
  kf 0 4 kt + kf 4 9 src + kf 16 1 (b2n (p.tags.length == 1)) + kf 17 1 (b2n (p.tags.length == 2)) +
  kf 18 1 (b2n (p.depth != 0)) + kf 19 1 (b2n p.ip4.isSome) + kf 20 1 (b2n p.ip6.isSome) + kf 21 1 (b2n p.l4.isSome) +
  kf 22 1 (b2n p.frag) + kf 23 1 (b2n p.fragLater) + kf 24 1 (b2n p.opts) + kf 25 1 (b2n p.hsr) +
  kf 26 1 (b2n (p.grid.isSome && p.type == 0x88B8)) + kf 27 1 (b2n (p.grid.isSome && p.type == 0x88BA)) +
  kf 28 1 (b2n p.ptp.isSome) + kf 29 1 (b2n (p.partial_ || p.extLimit)) + kf 30 1 (b2n p.ttlLow) +
  kf 31 1 (b2n p.gach.isSome) + kf 32 16 tag

/-- APPID, or the PTP fields, of an L2 key (R155). -/
def gridPtpField (p : Parse) : Nat :=
  match p.grid, p.ptp with
  | some (a, _), _ => a
  | none, some (m, d, two) => m + d * 16 + b2n two * 4096
  | none, none => 0

/-- The search key of a frame (R155). -/
def buildKey (wide : Bool) (src tag : Nat) (p : Parse) (b : Bytes) : Nat :=
  let kt := keyType wide p
  let o := p.outer
  let i := p.inner
  let sp := (p.l4.getD (0, 0)).1
  let dp := (p.l4.getD (0, 0)).2
  let z : IpHdr := ⟨0, 0, 0, 0, 0, 0, 0, 0, 0, 0⟩
  let c := keyCommon kt src tag p
  match kt with
  | 2 =>
    let h := p.ip4.getD z
    c + kf 48 12 o.vid + kf 60 3 o.pcp + kf 64 32 h.src + kf 96 32 h.dst + kf 128 8 h.proto + kf 136 6 h.dscp + kf 142 2 h.ecn +
      kf 144 16 sp + kf 160 16 dp + kf 176 8 p.tcpFlags + kf 184 8 h.ttl + kf 192 20 p.top.label + kf 212 3 p.top.tc +
      kf 216 16 h.tot + kf 272 48 p.sa
  | 3 =>
    let h := p.ip6.getD z
    c + kf 48 12 o.vid + kf 60 3 o.pcp + kf 64 64 (h.src / 2 ^ 64) + kf 128 64 (h.dst / 2 ^ 64) + kf 192 8 h.proto +
      kf 200 6 h.dscp + kf 206 2 h.ecn + kf 208 16 sp + kf 224 16 dp + kf 240 8 h.ttl + kf 248 20 h.flow + kf 268 8 p.tcpFlags
  | 4 =>
    let h := p.ip6.getD z
    c + kf 48 12 o.vid + kf 60 3 o.pcp + kf 64 128 h.src + kf 192 128 h.dst + kf 320 8 h.proto + kf 328 6 h.dscp +
      kf 334 2 h.ecn + kf 336 16 sp + kf 352 16 dp + kf 368 8 h.ttl + kf 376 20 h.flow + kf 396 8 p.tcpFlags
  | 5 =>
    let lab (n : Nat) : Nat := match p.mpls[n]? with
      | some l => l.label + l.tc * 2 ^ 20 + b2n l.s * 2 ^ 23
      | none => 0
    c + kf 48 12 o.vid + kf 60 3 o.pcp + kf 64 24 (lab 0) + kf 88 24 (lab 1) + kf 112 24 (lab 2) + kf 136 24 (lab 3) +
      kf 160 4 p.depth + kf 164 4 p.nib + kf 168 16 (p.gach.getD 0) + kf 184 8 p.top.ttl + kf 192 48 p.da + kf 240 48 p.sa
  | _ =>
    c + kf 48 48 p.da + kf 96 48 p.sa + kf 144 12 o.vid + kf 156 3 o.pcp + kf 159 1 o.dei + kf 160 12 i.vid + kf 172 3 i.pcp +
      kf 175 1 i.dei + kf 176 16 p.type + kf 192 16 (gridPtpField p) +
      kf 208 1 (match p.grid with | some (_, _, sim, _) => b2n sim | none => 0) + kf 224 96 (leNat (sub (b.take 128) p.typeEnd 12))

end Sys2Proof.Machine
end

