-- ==== Sys2Proof/Machine/Pac.lean ====
section
/-! DEFINITION. Dispatch, the forwarding pipelines, the classifier, the express class map and the class decision, the reorder stage (R140-R163, R197-R199). -/
namespace Sys2Proof.Machine

/-! ## Configuration that a frame sees -/

/-- The parser's configuration for a frame of generation `g`. -/
def parseCfg (g : Nat) (s : State) : ParseCfg :=
  let c := rdG g 0x160 0x100 s
  let t := rdG g 0x160 0x104 s
  ⟨fld t 0 16, if bitOf c 1 then some (fld t 16 16) else none, bitOf c 0⟩

/-- The bytes that the parser sees: its window is the first 128 of the frame as received; a shorter frame ends with its data, before the FCS
(R150, R151, log entry 232). -/
def windowOf (f : Frm) : Bytes := if f.ended && decide (f.bytes.length < 128) then frameData f.bytes else f.bytes
/-- The data of a frame: without its FCS once it has ended. -/
def dataOfFrm (f : Frm) : Bytes := if f.ended then frameData f.bytes else f.bytes

/-- The parse result of a frame. -/
def parseOf (f : Frm) (s : State) : Parse := parse (parseCfg f.gen s) (windowOf f)

/-! ## Sources and dispatch -/

/-- The FIFO test of R141. -/
def urgent (src : Nat) (p : Parse) (s : State) : Bool :=
  (tb tbSrc src 0 1 s && (p.type == 0x88B8 || p.type == 0x88BA || p.type == 0x88F7 || p.type == 0x892F)) ||
  (!p.tags.isEmpty && tb tbSrc src 0 (2 + p.outer.pcp) s) ||
  (p.depth != 0 && tb tbSrc src 0 (10 + p.top.tc) s)

/-- A dispatchable frame enters its source's FIFO, or is discarded when the FIFO is full (R141, R143). -/
def dispatchable (id : Nat) (s : State) : State :=
  let f := frm id s
  let u := urgent f.src (parseOf f s) s
  let k := f.src * 2 + b2n (!u)
  let q := look [] s.pac.fifo k
  if q.length < (if u then 4 else 16) then { s with pac := { s.pac with fifo := put [] s.pac.fifo k (q ++ [id]) } }
  else dropFrm id (raise 0x160 11 (ev 0x160 0x0102 1 (bump 0x160 0x128 0 32 1 s)))

/-- The end-of-frame length check: a length field that claims more bytes than the frame held as it was received, `n` with its FCS, marks it bad
(R153). -/
def lengthCheck (id n : Nat) (s : State) : State :=
  let f := frm id s
  if frmLive id s && lengthBad (parseOf f s) f.bytes (n - 4) then
    ev 0x160 0x0115 1 (setFrm id (fun f => { f with bad := true, lenBad := !f.bad }) s)
  else s

/-- The pipelines of the variant (R4, R144). -/
def pipes (s : State) : Nat := if s.fixed.ident.varH then 9 else 17

/-- Pipeline q is active (R144); none before the page has left its initialisation, when PAC_DISP_STAT reads its reset value. -/
def pipeActive (q : Nat) (s : State) : Bool :=
  decide (q < pipes s) && look 0 s.boot.ready 0x160 == 1 && !(s.pac.heat == some q) && !(s.pac.idle == some q) && !has s.pac.retired q

/-- Active pipelines in number. -/
def pipeCount (s : State) : Nat := ((List.range 17).filter (pipeActive · s)).length

/-- Unreleased frames of a source and kind: those with a sequence number not yet released, and those dispatched whose kind is still to come
(R149). -/
def unreleased (src : Nat) (x : Bool) (s : State) : Nat :=
  let k := src * 2 + b2n (!x)
  (look 0 s.pac.seqNext k + 4096 - look 0 s.pac.seqOut k) % 4096 + (s.pac.inPipe.filter (fun e => e.src == src)).length

/-- The next source of a kind in round-robin order after `last`: one with a frame, not served in this cycle, not paused. -/
def nextSource (u : Bool) (last : Nat) (done : List Nat) (s : State) : Option Nat :=
  let ok := s.pac.fifo.filterMap (fun e =>
    if (e.1 % 2 == b2n (!u)) && !e.2.isEmpty && !has done (e.1 / 2) &&
       decide (unreleased (e.1 / 2) true s < 1024) && decide (unreleased (e.1 / 2) false s < 1024) then some (e.1 / 2) else none)
  match ok.find? (fun x => decide (last < x)) with
  | some x => some x
  | none => ok.head?

/-- The head frame of a source's FIFO goes to a pipeline (R142). -/
def dispatchOne (u : Bool) (src q : Nat) (s : State) : State :=
  let k := src * 2 + b2n (!u)
  match look [] s.pac.fifo k with
  | [] => s
  | id :: r =>
    let s := { s with pac := { s.pac with
      fifo := put [] s.pac.fifo k r, inPipe := s.pac.inPipe ++ [⟨id, src, q⟩], lastPipe := q,
      rrUrgent := if u then src else s.pac.rrUrgent, rrNormal := if u then s.pac.rrNormal else src } }
    let s := ev 0x160 0x0100 1 s
    if u then ev 0x160 0x0101 1 s else s

/-- The dispatch of one cycle over the active pipelines, with the sources served so far of each kind (R142). -/
def dispatchPipes : List Nat → List Nat → List Nat → State → State
  | [], _, _, s => s
  | q :: qs, du, dn, s =>
    match nextSource true s.pac.rrUrgent du s with
    | some x => dispatchPipes qs (Sys2Proof.Machine.add du x) dn (dispatchOne true x q s)
    | none =>
      match nextSource false s.pac.rrNormal dn s with
      | some x => dispatchPipes qs du (Sys2Proof.Machine.add dn x) (dispatchOne false x q s)
      | none => s

/-- DISPATCH: one FE core cycle of the dispatcher (R142, R146). -/
def dispatchCycle (s : State) : State :=
  let order := ((List.range 17).map (fun i => (s.pac.lastPipe + 1 + i) % 17)).filter (pipeActive · s)
  let s := if pipeCount s < (if s.fixed.ident.varH then 8 else 16) && rb 0x160 0x008 0 s then ev 0x160 0x0103 1 s else s
  if rb 0x160 0x008 0 s then dispatchPipes order [] [] s else s

def execDispatch (t : Nat) (s : State) : Res := onService (fun s => dispatchCycle (advance t s)) s

/-- PIPE_IDLE: the withdrawn pipeline has completed every frame in it (R145). -/
def pipeIdle (s : State) : State :=
  match s.pac.heat with
  | some q =>
    if s.pac.draining && !s.pac.inPipe.any (·.pipe == q) && !s.pac.lookups.any (fun i => match find? s.pac.dec i with
        | some d => d.pipe == q
        | none => false)
    then { s with pac := { s.pac with draining := false } } else s
  | none => s

def execPipeIdle (t : Nat) (s : State) : Res := onLive (fun s => pipeIdle (advance t s)) s

/-! ## The classifier (R156-R159) -/

/-- Words of a table entry as one number, the first word lowest. -/
def twords (tab idx w n : Nat) (s : State) : Nat :=
  (List.range n).foldr (fun i a => (tw tab idx (w + i) s).toNat + 2 ^ 32 * a) 0

/-- Block b is wide for a frame of generation g. -/
def clsWide (g b : Nat) (s : State) : Bool := bitOf (rdG g 0x160 0x108 s) b

/-- Slots whose VALID bit is set, ascending. -/
def clsValid (s : State) : List Nat :=
  (s.regs.tbl.filterMap (fun e => if e.1 / 2 ^ 30 = tbCls && e.1 % 64 = 0 then some (e.1 / 64 % 2 ^ 24) else none)).filter
    (fun i => tb tbCls i 0 0 s)

/-- VALUE and MASK of an entry. -/
def clsValue (wide : Bool) (i : Nat) (s : State) : Nat :=
  twords tbCls i 8 10 s + (if wide then 2 ^ 320 * twords tbCls (i + 1) 8 10 s else 0)
def clsMask (wide : Bool) (i : Nat) (s : State) : Nat :=
  twords tbCls i 18 10 s + (if wide then 2 ^ 320 * twords tbCls (i + 1) 18 10 s else 0)

/-- The entry matches the key (R157). -/
def clsMatch (wide : Bool) (key i : Nat) (s : State) : Bool := ((key ^^^ clsValue wide i s) &&& clsMask wide i s) == 0

/-- PRI of an entry. -/
def clsPri (i : Nat) (s : State) : Nat := tf tbCls i 0 16 16 s

/-- The larger PRI wins; among equals the lower index (R157). -/
def clsBest (l : List Nat) (s : State) : Option Nat :=
  l.foldl (fun a i => match a with
    | none => some i
    | some j => if clsPri j s < clsPri i s || (clsPri i s == clsPri j s && decide (i < j)) then some i else some j) none

/-- The classifier search (R156, R157). -/
def clsSearch (g : Nat) (wide : Bool) (key : Nat) (s : State) : Option Nat :=
  clsBest ((clsValid s).filter (fun i =>
    clsWide g (i / 8192) s == wide && (!wide || i % 2 == 0) && clsMatch wide key i s)) s

/-- The action in four table words (R160). -/
def actAt (tab idx w : Nat) (s : State) : Act := ⟨tw tab idx w s, tw tab idx (w + 1) s, tw tab idx (w + 2) s, tw tab idx (w + 3) s⟩

/-- OP; 6 and 7 act as DROP. -/
def Act.op (a : Act) : Nat := if fld a.w0 0 3 = 6 || fld a.w0 0 3 = 7 then 1 else fld a.w0 0 3
/-- FTB_SEL; 6 and 7 act as 0. -/
def Act.sel (a : Act) : Nat := if 6 ≤ fld a.w0 14 3 then 0 else fld a.w0 14 3
def Act.target (a : Act) : Nat := fld a.w1 0 20
def Act.vrf (a : Act) : Nat := fld a.w1 20 12
def Act.puntQ (a : Act) : Nat := fld a.w2 18 9
/-- CLASS as this model numbers classes: 0-7 for E0-E7, 8-15 for B0-B7. -/
def Act.cls (a : Act) : Nat := if 8 ≤ fld a.w0 5 4 then fld a.w0 5 4 - 8 else fld a.w0 5 4 + 8

/-- A valid entry with a parity error loses VALID and is reported (R159). -/
def clsParity (i part event : Nat) (s : State) : State :=
  raise 0x160 9 (ev 0x160 event 1 (wr 0x160 0x11C (w32 (i + part * 2 ^ 17 + 2 ^ 31)) (tfput tbCls i 0 0 1 0 s)))

/-- SCAN_SLOT: the scanner reads the next slot; `bad` names the part whose parity fails. A slot written in the same cycle is left to the next pass
(R159). -/
def scanSlot (bad : Option Nat) (s : State) : State :=
  if !rb 0x160 0x114 0 s || !rb 0x160 0x008 0 s then s
  else
    let i := s.pac.scanNext
    let missed := s.pac.slotWr == some (i, cycUp 0x160 s.tim.up)
    let wide := bitOf (rd 0x160 0x108 s) (i / 8192)
    let owner := if wide then i / 2 * 2 else i
    let s := { s with pac := { s.pac with
        scanNext := (i + 1) % 131072,
        scanPass := if i = 131071 then min 32767 (s.pac.scanPass + 1) else s.pac.scanPass } }
    if missed then s
    else
    let s := ev 0x160 0x010F 1 s
    match bad with
    | some part =>
      if tb tbCls owner 0 0 s && decide (part ≤ 2) then
        let s := clsParity owner part 0x010E s
        wr 0x160 0x11C (w32 (i + part * 2 ^ 17 + 2 ^ 31)) s
      else s
    | none => s

def execScanSlot (t : Nat) (bad : Option Nat) (s : State) : Res := onLive (fun s => scanSlot bad (advance t s)) s

/-! ## The express class map (R197-R199) -/

/-- The bank of the express tables that a frame of generation g uses (R200). -/
def expBank (g : Nat) (s : State) : Nat := fld (rdG g 0x180 0x100 s) 0 1

/-- The express key (R197). -/
def expKey (wide : Bool) (src : Nat) (p : Parse) : Nat :=
  let o := p.outer
  let ip := match p.ip4 with | some h => some h | none => p.ip6
  kf 0 9 src + kf 9 4 (keyType wide p) + kf 13 1 (b2n (!p.tags.isEmpty)) + kf 14 1 (b2n (p.depth != 0)) +
  kf 15 1 (match p.grid with | some (_, _, sim, _) => b2n sim | none => 0) + kf 16 16 p.type +
  kf 32 16 (match p.grid, p.ptp with
    | some (a, _), _ => a
    | none, some (m, d, _) => m + d * 16
    | none, none => 0) +
  kf 48 12 o.vid + kf 60 3 o.pcp + kf 63 1 (b2n p.hsr) + kf 64 20 p.top.label + kf 84 3 p.top.tc + kf 87 1 (b2n p.pw) +
  kf 88 6 (match ip with | some h => h.dscp | none => 0) + kf 96 8 (match ip with | some h => h.proto | none => 0) +
  kf 104 16 (p.l4.getD (0, 0)).2

/-- Valid map entries of a bank, ascending. -/
def mapValid (bank : Nat) (s : State) : List Nat :=
  s.regs.tbl.filterMap (fun e =>
    if e.1 / 2 ^ 30 = tbMap && e.1 % 64 = 0 && bitOf e.2 0 && e.1 / 64 % 2 ^ 24 / 4096 == bank then some (e.1 / 64 % 2 ^ 24) else none)

/-- The map entry that wins: the lowest index that matches (R198). -/
def mapSearch (bank key : Nat) (s : State) : Option Nat :=
  (mapValid bank s).find? (fun i => ((key ^^^ twords tbMap i 4 4 s) &&& twords tbMap i 8 4 s) == 0)

/-- The source entry opens class Ek, and the contract it gives (R199). -/
def opened (bank src k : Nat) (s : State) : Option Nat :=
  if tb tbOpen (bank * 512 + src) 0 k s then some (tf tbOpen (bank * 512 + src) (1 + k / 2) (k % 2 * 16) 12 s) else none

/-! ## Class decision (R161) -/

/-- The bulk class that a source entry gives when no action sets one (R161). -/
def defaultClass (src : Nat) (p : Parse) (s : State) : Nat :=
  if !p.tags.isEmpty then 8 + tf tbSrc src 2 (3 * p.outer.pcp) 3 s
  else if p.depth != 0 then 8 + tf tbSrc src 2 (3 * p.top.tc) 3 s
  else 8 + tf tbSrc src 0 18 3 s

/-- The class, the action, whether only its COUNTER applies, and the contract (R161). -/
def classDecide (bank src : Nat) (p : Parse) (map : Option Nat) (a : Act) (s : State) : Option Nat × Act × Bool × Nat :=
  if p.fail != 0 then
    let a := actAt tbSrc src 8 s
    (if bitOf a.w0 4 then some a.cls else some (8 + tf tbSrc src 0 18 3 s), a, false, 0)
  else match map with
    | some i => (some (tf tbMap i 0 1 3 s), a, true, tf tbMap i 0 16 12 s)
    | none =>
      if bitOf a.w0 4 then
        if a.cls < 8 then
          (match opened bank src a.cls s with
           | some c => (some a.cls, a, true, c)
           | none => (none, a, true, 0))
        else (some a.cls, a, false, 0)
      else (some (defaultClass src p s), a, false, 0)

/-! ## FTB counters (R194) -/

def setFtb (f : Ftb → Ftb) (s : State) : State := { s with ftb := f s.ftb }

/-- A table word failed its check (R195). -/
def ftbPerr (tab idx event : Nat) (s : State) : State :=
  raise 0x170 9 (ev 0x170 event 1 (wr 0x170 0x124 (w32 (tab + 2 ^ 31)) (setFtb (fun f => { f with perrIdx := idx }) s)))

/-- A counter pair that fails its parity restarts, from the increment that found it (R195). -/
def cntRestart (bad : Bool) (i : Nat) (s : State) : State :=
  if bad then ftbPerr 9 i 0x011A (setFtb (fun f => { f with cnt := del f.cnt i }) s) else s

/-- Counter pair i counts a frame of n bytes. -/
def ftbCount (i n : Nat) (s : State) : State :=
  let c := look (0, 0) s.ftb.cnt i
  { s with ftb := { s.ftb with cnt := put (0, 0) s.ftb.cnt i ((c.1 + 1) % 2 ^ 48, (c.2 + n) % 2 ^ 64) } }

/-- Counter pair i counts frame `id`, once its length as received is known (R194). -/
def frmCount (id i : Nat) (s : State) : State :=
  if (frm id s).ended then ftbCount i (frm id s).bytes.length s
  else { s with ftb := { s.ftb with cntWait := put [] s.ftb.cntWait id (look [] s.ftb.cntWait id ++ [i]) } }

/-- The length of a frame is known: the pairs that wait for it count (R194). -/
def frmCounted (id n : Nat) (s : State) : State :=
  (look [] s.ftb.cntWait id).foldl (fun a i => ftbCount i n a)
    { s with ftb := { s.ftb with cntWait := put [] s.ftb.cntWait id [] } }

/-- The COUNTER of an action counts the frame when CNT_EN is set (R160); `bad` says that the pair fails its parity. -/
def actCount (a : Act) (bad : Bool) (id : Nat) (s : State) : State :=
  if bitOf a.w0 17 then frmCount id (fld a.w3 0 23) (cntRestart bad (fld a.w3 0 23) s) else s

/-! ## Release and reorder -/

/-- The next sequence number of a source and kind. Frames take it in dispatch order, when their pipeline has found their kind: the numbers are those
of R148, which gives them at dispatch (log entry 233). -/
def takeSeq (src : Nat) (x : Bool) (s : State) : Nat × State :=
  let k := src * 2 + b2n (!x)
  let n := look 0 s.pac.seqNext k
  (n, { s with pac := { s.pac with seqNext := put 0 s.pac.seqNext k ((n + 1) % 4096) } })

/-- A discard token goes to the reorder stage, and the frame is gone (R148). -/
def discardToken (id src seq pipe : Nat) (x : Bool) (s : State) : State :=
  ev 0x160 0x0116 1 { dropFrm id s with pac := { (dropFrm id s).pac with
    comps := s.pac.comps ++ [⟨src, x, seq, none, pipe⟩], dec := del s.pac.dec id } }

/-- The classifier's part: hit, miss or a failing action (R157, R159). -/
def clsAction (g src : Nat) (p : Parse) (b : Bytes) (badAct : Bool) (s : State) : Act × State :=
  let wide := tb tbSrc src 0 0 s
  let kt := keyType wide p
  match clsSearch g (kt == 4) (buildKey wide src (tf tbSrc src 1 0 16 s) p b) s with
  | none => (actAt tbSrc src 4 s, ev 0x160 0x0109 1 s)
  | some i =>
    let s := ev 0x160 0x0108 1 s
    if badAct then (actAt tbSrc src 4 s, clsParity i 3 0x010D s) else (actAt tbCls i 4 s, s)

/-- The events and the record of a parse (R150-R152). -/
def parseNote (src : Nat) (p : Parse) (s : State) : State :=
  if p.fail != 0 then
    let s := { s with pac := { s.pac with pfLast := p.fail + src * 256 } }
    let s := ev 0x160 0x0107 1 s
    if p.fail = 5 then ev 0x160 0x0113 1 s else s
  else
    let s := ev 0x160 0x0105 1 s
    if p.partial_ || p.extLimit then ev 0x160 0x0106 1 s else s

/-- PIPELINE_RELEASE: the oldest frame in the pipelines is parsed, classified and released (R147, R150-R161). -/
def pipelineRelease (badAct badCnt : Bool) (s : State) : State :=
  match s.pac.inPipe with
  | [] => s
  | e :: rest =>
    let s := { s with pac := { s.pac with inPipe := rest } }
    let f := frm e.id s
    let p := parseOf f s
    let s := parseNote e.src p s
    let (a, s) := if p.fail = 0 then clsAction f.gen e.src p (windowOf f) badAct s else (({} : Act), s)
    let bank := expBank f.gen s
    let map := if p.fail = 0 then mapSearch bank (expKey (tb tbSrc e.src 0 0 s) e.src p) s else none
    let s := if map.isSome then ev 0x160 0x010A 1 s else s
    let (cls, act, only, con) := classDecide bank e.src p map a s
    let s := actCount act badCnt e.id s
    match cls with
    | none =>
      let (n, s) := takeSeq e.src false s
      discardToken e.id e.src n e.pipe false (ev 0x160 0x010C 1 s)
    | some k =>
      let x := decide (k < 8)
      let s := tapNote e.id (fun y => { y with cls := some ((k + 8) % 16) }) s
      let (n, s) := takeSeq e.src x s
      let d : Decision := { parse := p, cls := some k, act := act, counterOnly := only, contract := con, seq := n, pipe := e.pipe }
      let s := { s with pac := { s.pac with dec := ins s.pac.dec e.id d } }
      if x then
        ev 0x160 0x010B 1 { s with pac := { s.pac with comps := s.pac.comps ++ [⟨e.src, true, n, some e.id, e.pipe⟩] } }
      else if act.op = 1 then discardToken e.id e.src n e.pipe false s
      else { s with pac := { s.pac with lookups := s.pac.lookups ++ [e.id] } }

/-- A released completion leaves toward the express lookup or toward channel D. -/
def releaseOne (c : Compl) (s : State) : State :=
  match c.frame with
  | none => s
  | some id =>
    if c.express then { s with pac := { s.pac with outX := s.pac.outX ++ [(id, cycUp 0x180 s.tim.up)] } }
    else tapEnd id false { s with pac := { s.pac with outB := s.pac.outB ++ [id] } }

/-- Completions at the head of a sequence are released in order (R148). -/
def releaseSeq : Nat → Nat → Bool → State → State
  | 0, _, _, s => s
  | fuel + 1, src, x, s =>
    let k := src * 2 + b2n (!x)
    let h := look 0 s.pac.seqOut k
    match s.pac.held.find? (fun c => c.src == src && c.express == x && c.seq == h) with
    | none => s
    | some c =>
      releaseSeq fuel src x (releaseOne c { s with pac := { s.pac with
        held := s.pac.held.filter (fun e => !(e == c)), seqOut := put 0 s.pac.seqOut k ((h + 1) % 4096) } })

/-- How far a sequence number lies ahead of the next to release, modulo 4,096. -/
def seqAhead (c : Compl) (s : State) : Nat :=
  (c.seq + 4096 - look 0 s.pac.seqOut (c.src * 2 + b2n (!c.express))) % 4096

/-- A completion reaches the reorder stage; a late one is discarded (R148, R149). -/
def reorderArrive (c : Compl) (s : State) : State :=
  let s := { s with pac := { s.pac with comps := s.pac.comps.filter (fun e => !(e == c)) } }
  if 2048 ≤ seqAhead c s then
    let s := ev 0x160 0x0112 1 s
    match c.frame with
    | some id => dropFrm id { s with pac := { s.pac with dec := del s.pac.dec id } }
    | none => s
  else
    let s := if seqAhead c s = 0 then s else ev 0x160 (if c.express then 0x0110 else 0x0111) 1 s
    releaseSeq 1025 c.src c.express { s with pac := { s.pac with held := s.pac.held ++ [c] } }

/-- The bulk reorder stage has no place for one more completion of a pipeline: 512 of each, 8,704 in all (R149). -/
def stageFull (pipe : Nat) (s : State) : Bool :=
  let b := s.pac.held.filter (fun c => !c.express)
  decide (8704 ≤ b.length) || decide (512 ≤ (b.filter (fun c => c.pipe == pipe)).length)

/-- REORDER_COMPLETION of the completion with a source, kind and sequence number. A bulk completion that the stage would hold waits in its pipeline
while the stage is full (R148, R149). -/
def reorderCompletion (src seq : Nat) (x : Bool) (s : State) : State :=
  match s.pac.comps.find? (fun c => c.src == src && c.express == x && c.seq == seq) with
  | none => s
  | some c => if !x && seqAhead c s != 0 && decide (seqAhead c s < 2048) && stageFull c.pipe s then s else reorderArrive c s

/-- The pipeline that holds the missing frame of a source's bulk sequence, or its discard token. -/
def missingPipe (src seq : Nat) (s : State) : Option Nat :=
  match s.pac.comps.find? (fun c => c.src == src && !c.express && c.seq == seq) with
  | some c => some c.pipe
  | none => (s.pac.dec.find? (fun e => (frm e.1 s).src == src && e.2.seq == seq &&
      (match e.2.cls with | some k => decide (8 ≤ k) | none => false))).map (·.2.pipe)

/-- REORDER_TIMEOUT: the missing head of a bulk sequence is skipped and its pipeline reported (R149). -/
def reorderTimeout (src : Nat) (s : State) : State :=
  let k := src * 2 + 1
  let h := look 0 s.pac.seqOut k
  if s.pac.held.any (fun c => c.src == src && !c.express) then
    let s := match missingPipe src h s with
      | some q => ev 0x025 0x0104 1 { s with pac := { s.pac with suspects := Sys2Proof.Machine.add s.pac.suspects q } }
      | none => s
    let s := { s with pac := { s.pac with seqOut := put 0 s.pac.seqOut k ((h + 1) % 4096) } }
    releaseSeq 1025 src false (raise 0x160 10 (ev 0x160 0x0112 1 (bump 0x160 0x124 0 32 1 s)))
  else s

/-! ## Registers of pages 0x160-0x162 -/

/-- The RO registers that the block owns. -/
def pacRo (off : Nat) (s : State) : Option Word :=
  if off = 0x10C then
    some (w32 (((List.range 17).foldl (fun a q => a + b2n (pipeActive q s) * 2 ^ q) 0) + (s.pac.heat.getD 31) * 2 ^ 17 +
      pipeCount s * 2 ^ 22 + b2n s.pac.draining * 2 ^ 27))
  else if off = 0x110 then some (w32 (s.pac.retired.foldl (fun a q => a + 2 ^ q) 0))
  else if off = 0x118 then some (w32 (s.pac.scanNext + s.pac.scanPass * 2 ^ 17))
  else if off = 0x120 then some (w32 s.pac.pfLast)
  else none

/-- The classifier slot and the source entry behind the windows (R158, R520). -/
def pacWin (p off : Nat) (s : State) : Option WinRef :=
  if off < 0x4000 || 0x8000 ≤ off then none
  else if p = 0x160 then
    let i := rf 0x160 0x12C 7 10 s * 128 + (off - 0x4000) / 128
    let w := (off - 0x4000) % 128 / 4
    let m := if w = 0 then 0xFFFF0001 else if 4 ≤ w && w < 28 then 0xFFFFFFFF else 0
    let m := if w = 4 then 0x001FFFFF else if w = 6 then 0x07FFFFFF else if w = 7 then 0x7FFFFF else m
    some ⟨tbCls, i, w, 0x4000, i, w, m, false, false, false⟩
  else
    let i := (p - 0x161) * 256 + (off - 0x4000) / 64
    let w := (off - 0x4000) % 64 / 4
    if 288 < i then none
    else
      let m := if w = 0 then 0x1FFFFF else if w = 1 then 0xFFFF else if w = 2 then 0xFFFFFF
        else if w = 4 || w = 8 then 0x001FFFFF else if w = 5 || w = 9 then 0xFFFFFFFF
        else if w = 6 || w = 10 then 0x07FFFFFF else if w = 7 || w = 11 then 0x7FFFFF else 0
      some ⟨tbSrc, i, w, 0x4000, i, w, m, false, true, false⟩

/-- The refusals of classifier and source window writes, as PG_STAT bit 8 or WR_IGNORED (R158, R162). -/
def pacLiveEntry (r : WinRef) (s : State) : Bool :=
  r.tab == tbCls && r.word != 0 &&
  (let wide := bitOf (rd 0x160 0x108 s) (r.idx / 8192)
   tb tbCls (if wide then r.idx / 2 * 2 else r.idx) 0 0 s)

/-- CTL and ACTION of the odd slot of a wide entry take no write (R158). -/
def pacOddSlot (r : WinRef) (s : State) : Bool :=
  r.tab == tbCls && decide (r.word < 8) && bitOf (rd 0x160 0x108 s) (r.idx / 8192) && r.idx % 2 == 1

/-- A source commit whose PARSEFAIL action sets an E class is discarded (R162). -/
def pacCommitBad (r : WinRef) (w8 : Word) : Bool := r.tab == tbSrc && bitOf w8 4 && decide (8 ≤ fld w8 5 4)

/-- Page check of page 0x160 (R163's table). -/
def pacCheck (s : State) : Option Nat :=
  let wide := fld (rd 0x160 0x108 s) 0 16
  let ch := wide ^^^ s.pac.wideInForce
  let ty (x : Nat) : Bool := x == 0x8100 || x == 0x892F || x == 0x8847 || x == 0x8848 || x == 0x0800 || x == 0x86DD ||
    x == 0x88B8 || x == 0x88BA || x == 0x88F7 || decide (x < 0x0600)
  if (clsValid s).any (fun i => nbit ch (i / 8192)) then some 0x01
  else if ty (rf 0x160 0x104 0 16 s) || (rb 0x160 0x100 1 s && ty (rf 0x160 0x104 16 16 s)) then some 0x02
  else none

end Sys2Proof.Machine
end

