-- ==== Sys2Proof/Machine/Dup.lean ====
section
/-! DEFINITION. Redundancy pairs: the node table, sequence judgement, PRP and HSR frames, and the streams of IEEE 802.1CB (R228-R244). -/
namespace Sys2Proof.Machine

def setExp (f : Exp → Exp) (s : State) : State := { s with exp := f s.exp }

def setXf (id : Nat) (f : XFrame → XFrame) (s : State) : State :=
  match find? s.exp.frames id with
  | none => s
  | some x => setExp (fun e => { e with frames := ins e.frames id (f x) }) s

/-- A redundancy pair as a frame sees it. -/
structure PairView where
  p : Nat
  role : Nat
  chA : Nat
  chB : Nat
  netId : Nat
  learn : Bool
  deriving DecidableEq, Repr

/-- Pair `p` for a frame of generation `g`, when it is enabled. -/
def pairAt (g p : Nat) (s : State) : Option PairView :=
  let w := rdG g 0x188 (0x200 + 16 * p) s
  if bitOf w 0 then some ⟨p, fld w 1 2, fld w 3 8, fld w 11 8, fld w 19 3, bitOf w 22⟩ else none

/-- The enabled pair that names a channel, and whether the channel is its CH_B. -/
def pairOf (g c : Nat) (s : State) : Option (PairView × Bool) :=
  (List.range 64).findSome? (fun p => match pairAt g p s with
    | some v => if v.chA = c then some (v, false) else if v.chB = c then some (v, true) else none
    | none => none)

/-- Counter k of pair p (page 0x188's window). -/
def pairCount (p k : Nat) (s : State) : State :=
  setExp (fun e => { e with pairCnt := put 0 e.pairCnt (p * 16 + k) (satAdd (look 0 e.pairCnt (p * 16 + k)) 1 0xFFFFFFFF) }) s

/-- The node entry of a source on a pair. -/
def nodeFind (p mac : Nat) (s : State) : Option (Nat × Node) := s.exp.nodes.find? (fun e => !e.2.proxy && e.2.pair == p && e.2.mac == mac)

def proxyFind (p mac : Nat) (s : State) : Option (Nat × Node) := s.exp.nodes.find? (fun e => e.2.proxy && e.2.pair == p && e.2.mac == mac)

def setNode (i : Nat) (f : Node → Node) (s : State) : State :=
  match find? s.exp.nodes i with
  | none => s
  | some n => setExp (fun e => { e with nodes := ins e.nodes i (f n) }) s

/-- The lowest free node index, none when the table is full (R232). -/
def nodeFree (s : State) : Option Nat :=
  if 16384 ≤ s.exp.nodes.length then none
  else (List.range (s.exp.nodes.length + 1)).find? (fun i => (find? s.exp.nodes i).isNone)

/-- A dynamic node entry is created; none when the table is full (R232). -/
def nodeNew (proxy : Bool) (p mac : Nat) (s : State) : Option Nat × State :=
  match nodeFree s with
  | none => (none, raise 0x188 9 s)
  | some i =>
    (some i, ev 0x188 0x010B 1 (setExp (fun e => { e with nodes := ins e.nodes i ⟨proxy, false, p, mac, true, 0, 0, 0, 0, 0, 0, s.tim.up⟩ }) s))

/-- The NODE entry of a tagged frame's source, created at its first tagged frame; with a full table the frame is not judged, and counted
(R232). -/
def nodeGet (p mac : Nat) (s : State) : Option Nat × State :=
  match nodeFind p mac s with
  | some (i, _) => (some i, setNode i (fun n => { n with seen := s.tim.up }) s)
  | none =>
    match nodeNew false p mac s with
    | (none, s) => (none, ev 0x188 0x010C 1 s)
    | r => r

/-- The address is local to the pair (R228). -/
def isLocal (v : PairView) (mac : Nat) (s : State) : Bool :=
  (v.role != 2 && (proxyFind v.p mac s).isSome) ||
  (List.range 16).any (fun i =>
    let hi := rd 0x170 (0x184 + 8 * i) s
    bitOf hi 31 && fld hi 0 16 * 2 ^ 32 + (rd 0x170 (0x180 + 8 * i) s).toNat == mac) ||
  (mac != 0 && (List.range 256).any (fun j => tf tbSmac j 1 0 16 s * 2 ^ 32 + (tw tbSmac j 0 s).toNat == mac))

/-- R235: whether a sequence number is new, and the window it leaves; the counter event it causes, 0 for none. -/
def seqJudge (n : Node) (q : Nat) : Bool × Node × Nat :=
  if n.fresh then (true, { n with fresh := false, rec_ := q, hist := 1 }, 0)
  else
    let d := (q + 65536 - n.rec_) % 65536
    if d = 0 then (false, n, 0)
    else if d < 32768 then
      if 32 ≤ d then (true, { n with rec_ := q, hist := 1 }, 0x0103)
      else (true, { n with rec_ := q, hist := (n.hist * 2 ^ d) % 2 ^ 32 ||| 1 }, 0)
    else
      let back := 65536 - d
      if 32 ≤ back then (true, { n with rec_ := q, hist := 1 }, 0x0103)
      else if nbit n.hist back then (false, n, 0)
      else (true, { n with hist := n.hist ||| 2 ^ back }, 0x0102)

/-- The node judges a sequence number. -/
def nodeJudge (p i q : Nat) (s : State) : Bool × State :=
  match find? s.exp.nodes i with
  | none => (true, s)
  | some n =>
    let (new, n', e) := seqJudge n q
    let s := setNode i (fun _ => n') s
    let s := if e = 0 then s else ev 0x188 e 1 s
    (new, if e = 0x0102 then pairCount p 7 s else s)

/-! ## Trailers and tags (R230, R233, R240) -/

/-- The redundancy control trailer of a frame's data: LanId, LSDU size, sequence number. -/
def rctOf (d : Bytes) (p : Parse) : Option (Nat × Nat × Nat) :=
  let o := d.length - 6
  if d.length < 20 || beAt d (o + 4) 2 != 0x88FB then none
  else
    let w := beAt d (o + 2) 2
    if w % 4096 = (d.length - p.typeEnd) % 4096 then some (w / 4096, w % 4096, beAt d o 2) else none

/-- An RCT is appended after padding to 60 bytes (R230). -/
def addRct (d : Bytes) (typeEnd : Nat) (lanB : Bool) (q : Nat) : Bytes :=
  let d := d ++ zeros (60 - d.length)
  d ++ toBE 2 q ++ toBE 2 ((if lanB then 0xB else 0xA) * 4096 + (d.length + 6 - typeEnd) % 4096) ++ toBE 2 0x88FB

/-- An HSR tag is written before the type at `typeOff` (R230). -/
def addHsr (d : Bytes) (typeOff path q : Nat) : Bytes :=
  d.take typeOff ++ toBE 2 0x892F ++ toBE 2 (path % 16 * 4096 + (d.length - typeOff - 2 + 6) % 4096) ++ toBE 2 q ++ d.drop typeOff

/-- The HSR tag is removed: the six bytes from its type on, up to the encapsulated type. -/
def dropHsr (d : Bytes) (p : Parse) : Bytes := if p.hsr then d.take (p.typeEnd - 8) ++ d.drop (p.typeEnd - 2) else d

/-- The LSDU size of an HSR frame agrees with its length. -/
def hsrSizeOk (d : Bytes) (p : Parse) : Bool := p.hsrSize == (d.length - p.typeEnd + 6) % 4096

/-! ## PRP (R233, R236) -/

/-- UNM of a LAN, and the time of its last increment. -/
def Node.unm (n : Node) (b : Bool) : Nat := if b then n.unmB else n.unmA
def Node.at_ (n : Node) (b : Bool) : Nat := if b then n.tB else n.tA

/-- UNM of a LAN takes a value; `t` when it is an increment. -/
def Node.setUnm (n : Node) (b : Bool) (v : Nat) (t : Option Nat) : Node :=
  if b then { n with unmB := min 15 v, tB := t.getD n.tB } else { n with unmA := min 15 v, tA := t.getD n.tA }

/-- UNM of a LAN rises now. -/
def unmInc (i : Nat) (b : Bool) (s : State) : State := setNode i (fun n => n.setUnm b (n.unm b + 1) (some s.tim.up)) s
def unmDec (i : Nat) (b : Bool) (s : State) : State := setNode i (fun n => n.setUnm b (n.unm b - 1) none) s

/-- What a received PRP frame counts (R233): the trailer when it is valid. -/
def prpNote (v : PairView) (b : Bool) (d : Bytes) (p : Parse) (s : State) : State × Option Nat :=
  let s := pairCount v.p (if b then 3 else 2) s
  match rctOf d p with
  | none => (pairCount v.p 11 (ev 0x188 0x0107 1 s), none)
  | some (lan, _, q) =>
    let s := ev 0x188 0x0100 1 s
    let s := if lan = (if b then 0xA else 0xB) then pairCount v.p (if b then 5 else 4) (ev 0x188 0x0108 1 s) else s
    (s, some q)

/-- PRP at the judging cycle with the end known: whether the frame is a duplicate (R236). -/
def prpEndKnown (v : PairView) (b : Bool) (sa : Nat) (q : Option Nat) (s : State) : Bool × State :=
  match q with
  | none => (false, s)
  | some q =>
    let (i, s) := nodeGet v.p sa s
    match i with
    | none => (false, s)
    | some i =>
      let (new, s) := nodeJudge v.p i q s
      (!new, if new then unmInc i b s else s)

/-- A copy of the frame `id` waits for its end (R236). -/
def redAwait (id : Nat) (w : RedWait) (s : State) : State := setExp (fun e => { e with redWait := ins e.redWait id w }) s

/-- PRP at the judging cycle with the end not known: whether the copy is held (R236). A source without a NODE entry gets none here: its first
frame with a valid RCT creates it (R232). -/
def prpEarly (v : PairView) (b : Bool) (id sa : Nat) (mayHold : Bool) (s : State) : Bool × State :=
  match nodeFind v.p sa s with
  | none => (false, redAwait id { pair := v.p, lanB := b } s)
  | some (i, n) =>
    let s := setNode i (fun n => { n with seen := s.tim.up }) s
    let skew := rf 0x188 0x100 0 16 s * 1000 * 2 ^ 32
    if mayHold && decide (0 < n.unm (!b)) && decide (s.tim.up ≤ n.at_ (!b) + skew) then
      (true, redAwait id { pair := v.p, lanB := b, held := true } (pairCount v.p 9 (ev 0x188 0x0104 1 s)))
    else (false, redAwait id { pair := v.p, lanB := b, counted := true } (unmInc i b s))

/-- PRP at the end status of a copy not judged before, with the sequence number of its trailer: whether it is a duplicate (R236). A copy that
UNM does not count yet, because its source had no entry, is counted when it proves new. -/
def prpAtEnd (v : PairView) (w : RedWait) (sa : Nat) (q : Option Nat) (s : State) : Bool × State :=
  let uncount (s : State) : State := if w.counted then (match nodeFind v.p sa s with
    | some (i, _) => unmDec i w.lanB s
    | none => s) else s
  match q with
  | none => (false, uncount s)
  | some q =>
    match nodeGet v.p sa s with
    | (none, s) => (false, s)
    | (some i, s) =>
      let (new, s) := nodeJudge v.p i q s
      if !new then (true, uncount (unmDec i (!w.lanB) s))
      else if w.held then
        (false, pairCount v.p 10 (ev 0x188 0x0105 1 (setNode i (fun n => (n.setUnm (!w.lanB) 0 none).setUnm w.lanB 1 none) s)))
      else (false, if w.counted then s else unmInc i w.lanB s)

/-- A duplicate is discarded. -/
def dupDiscard (p : Nat) (s : State) : State := pairCount p 6 (ev 0x188 0x0101 1 s)

/-! ## HSR (R234) -/

/-- What becomes of a frame received on a ring port: nothing more to do, or copies to the interlink and to the other ring port. -/
inductive HsrFate where
  | plain
  | drop
  | route (interlink ring : Bool)
  deriving DecidableEq, Repr

/-- A frame whose LSDU size disagrees with its length is counted (R234). -/
def hsrSize (v : PairView) (d : Bytes) (p : Parse) (s : State) : State :=
  if hsrSizeOk d p then s else pairCount v.p 13 (ev 0x188 0x0116 1 s)

/-- The rows before the sequence judgement (R234); the length of a frame that has not ended is judged at its end. -/
def hsrStatic (v : PairView) (id : Nat) (f : Frm) (p : Parse) (s : State) : HsrFate × State :=
  if !p.hsr then
    if p.da / 16 = 0x0180C200000 then (.plain, s) else (.drop, pairCount v.p 11 (ev 0x188 0x0107 1 s))
  else
    let s := ev 0x188 0x0100 1 s
    let s := if !f.ended then redAwait id { pair := v.p, lanB := false, size := true } s
      else if f.bad then s else hsrSize v (dataOfFrm f) p s
    if p.type = 0x88F7 then (.plain, s)
    else if isLocal v p.sa s then (.drop, pairCount v.p 12 (ev 0x188 0x0109 1 s))
    else if nbit p.da 40 then (.route true true, s)
    else if isLocal v p.da s then (.route true false, s)
    else (.route false true, s)

/-- The sequence judgement of a ring frame: whether it is a duplicate (R234, R235). -/
def hsrJudge (v : PairView) (p : Parse) (s : State) : Bool × State :=
  let (i, s) := nodeGet v.p p.sa s
  match i with
  | none => (false, s)
  | some i =>
    let (new, s) := nodeJudge v.p i p.hsrSeq s
    if new then (false, s) else (true, dupDiscard v.p s)

/-! ## Sending on a pair (R232, R238) -/

/-- The pair's next sequence number is taken. -/
def pairTake (p : Nat) (s : State) : Nat × State :=
  let q := look 0 s.exp.pairSeq p
  (q, setExp (fun e => { e with pairSeq := put 0 e.pairSeq p ((q + 1) % 65536) }) s)

/-- A frame is sent into a pair from a source that is not the pair: its SA is learned as a proxy (R232). -/
def proxyLearn (v : PairView) (src sa : Nat) (s : State) : State :=
  if v.role = 2 || !v.learn || src = v.chA || src = v.chB then s
  else match proxyFind v.p sa s with
    | some (i, _) => setNode i (fun n => { n with seen := s.tim.up }) s
    | none => (nodeNew true v.p sa s).2

/-- In the DANH role a frame with a foreign SA is not sent (R234). -/
def danhForeign (v : PairView) (sa : Nat) (s : State) : Bool := v.role == 2 && !isLocal v sa s

/-- NODE_AGE: a dynamic entry silent for NODE_AGE seconds is removed (R232). -/
def nodeAge (i : Nat) (s : State) : State :=
  match find? s.exp.nodes i with
  | none => s
  | some n =>
    if !n.static && decide (n.seen + rf 0x188 0x100 16 16 s * 10 ^ 9 * 2 ^ 32 ≤ s.tim.up) then
      ev 0x188 0x010D 1 (setExp (fun e => { e with nodes := del e.nodes i }) s)
    else s

def execNodeAge (t i : Nat) (s : State) : Res := onLive (fun s => nodeAge i (advance t s)) s

/-! ## Bulk frames on a pair (R234-R236) -/

/-- The fabric destination port of a channel: the lowest local entry that names it. -/
def dportOfChan (c : Nat) (s : State) : Option Nat :=
  (s.regs.tbl.find? (fun e => e.1 / 2 ^ 30 == tbDst && e.1 % 64 == 0 && bitOf e.2 0 && bitOf e.2 1 && fld e.2 2 8 == c)).map
    (fun e => e.1 / 64 % 2 ^ 24)

/-- What the pair engine does with a bulk frame at its lookup: go on, discard, or redirect to the other ring port. -/
inductive BulkFate where
  | go
  | drop
  | redirect (d : Nat)
  deriving DecidableEq, Repr

/-- The pair engine at the bulk lookup (R233-R236). -/
def dupBulk (id : Nat) (f : Frm) (p : Parse) (d : Bytes) (s : State) : BulkFate × State :=
  match (if f.src < 256 then pairOf f.gen f.src s else none) with
  | none => (.go, s)
  | some (v, b) =>
    if v.role = 0 then
      if p.type = 0x88F7 || (f.ended && f.bad) then (.go, s)
      else if f.ended then
        let (s, q) := prpNote v b d p s
        let (dup, s) := prpEndKnown v b p.sa q s
        (.go, if dup then setExp (fun e => { e with bulkDup := Sys2Proof.Machine.add e.bulkDup id }) (dupDiscard v.p s) else s)
      else (.go, (prpEarly v b id p.sa false s).2)
    else
      let s := pairCount v.p (if b then 3 else 2) s
      let (fate, s) := hsrStatic v id f p s
      match fate with
      | .plain => (.go, s)
      | .drop => (.drop, s)
      | .route il ring =>
        let (dup, s) := hsrJudge v p s
        if dup then (.drop, s)
        else if il then (.go, s)
        else if ring then
          let s := ev 0x188 0x010A 1 s
          (match dportOfChan (if b then v.chA else v.chB) s with
           | some n => (.redirect n, s)
           | none => (.drop, s))
        else (.drop, s)

/-- The end status of a frame that the pair engine still awaits, with the data `d` received: the sequence number of a duplicate (R234,
R236). Data that ended bad hold no valid trailer. -/
def redEnd (id g : Nat) (d : Bytes) (bad : Bool) (s : State) : Option Nat × State :=
  match find? s.exp.redWait id with
  | none => (none, s)
  | some w =>
    let s := setExp (fun e => { e with redWait := del e.redWait id }) s
    match pairAt g w.pair s with
    | none => (none, s)
    | some v =>
      let p := parse (parseCfg g s) d
      if w.size then (none, if bad then s else hsrSize v d p s)
      else
        let (s, q) := if bad then (s, none) else prpNote v w.lanB d p s
        let (dup, s) := prpAtEnd v w p.sa q s
        (if dup then q else none, s)

/-! ## Removal of trailers and tags (R240) -/

/-- The data of a frame without the RCT or HSR tag that it was received with (R240). -/
def stripRed (f : Frm) (d : Bytes) (p : Parse) (s : State) : Bytes :=
  match (if f.src < 256 then pairOf f.gen f.src s else none) with
  | none => d
  | some (v, _) => if v.role = 0 then (if (rctOf d p).isSome then d.take (d.length - 6) else d) else dropHsr d p

/-- The bytes of a complete frame as it leaves toward the fabric (R240). -/
def stripped (f : Frm) (s : State) : Bytes :=
  let d := frameData f.bytes
  let d' := stripRed f d (parse (parseCfg f.gen s) d) s
  if d' = d then f.bytes else d' ++ fcsOf d'

/-- A bulk frame passes a ring with its tag unchanged: it arrived on the other channel of the same HSR pair (R234, R240). -/
def ringPass (c : Nat) (f : Frm) (p : Parse) (s : State) : Bool :=
  p.hsr && p.type != 0x88F7 && decide (f.src < 256) && (match pairOf f.gen f.src s, pairOf f.gen c s with
    | some (v, _), some (w, _) => v.p == w.p && v.role != 0 && f.src != c
    | _, _ => false)

/-- The pair that a bulk frame for a channel is sent into, with whether the channel is its CH_B (R239). -/
def pairInto (c : Nat) (f : Frm) (s : State) : Option (PairView × Bool) :=
  let p := parse (parseCfg f.gen s) (frameData f.bytes)
  if p.type = 0x88F7 || ringPass c f p s then none else pairOf f.gen c s

/-! ## Streams (R241-R244) -/

def stream (r : Nat) (s : State) : Stream := look {} s.exp.streams r

def setStream (r : Nat) (f : Stream → Stream) (s : State) : State :=
  setExp (fun e => { e with streams := put {} e.streams r (f (stream r s)) }) s

/-- HLEN and RESET_MS of a stream (page 0x18A). -/
def strHlen (r : Nat) (s : State) : Nat :=
  let h := tf tbStr r 0 4 7 s
  if 2 ≤ h && h ≤ 64 then h else 64
def strReset (r : Nat) (s : State) : Nat := max 1 (tf tbStr r 0 16 16 s) * 1000000 * nsU

/-- The R-TAG of a frame: its offset and sequence number (R243). -/
def rtagOf (d : Bytes) (p : Parse) : Option (Nat × Nat) :=
  if p.type = 0xF1C1 && decide (p.typeEnd + 6 ≤ d.length) then some (p.typeEnd - 2, beAt d (p.typeEnd + 2) 2) else none

/-- Recovery of a stream judges a frame: it passes or not (R244). -/
def strJudge (r q ref : Nat) (s : State) : Bool × State :=
  let x := stream r s
  let pass (y : Stream) (s : State) : Bool × State :=
    (true, ev 0x188 0x0110 1 (setStream r (fun _ => { y with tPass := ref, passed := satAdd y.passed 1 0xFFFFFFFF }) s))
  if x.takeAny || decide (x.tPass + strReset r s ≤ ref) then
    let s := if x.takeAny then s else ev 0x188 0x0113 1 s
    pass { x with rec_ := q, hist := 1, takeAny := false } s
  else
    let u := (q + 65536 - x.rec_) % 65536
    let n := strHlen r s
    let d : Int := if 32768 ≤ u then (u : Int) - 65536 else u
    if (n : Int) ≤ d || d ≤ -(n : Int) then
      (false, ev 0x188 0x0112 1 (setStream r (fun x => { x with rogue := satAdd x.rogue 1 0xFFFFFFFF }) s))
    else if d ≤ 0 then
      let b := (-d).toNat
      if nbit x.hist b then (false, ev 0x188 0x0111 1 (setStream r (fun x => { x with dup := satAdd x.dup 1 0xFFFFFFFF }) s))
      else
        let (_, s) := pass { x with hist := x.hist ||| 2 ^ b, ooo := satAdd x.ooo 1 0xFFFFFFFF } s
        (true, ev 0x188 0x0102 1 s)
    else pass { x with hist := ((x.hist * 2 ^ d.toNat) ||| 1) % 2 ^ n, rec_ := q } s

/-- GENERATE takes the stream's next number (R243). -/
def strTake (r : Nat) (s : State) : Nat × State :=
  let q := (stream r s).genNext
  (q, ev 0x188 0x0114 1 (setStream r (fun x => { x with genNext := (q + 1) % 65536 }) s))

/-- A commit of a stream entry's W0 (R244). -/
def strCommitted (r : Nat) (s : State) : State :=
  setStream r (fun x => { takeAny := true, rec_ := x.rec_, tPass := x.tPass }) s

/-! ## Registers and windows of pages 0x188-0x18A -/

def dupRo (p off : Nat) (s : State) : Option Word :=
  if p = 0x188 then
    if off = 0x104 then some (w32 s.exp.nodes.length)
    else if off = 0x108 then some (w32 s.exp.lateLast)
    else if 0x200 ≤ off && off < 0x600 && off % 16 = 4 then some (w32 (look 0 s.exp.pairSeq ((off - 0x200) / 16)))
    else none
  else none

/-- Words of a node entry. -/
def nodeWord (n : Node) (w : Nat) : Word :=
  match w with
  | 0 => w32 (1 + b2n n.proxy * 2 + b2n n.static * 4 + n.pair * 8 + n.mac / 2 ^ 32 * 65536)
  | 1 => w32 n.mac
  | 2 => w32 (n.rec_ + n.unmA * 2 ^ 16 + n.unmB * 2 ^ 20)
  | _ => w32 n.hist

/-- The windows of pages 0x188-0x18A; `m` for a marshal access. -/
def dupWin (p off : Nat) (m : Bool) (s : State) : Option WinRef :=
  if off < 0x4000 || 0x8000 ≤ off then none
  else if p = 0x188 then
    if off < 0x5000 then some ⟨0, off, 0, 0x4000, 0, 0, 0, true, false, false⟩ else none
  else if p = 0x189 then
    let i := rf 0x189 (if m then 0x104 else 0x100) 10 4 s * 1024 + (off - 0x4000) / 16
    let w := (off - 0x4000) % 16 / 4
    some ⟨tbNodeT, i, w, 0x4000, i, w, if w = 0 then 0xFFFF01FF else if w = 1 then 0xFFFFFFFF else 0, true, true, false⟩
  else if p = 0x18A then
    let i := rf 0x18A (if m then 0x104 else 0x100) 9 4 s * 512 + (off - 0x4000) / 32
    let w := (off - 0x4000) % 32 / 4
    some ⟨tbStr, i, w, 0x4000, i, w, if w = 0 then 0xFFFF07F7 else 0, true, true, false⟩
  else none

/-- The words of those windows that the engines own. -/
def dupWinRo (p off : Nat) (r : WinRef) (s : State) : Option Word :=
  if p = 0x188 then some (w32 (look 0 s.exp.pairCnt ((off - 0x4000) / 4)))
  else if r.tab = tbNodeT then some (match find? s.exp.nodes r.idx with
    | some n => nodeWord n r.word
    | none => 0)
  else if r.tab = tbStr then
    let x := stream r.idx s
    (match r.word with
     | 0 => some (tw tbStr r.idx 0 s ||| w32 (b2n x.takeAny * 8))
     | 1 => some (w32 (x.genNext + x.rec_ * 65536))
     | 2 => some (w32 x.hist)
     | 3 => some (w32 (x.hist / 2 ^ 32))
     | 4 => some (w32 x.passed)
     | 5 => some (w32 x.dup)
     | 6 => some (w32 x.rogue)
     | _ => some (w32 x.ooo))
  else none

/-- A node commit that must not take effect: a dynamic valid entry, or not a static PROXY (R232's window). -/
def nodeCommitBad (r : WinRef) (w0 : Word) (s : State) : Bool :=
  r.tab == tbNodeT && ((match find? s.exp.nodes r.idx with
      | some n => !n.static
      | none => false) || (bitOf w0 0 && (!bitOf w0 1 || !bitOf w0 2)))

/-- A node or stream entry has been committed. -/
def dupCommitted (r : WinRef) (s : State) : State :=
  if r.tab = tbStr then strCommitted r.idx s
  else if r.tab = tbNodeT then
    let w0 := tw tbNodeT r.idx 0 s
    if bitOf w0 0 then
      setExp (fun e => { e with nodes := ins e.nodes r.idx ⟨true, true, fld w0 3 6,
        fld w0 16 16 * 2 ^ 32 + (tw tbNodeT r.idx 1 s).toNat, true, 0, 0, 0, 0, 0, 0, s.tim.up⟩ }) s
    else setExp (fun e => { e with nodes := del e.nodes r.idx }) s
  else s

/-- Page check of page 0x188 (R231). -/
def dupCheck (s : State) : Option Nat :=
  let ps := (List.range 64).filterMap (fun p =>
    let w := rd 0x188 (0x200 + 16 * p) s
    if bitOf w 0 then some (p, fld w 1 2, fld w 3 8, fld w 11 8) else none)
  let sp (c : Nat) : Nat := chSpeed c s
  if ps.any (fun x => x.2.2.1 == x.2.2.2 || ps.any (fun y => y.1 != x.1 &&
      (y.2.2.1 == x.2.2.1 || y.2.2.1 == x.2.2.2 || y.2.2.2 == x.2.2.1 || y.2.2.2 == x.2.2.2))) then some 0x01
  else if ps.any (fun x => sp x.2.2.1 != sp x.2.2.2 || sp x.2.2.1 == 0 || decide (9 ≤ sp x.2.2.1) && decide (sp x.2.2.1 ≤ 12)) then some 0x02
  else if ps.any (fun x => x.2.1 == 3) then some 0x03
  else if s.fixed.ident.varH && ps.any (fun x => decide (127 < x.2.2.1) || decide (127 < x.2.2.2)) then some 0x04
  else if rf 0x188 0x100 0 16 s = 0 || rf 0x188 0x100 16 16 s = 0 then some 0x05
  else none

end Sys2Proof.Machine
end

