-- ==== Sys2Proof/Machine/Ftb.lean ====
section
/-! DEFINITION. The forwarding tables as lookups see them: hashed tables, longest-prefix match, MPLS, next hops, bridging and learning requests (R164-R188, R195). -/
namespace Sys2Proof.Machine

/-! ## Partitions (R193) -/

/-- `x` lies in [base, base + count). -/
def inRange (x base count : Nat) : Bool := decide (base ≤ x) && decide (x < base + count)

def partVrf (f x : Nat) (s : State) : Bool := inRange x (tf tbPart f 0 0 12 s) (tf tbPart f 0 12 13 s)
def partFid (f x : Nat) (s : State) : Bool := inRange x (tf tbPart f 1 0 12 s) (tf tbPart f 1 12 13 s)

/-- A result of 21 bits lies in the function's next-hop range, or names a group with the whole range (R193). -/
def partNh (f r : Nat) (s : State) : Bool :=
  if nbit r 20 then decide (1048576 ≤ tf tbPart f 3 0 21 s)
  else inRange (r % 2 ^ 20) (tf tbPart f 2 0 20 s) (tf tbPart f 3 0 21 s)

def flowSize (ktype : Nat) : Nat := if ktype = 3 then 2 else 1

def usedMac (f : Nat) (s : State) : Nat := (s.ftb.mac.filter (·.2.fn == f)).length
def usedFlow (f : Nat) (s : State) : Nat := ((s.ftb.flow.filter (·.2.fn == f)).map (fun e => flowSize e.2.ktype)).sum
def usedV4 (f : Nat) (s : State) : Nat := (s.ftb.v4.filter (·.2.fn == f)).length
def usedV6 (f : Nat) (s : State) : Nat := (s.ftb.v6.filter (·.2.fn == f)).length
def flowCount (s : State) : Nat := (s.ftb.flow.map (fun e => flowSize e.2.ktype)).sum

/-! ## Hashed tables (R176, R177) -/

/-- How a hashed table places its entries. -/
structure Hashed (α : Type) where
  /-- First slot of the entry's bucket in a half. -/
  bucket : Nat → α → Nat
  size : α → Nat
  /-- Slots of one half. -/
  half : Nat

/-- The slot is part of an entry. -/
def Hashed.occupied {α : Type} (h : Hashed α) (m : Tab α) (i : Nat) : Bool :=
  (find? m i).isSome || (decide (0 < i) && match find? m (i - 1) with
    | some e => h.size e == 2
    | none => false)

/-- A free way for `n` slots in the bucket that starts at `b`. -/
def Hashed.freeWay {α : Type} (h : Hashed α) (m : Tab α) (b n : Nat) : Option Nat :=
  ((if n = 2 then [b, b + 2] else [b, b + 1, b + 2, b + 3]).find? (fun i =>
    !h.occupied m i && (n == 1 || !h.occupied m (i + 1))))

/-- A move between an index at or below the cursor and one above it is forbidden while a walk is open (R190). -/
def guardOk (cur : Option Nat) (i j : Nat) : Bool :=
  match cur with
  | none => true
  | some c => decide (i ≤ c) == decide (j ≤ c)

/-- The resident of a slot moves to its alternate bucket, if need be after another move there; the table and the moves (R177). -/
def Hashed.relocate {α : Type} (h : Hashed α) (cur : Option Nat) : Nat → Nat → Tab α → Option (Tab α × Nat)
  | 0, _, _ => none
  | n + 1, i, m =>
    match find? m i with
    | none => some (m, 0)
    | some e =>
      let b := h.bucket (if i < h.half then 1 else 0) e
      match h.freeWay m b (h.size e) with
      | some j => if guardOk cur i j then some (del (ins m j e) i, 1) else none
      | none =>
        match [b, b + 1, b + 2, b + 3].find? (fun j => match find? m j with
            | some r => decide (h.size e ≤ h.size r) && guardOk cur i j
            | none => false) with
        | none => none
        | some j =>
          match h.relocate cur n j m with
          | none => none
          | some (m, k) => some (del (ins m j e) i, k + 1)

/-- The first resident of the two buckets that can be moved away. -/
def Hashed.open {α : Type} (h : Hashed α) (cur : Option Nat) (n : Nat) (m : Tab α) : List Nat → Option (Nat × Tab α × Nat)
  | [] => none
  | i :: r =>
    match find? m i with
    | none => h.open cur n m r
    | some e =>
      if h.size e < n then h.open cur n m r
      else match h.relocate cur 16 i m with
        | some (m, k) => some (i, m, k)
        | none => h.open cur n m r

/-- The place of a new entry: its slot, the table after displacements, and their number; none when the table is full. -/
def Hashed.place {α : Type} (h : Hashed α) (cur : Option Nat) (e : α) (m : Tab α) : Option (Nat × Tab α × Nat) :=
  let b0 := h.bucket 0 e
  let b1 := h.bucket 1 e
  let n := h.size e
  match h.freeWay m b0 n with
  | some i => some (i, m, 0)
  | none =>
    match h.freeWay m b1 n with
    | some i => some (i, m, 0)
    | none =>
      match h.open cur n m ((upto b0 4) ++ (upto b1 4)) with
      | some r => some r
      | none =>
        ((upto (2 * h.half) 1024).find? (fun i => !h.occupied m i &&
          (n == 1 || (!h.occupied m (i + 1) && decide (i + 1 < 2 * h.half + 1024))))).map (fun i => (i, m, 0))

/-- The cursor of a table's open walk. -/
def walkCursor (tab : Nat) (s : State) : Option Nat := (find? s.ftb.walks tab).map (·.cursor)

/-- The MAC table's hashing (R176). -/
def macHash (s : State) : Hashed MacE :=
  { bucket := fun h e => 2359296 * h + 4 * (crc32cSeed (rd 0x170 (0x104 + 4 * h) s).toNat (toBE 2 e.fid ++ toBE 6 e.mac) % 589824),
    size := fun _ => 1, half := 2359296 }

/-- The bytes of a flow key: R178's fields in its order, in network order (log entry 30). -/
def flowKeyBytes (ktype vrf : Nat) (key : List Nat) : Bytes :=
  let k (i : Nat) : Nat := key.getD i 0
  match ktype with
  | 1 => toBE 2 vrf ++ toBE 4 (k 0)
  | 2 => toBE 2 vrf ++ toBE 4 (k 0) ++ toBE 4 (k 1) ++ toBE 1 (k 3) ++ toBE 2 (k 2 % 65536) ++ toBE 2 (k 2 / 65536)
  | _ => toBE 2 vrf ++ (upto 0 8).flatMap (fun i => toBE 4 (k (3 - i % 4 + i / 4 * 4))) ++ toBE 1 (k 9) ++
      toBE 2 (k 8 % 65536) ++ toBE 2 (k 8 / 65536)

/-- The flow table's hashing (R176, R178). -/
def flowHash (s : State) : Hashed FlowE :=
  { bucket := fun h e =>
      1179648 * h + 4 * (crc32cSeed (rd 0x170 (0x10C + 4 * h) s).toNat (flowKeyBytes e.ktype e.vrf e.key) % 294912),
    size := fun e => flowSize e.ktype, half := 1179648 }

/-- The MAC entry of a key: its slot and the entry. -/
def macFind (fid mac : Nat) (s : State) : Option (Nat × MacE) := s.ftb.mac.find? (fun e => e.2.fid == fid && e.2.mac == mac)

/-- The flow entry of a key. -/
def flowFind (ktype vrf : Nat) (key : List Nat) (s : State) : Option (Nat × FlowE) :=
  s.ftb.flow.find? (fun e => e.2.ktype == ktype && e.2.vrf == vrf && e.2.key == key)

/-! ## Notify FIFO, deltas and table errors -/

/-- A record enters the notify FIFO, or is discarded when it is full (R185). -/
def notify (n : Notify) (s : State) : State :=
  if s.ftb.notify.length < 4096 then raise 0x170 11 (setFtb (fun f => { f with notify := f.notify ++ [n] }) s)
  else ev 0x170 0x011D 1 s

/-- A change that the epoch record carries (R186). -/
def delta (n : Notify) (s : State) : State := setFtb (fun f => { f with deltas := f.deltas ++ [n] }) s

/-! ## Longest-prefix match (R170-R173) -/

/-- Address bits of a family. -/
def famBits (v6 : Bool) : Nat := if v6 then 128 else 32

/-- The routes of a family. -/
def routes (v6 : Bool) (s : State) : Tab Route := if v6 then s.ftb.v6 else s.ftb.v4

/-- The first `n` bits of an address. -/
def addrPre (v6 : Bool) (addr n : Nat) : Nat := addr / 2 ^ (famBits v6 - n)

/-- Index bits at each trie stage (R170). -/
def trieBits (v6 : Bool) : List Nat :=
  if v6 then [8, 16, 24, 32, 40, 48, 56, 64, 80, 96, 112, 128] else [8, 16, 24, 32]

/-- The route covers the address in its VRF. -/
def Route.covers (r : Route) (v6 : Bool) (vrf addr : Nat) : Bool :=
  r.vrf == vrf && addrPre v6 r.addr r.len == addrPre v6 addr r.len

/-- The longest route that covers an address. -/
def lpmBest (v6 : Bool) (vrf addr : Nat) (s : State) : Option (Nat × Route) :=
  ((routes v6 s).filter (fun e => e.2.covers v6 vrf addr)).foldl (fun a e => match a with
    | none => some e
    | some b => if b.2.len < e.2.len then some e else some b) none

/-- A lookup reads the word of the stage indexed by `bits` bits: stage 0 always, a later one when a longer route lies below. -/
def trieReads (v6 : Bool) (vrf addr bits : Nat) (s : State) : Bool :=
  let prev := if bits ≤ 64 then bits - 8 else bits - 16
  decide (bits = 8) || (routes v6 s).any (fun e => e.2.vrf == vrf && decide (prev < e.2.len) &&
    addrPre v6 e.2.addr prev == addrPre v6 addr prev)

/-- A failed word lies on the lookup's path (R195). -/
def lpmBroken (v6 : Bool) (vrf addr : Nat) (s : State) : Bool :=
  s.ftb.badNodes.any (fun n => n.v6 == v6 && n.vrf == vrf && n.pre == addrPre v6 addr n.bits && trieReads v6 vrf addr n.bits s)

/-- The lookup as a frame sees it (R173, R195). -/
def lpm (v6 : Bool) (vrf addr : Nat) (s : State) : Option (Nat × Route) :=
  if lpmBroken v6 vrf addr s then none else lpmBest v6 vrf addr s

/-- The word of trie stage `st` on the address's path fails its parity (R195). Its index is that of the direct-indexed stage 0 (R170); where a later
node stands is open (log entry 234). -/
def lpmFail (v6 : Bool) (vrf addr st event : Nat) (s : State) : State :=
  match (trieBits v6)[st]? with
  | none => s
  | some bits =>
    if trieReads v6 vrf addr bits s then
      let n : BadNode := ⟨v6, bits, vrf, addrPre v6 addr bits⟩
      let (i, s) := if st = 0 then (vrf % 4096 * 256 + addrPre v6 addr 8, s) else drawFree s
      ftbPerr (if v6 then 3 else 2) (i % 2 ^ 23) event (setFtb (fun f => { f with badNodes := n :: f.badNodes.filter (fun m => !(m == n)) }) s)
    else s

/-! ## Rewrite (R179) -/

/-- A frame under rewrite: its bytes without FCS, the offset of its type field, its tags and labels, and its IP header. -/
structure Rw where
  b : Bytes
  typeOff : Nat
  tags : Nat
  labels : Nat
  ip : Option (Nat × Bool)

/-- The frame as parsed. -/
def rwOf (b : Bytes) (p : Parse) : Rw :=
  { b := b, typeOff := p.typeEnd - 2, tags := p.tags.length, labels := p.depth,
    ip := match p.ip4, p.ip6 with
      | some h, _ => some (h.off, false)
      | none, some h => some (h.off, true)
      | none, none => none }

/-- Bytes inserted at an offset, or removed. -/
def insertAt (b : Bytes) (off : Nat) (v : Bytes) : Bytes := b.take off ++ v ++ b.drop off
def removeAt (b : Bytes) (off n : Nat) : Bytes := b.take off ++ b.drop (off + n)

/-- TTL or hop limit less 1, with the IPv4 checksum updated incrementally (R174). -/
def Rw.decTtl (r : Rw) : Rw :=
  match r.ip with
  | none => r
  | some (o, true) => { r with b := splice r.b (o + 7) [BitVec.ofNat 8 (byteAt r.b (o + 7) + 255)] }
  | some (o, false) =>
    let m := beAt r.b (o + 8) 2
    let m' := (m + 65536 - 256) % 65536
    let t := (65535 - beAt r.b (o + 10) 2) + (65535 - m) + m'
    let t := t % 65536 + t / 65536
    let t := t % 65536 + t / 65536
    { r with b := splice (splice r.b (o + 8) (toBE 2 m')) (o + 10) (toBE 2 (65535 - t % 65536)) }

/-- The offset of the IP header moves by insertions and removals before it. -/
def Rw.shift (r : Rw) (b : Bytes) (typeOff tags labels : Nat) : Rw :=
  { b := b, typeOff := typeOff, tags := tags, labels := labels,
    ip := r.ip.map (fun e => (e.1 + b.length - r.b.length, e.2)) }

/-- The outer VLAN tag is stripped. -/
def Rw.strip (r : Rw) : Rw := if r.tags = 0 then r else r.shift (removeAt r.b 12 4) (r.typeOff - 4) (r.tags - 1) r.labels

/-- The outer VLAN tag is set or replaced. -/
def Rw.setTag (r : Rw) (pcp vid : Nat) : Rw :=
  let tci := toBE 2 (pcp % 8 * 8192 + vid % 4096)
  if r.tags = 0 then r.shift (insertAt r.b 12 (toBE 2 0x8100 ++ tci)) (r.typeOff + 4) 1 r.labels
  else { r with b := splice r.b 14 tci }

/-- One label is pushed. -/
def Rw.push (r : Rw) (w : Word) : Rw :=
  let e := toBE 4 (fld w 0 20 * 4096 + fld w 20 3 * 512 + (if r.labels = 0 then 256 else 0) + fld w 23 8)
  r.shift (insertAt (splice r.b r.typeOff (toBE 2 0x8847)) (r.typeOff + 2) e) r.typeOff r.tags (r.labels + 1)

/-- The top label is popped; with the last one the type becomes that of the packet below. -/
def Rw.pop (r : Rw) (nib : Nat) : Rw :=
  let r := r.shift (removeAt r.b (r.typeOff + 2) 4) r.typeOff r.tags (r.labels - 1)
  if r.labels = 0 && (nib = 4 || nib = 6) then { r with b := splice r.b r.typeOff (toBE 2 (if nib = 4 then 0x0800 else 0x86DD)) }
  else r

/-- The rewrite of next hop `n` (R179). -/
def Rw.nextHop (r : Rw) (n : Nat) (s : State) : Rw :=
  let w0 := tw tbNh n 0 s
  let w1 := tw tbNh n 1 s
  let r := if bitOf w0 4 then r.decTtl else r
  let da := fld (tw tbNh n 3 s) 0 16 * 2 ^ 32 + (tw tbNh n 2 s).toNat
  let j := fld w1 16 8
  let sa := tf tbSmac j 1 0 16 s * 2 ^ 32 + (tw tbSmac j 0 s).toNat
  let r := { r with b := splice r.b 0 (toBE 6 da ++ toBE 6 sa) }
  let r := if bitOf w0 8 then r.strip else r
  let r := if bitOf w0 7 then r.setTag (fld w1 12 3) (fld w1 0 12) else r
  let r := if 2 ≤ fld w0 5 2 then r.push (tw tbNh n 5 s) else r
  if 1 ≤ fld w0 5 2 then r.push (tw tbNh n 4 s) else r

/-! ## Results of the stages -/

/-- What the lookups work on: the state, the frame under rewrite, and the words that this lookup finds in error. -/
structure Lk where
  s : State
  r : Rw
  d : Decision
  src : Nat
  id : Nat
  bad : List Nat

abbrev LkRes := State × Rw × BDest

/-- The next-hop stage (R179). -/
def Lk.nh (k : Lk) (n : Nat) : LkRes :=
  let s := if has k.bad 5 then ftbPerr 5 n 0x011A (tfput tbNh n 0 3 1 1 k.s) else k.s
  let w0 := tw tbNh n 0 s
  if !bitOf w0 0 || bitOf w0 3 then (ev 0x170 0x010B 1 s, k.r, .drop)
  else
    let w6 := tw tbNh n 6 s
    let s := if bitOf w6 23 then frmCount k.id (fld w6 0 23) (cntRestart (has k.bad 9) (fld w6 0 23) s) else s
    match fld w0 1 2 with
    | 0 => (s, k.r.nextHop n s, .dport (fld w0 16 16))
    | 1 => (s, k.r.nextHop n s, .mcast (fld w0 16 16))
    | 2 => (s, k.r.nextHop n s, .punt (fld w0 16 9) 6)
    | _ => (ev 0x170 0x010B 1 s, k.r, .drop)

/-- The hash fields of an ECMP selection, in the order of HSEL (R180, log entry 30). -/
def ecmpBytes (hsel : Nat) (src : Nat) (p : Parse) : Bytes :=
  let v6 := p.ip4.isNone
  let h := match p.ip4 with | some h => h | none => p.ip6.getD ⟨0, 0, 0, 0, 0, 0, 0, 0, 0, 0⟩
  let n := if v6 then 16 else 4
  let f (i : Nat) (b : Bytes) : Bytes := if nbit hsel i then b else []
  f 0 (toBE n h.src) ++ f 1 (toBE n h.dst) ++ f 2 (toBE 1 h.proto) ++
  f 3 (toBE 2 (p.l4.getD (0, 0)).1 ++ toBE 2 (p.l4.getD (0, 0)).2) ++ f 4 (toBE 4 h.flow) ++ f 5 (toBE 4 p.top.label) ++
  f 6 (toBE 2 src) ++ f 7 (toBE 6 p.da ++ toBE 6 p.sa)

/-- The ECMP stage (R180). -/
def Lk.ecmp (k : Lk) (g : Nat) : LkRes :=
  let s := if has k.bad 6 then ftbPerr 6 g 0x011A (tfput tbGroup g 0 30 1 1 k.s) else k.s
  let w0 := tw tbGroup g 0 s
  if !bitOf w0 31 || bitOf w0 30 then (ev 0x170 0x010B 1 s, k.r, .drop)
  else
    let h := crc32cSeed (rd 0x170 0x114 s).toNat (ecmpBytes (tf tbGroup g 1 0 8 s) k.src k.d.parse)
    let m := (fld w0 0 20 + h % 65536 * (fld w0 20 8 + 1) / 65536) % 1048576
    let s := ev 0x170 0x010A 1 s
    let s := if has k.bad 7 then
        ftbPerr 7 m 0x011A (setFtb (fun f => { f with badMembers := Sys2Proof.Machine.add f.badMembers m }) s) else s
    if has s.ftb.badMembers m then (ev 0x170 0x010B 1 s, k.r, .drop)
    else { k with s := s }.nh (tf tbMember m 0 0 20 s)

/-- A result of 21 bits (R173). -/
def Lk.result (k : Lk) (r : Nat) : LkRes := if nbit r 20 then k.ecmp (r % 65536) else k.nh (r % 2 ^ 20)

/-- Punted to a queue when a FTB_CFG bit is set, dropped otherwise, counted either way. -/
def Lk.puntOr (k : Lk) (bit qLo event : Nat) : LkRes :=
  let s := ev 0x170 event 1 k.s
  (s, k.r, if rb 0x170 0x100 bit s then .punt (rf 0x170 0x100 qLo 9 s) (if bit = 9 then 4 else if bit = 19 then 3 else 5) else .drop)

/-- A COUNTER of data word W15; `bad` says that the pair fails its parity. -/
def w15Count (w : Nat) (bad : Bool) (id : Nat) (s : State) : State :=
  if nbit w 23 then frmCount id (w % 2 ^ 23) (cntRestart bad (w % 2 ^ 23) s) else s

/-- The LPM stage (R173, R174). -/
def Lk.route (k : Lk) (v6 : Bool) (vrf : Nat) : LkRes :=
  match (if v6 then k.d.parse.ip6 else k.d.parse.ip4) with
  | none => (ev 0x170 0x0103 1 k.s, k.r, .drop)
  | some h =>
    if h.ttl ≤ 1 then k.puntOr 9 0 0x010C
    else
      let s := (List.range 12).foldl (fun a i => if has k.bad ((if v6 then 48 else 32) + i) then lpmFail v6 vrf h.dst i 0x011A a else a) k.s
      match lpm v6 vrf h.dst s with
      | none => { k with s := s }.puntOr 19 10 0x0103
      | some (_, r) => { k with s := ev 0x170 (if v6 then 0x0102 else 0x0101) 1 s }.result (r.data.getD 0 0 % 2 ^ 21)

/-- The flow entry of a bulk lookup, HIT set, or its miss (R178, R195). -/
def Lk.flowHit (k : Lk) (ktype vrf : Nat) (key : List Nat) : State × Option FlowE :=
  match flowFind ktype vrf key k.s with
  | none => (ev 0x170 0x0109 1 k.s, none)
  | some (i, e) =>
    if has k.bad 1 then (ev 0x170 0x0109 1 (ftbPerr 1 i 0x011A (setFtb (fun f => { f with flow := del f.flow i }) k.s)), none)
    else
      let s := setFtb (fun f => { f with flow := ins f.flow i { e with hit := true, aged := false } }) (ev 0x170 0x0108 1 k.s)
      (w15Count (e.data.getD 3 0) (has k.bad 9) k.id s, some e)

/-- The outcome of a flow entry for a bulk frame (R178, R169). -/
def Lk.flowAct (k : Lk) (e : FlowE) : LkRes :=
  match nfld (e.data.getD 0 0) 21 3 with
  | 0 => k.result (e.data.getD 0 0 % 2 ^ 21)
  | 1 => (ev 0x140 0x0114 1 k.s, k.r, .drop)
  | 3 => (k.s, k.r, .punt (e.data.getD 2 0 % 512) 7)
  | _ => (k.s, k.r, .drop)

/-- The words of an IPv6 address, least significant first. -/
def words4 (a : Nat) : List Nat := (List.range 4).map (fun i => a / 2 ^ (32 * i) % 2 ^ 32)

/-- The flow key that FTB_SEL = 5 builds (R178). -/
def flowKeyOf (p : Parse) : Option (Nat × List Nat) :=
  let ports := (p.l4.getD (0, 0)).1 + (p.l4.getD (0, 0)).2 * 65536
  if p.depth != 0 then some (1, [if 2 ≤ p.depth then (p.mpls.getD 1 p.top).label else p.top.label, 0, 0, 0, 0, 0, 0, 0, 0, 0])
  else match p.ip4, p.ip6 with
    | some h, _ => some (2, [h.src, h.dst, ports, h.proto, 0, 0, 0, 0, 0, 0])
    | none, some h => some (3, words4 h.src ++ words4 h.dst ++ [ports, h.proto])
    | none, none => none

/-! ## MPLS (R175) -/

/-- The frame is dropped with an event. -/
def Lk.drop (k : Lk) (event : Nat) : LkRes := (if event = 0 then k.s else ev 0x170 event 1 k.s, k.r, .drop)

/-- The lookup by the nibble below the stack. -/
def Lk.byNibble (k : Lk) (vrf : Nat) : LkRes :=
  let k := { k with r := k.r.pop k.d.parse.nib }
  if k.d.parse.nib = 4 then k.route false vrf else if k.d.parse.nib = 6 then k.route true vrf else k.drop 0

/-- The MPLS stage. -/
def Lk.mpls (k : Lk) : LkRes :=
  let p := k.d.parse
  let l := p.top.label
  let k := { k with s := ev 0x170 0x0104 1 k.s }
  let entry := find? k.s.ftb.mpls l
  if l = 0 || l = 2 then k.byNibble k.d.act.vrf
  else if l = 13 then (match entry with
    | some e => (k.s, k.r, .punt (e.data.getD 2 0 % 512) 5)
    | none => (k.s, k.r, .punt 0 5))
  else if l < 16 then k.drop 0x0105
  else
    let (k, entry) := match entry with
      | some e => if has k.bad 4 then
          ({ k with s := ftbPerr 4 l 0x011A (setFtb (fun f => { f with mpls := del f.mpls l }) k.s) }, none) else (k, some e)
      | none => (k, none)
    match entry with
    | none => { k with s := ev 0x170 0x0105 1 k.s }.puntOr 20 10 0
    | some e =>
      let k := { k with s := w15Count (e.data.getD 3 0) (has k.bad 9) k.id k.s }
      let op := nfld (e.data.getD 0 0) 21 3
      let oam : LkRes := (k.s, k.r, .punt (e.data.getD 2 0 % 512) 5)
      if 5 ≤ op then k.drop 0
      else if op = 4 || (p.gach.isSome && (p.mpls.getD 1 ⟨0, 0, false, 0⟩).label == 13) then oam
      else if op ≤ 2 && p.top.ttl ≤ 1 then k.puntOr 9 0 0x010C
      else match op with
        | 0 =>
          let w := nfld (e.data.getD 1 0) 0 20 * 4096 + p.top.tc * 512 + b2n p.top.s * 256 + (p.top.ttl - 1)
          { k with r := { k.r with b := splice k.r.b (k.r.typeOff + 2) (toBE 4 w) } }.result (e.data.getD 0 0 % 2 ^ 21)
        | 1 => { k with r := k.r.pop p.nib }.result (e.data.getD 0 0 % 2 ^ 21)
        | 2 => k.byNibble (nfld (e.data.getD 1 0) 20 12)
        | _ =>
          let k := { k with r := k.r.pop p.nib }
          let (s, fe) := k.flowHit 1 (nfld (e.data.getD 1 0) 20 12)
            [(p.mpls.getD 1 ⟨0, 0, false, 0⟩).label, 0, 0, 0, 0, 0, 0, 0, 0, 0]
          match fe with
          | some fe => { k with s := s }.flowAct fe
          | none => (s, k.r, .drop)

/-! ## Bridging and learning (R182-R184) -/

/-- The frame's VID. -/
def bridgeVid (src : Nat) (p : Parse) (s : State) : Nat := if p.tags.isEmpty then tf tbPort src 0 16 12 s else p.outer.vid

/-- A request whose frame has ended enters the learn queue, is cancelled with a bad frame, or is lost (R183, R184). -/
def learnEnter (r : LearnReq) (bad : Bool) (s : State) : State :=
  if bad then ev 0x170 0x0111 1 s
  else if s.ftb.learnQ.length < 4096 then ev 0x170 0x010D 1 (setFtb (fun f => { f with learnQ := f.learnQ ++ [r] }) s)
  else raise 0x170 10 (ev 0x170 0x010E 1 (bump 0x170 0x130 0 32 1 s))

/-- A request waits while its frame has not ended (R183). -/
def learnQueue (r : LearnReq) (s : State) : State :=
  if !(frm r.frame s).ended then setFtb (fun f => { f with waiting := f.waiting ++ [r] }) s
  else learnEnter r (frm r.frame s).bad s

/-- LEARN_CANCEL and the end of the wait: the frame's end status has come (R183). -/
def learnFrameEnd (id : Nat) (bad : Bool) (s : State) : State :=
  let l := s.ftb.waiting.filter (·.frame == id)
  l.foldl (fun a r => learnEnter r bad a) (setFtb (fun f => { f with waiting := f.waiting.filter (fun r => !(r.frame == id)) }) s)

/-- The source lookup of a bridged frame (R183). -/
def learnRequest (id fid mode src sa : Nat) (badSa : Bool) (s : State) : State :=
  let w := tw tbPort src 0 s
  let dport := fld w 0 16
  if mode = 0 || mode = 3 || !bitOf w 28 || pairPassive s then s
  else match macFind fid sa s with
    | none => learnQueue ⟨id, false, fid, sa, dport, mode⟩ s
    | some (i, e) =>
      if badSa then ftbPerr 0 i 0x011A (setFtb (fun f => { f with mac := del f.mac i }) s)
      else if e.dest != dport then
        (if e.static then ev 0x170 0x0112 1 s else learnQueue ⟨id, true, fid, sa, dport, mode⟩ s)
      else setFtb (fun f => { f with mac := ins f.mac i { e with hit := true, aged := false } }) s

/-- The bridging stage (R182). -/
def Lk.bridge (k : Lk) : LkRes :=
  let p := k.d.parse
  let v := bridgeVid k.src p k.s
  let s := if has k.bad 8 then ftbPerr 8 v 0x011A (tfput tbVlan v 0 3 1 1 k.s) else k.s
  let w := tw tbVlan v 0 s
  if !bitOf w 0 || bitOf w 3 then (ev 0x170 0x010B 1 s, k.r, .drop)
  else
    let fid := fld w 4 12
    let s := learnRequest k.id fid (fld w 1 2) k.src p.sa (has k.bad 16) s
    let flood : BDest := .mcast (fld w 16 16)
    if nbit p.da 40 then (s, k.r, flood)
    else match macFind fid p.da s with
      | none => (ev 0x170 0x0107 1 s, k.r, flood)
      | some (i, e) =>
        if has k.bad 0 then
          (ev 0x170 0x0107 1 (ftbPerr 0 i 0x011A (setFtb (fun f => { f with mac := del f.mac i }) s)), k.r, flood)
        else
          let s := ev 0x170 0x0106 1 s
          let s := if rb 0x170 0x118 17 s then setFtb (fun f => { f with mac := ins f.mac i { e with hit := true, aged := false } }) s else s
          match e.dest / 2 ^ 20 % 4 with
          | 0 => (s, k.r, .dport (e.dest % 65536))
          | 1 => (s, k.r, .mcast (e.dest % 65536))
          | 2 => { k with s := s }.nh (e.dest % 2 ^ 20)
          | _ => (s, k.r, .drop)

/-- The DA of an IP frame matches a router MAC entry (R166); a VLAN word in error gives no FID (R195). -/
def routerMac (k : Lk) : Bool :=
  let p := k.d.parse
  let w := tw tbVlan (bridgeVid k.src p k.s) 0 k.s
  (List.range 16).any (fun i =>
    let hi := rd 0x170 (0x184 + 8 * i) k.s
    bitOf hi 31 && fld hi 0 16 * 2 ^ 32 + (rd 0x170 (0x180 + 8 * i) k.s).toNat == p.da &&
      (bitOf hi 28 || (bitOf w 0 && !bitOf w 3 && !has k.bad 8 && fld hi 16 12 == fld w 4 12)))

/-- The lookup by parse result (R165). -/
def Lk.byParse (k : Lk) : LkRes :=
  let p := k.d.parse
  if p.depth != 0 then k.mpls
  else if p.ip4.isSome && routerMac k then k.route false k.d.act.vrf
  else if p.ip6.isSome && routerMac k then k.route true k.d.act.vrf
  else k.bridge

/-- The lookups of a bulk frame under OP FORWARD (R165). -/
def Lk.forward (k : Lk) : LkRes :=
  match k.d.act.sel with
  | 1 => k.bridge
  | 2 => k.route false k.d.act.vrf
  | 3 => k.route true k.d.act.vrf
  | 4 => if k.d.parse.depth = 0 then k.drop 0x0103 else k.mpls
  | 5 =>
    (match flowKeyOf k.d.parse with
     | none => { k with s := ev 0x170 0x0109 1 k.s }.byParse
     | some (kt, key) =>
       let (s, e) := k.flowHit kt k.d.act.vrf key
       match e with
       | some e => { k with s := s }.flowAct e
       | none => { k with s := s }.byParse)
  | _ => k.byParse

/-- The destination of a bulk frame by its action (R165); redirects, PUNT and DROP start no lookup (R196). -/
def Lk.run (k : Lk) : LkRes :=
  let a := k.d.act
  let k := if a.op = 0 || a.op = 5 then { k with s := ev 0x170 0x0100 1 k.s } else k
  match a.op with
  | 0 => k.forward
  | 2 => (k.s, k.r, .punt a.puntQ 1)
  | 3 => (k.s, k.r, .dport (a.target % 65536))
  | 4 => (k.s, k.r, .mcast (a.target % 65536))
  | 5 => k.nh a.target
  | _ => (k.s, k.r, .drop)

/-- BULK_LOOKUP: the frame completes its lookups and rewrite (R167, R179, R195); `bad` names the words found in error. -/
def bulkLookup (id : Nat) (bad : List Nat) (s : State) : State :=
  if !has s.pac.lookups id then s
  else match find? s.pac.dec id with
    | none => s
    | some d =>
      let f := frm id s
      let s := { s with pac := { s.pac with lookups := rem s.pac.lookups id } }
      let data := dataOfFrm f
      let (fate, s) := dupBulk id f d.parse data s
      let k : Lk := ⟨s, rwOf data d.parse, d, f.src, id, bad⟩
      let (s, r, dest) := match fate with
        | .go => k.run
        | .drop => (s, k.r, .drop)
        | .redirect n => (s, k.r, .dport n)
      match dest with
      | .drop => discardToken id f.src d.seq d.pipe false s
      | _ =>
        let s := if r.b == data then s
          else setFrm id (fun f => if f.ended then { f with bytes := r.b ++ fcsOf r.b } else { f with bytes := r.b, rew := true }) s
        { s with pac := { s.pac with dec := ins s.pac.dec id { d with dest := some dest },
                                     comps := s.pac.comps ++ [⟨f.src, false, d.seq, some id, d.pipe⟩] } }

def execBulkLookup (t id : Nat) (bad : List Nat) (s : State) : Res := onService (fun s => bulkLookup id bad (advance t s)) s

end Sys2Proof.Machine
end

