-- ==== Sys2Proof/Machine/FtbCmd.lean ====
section
/-! DEFINITION. The engines of the forwarding tables: commands, walks, learning, ageing, flushes, scanning and counters (R184-R195). -/
namespace Sys2Proof.Machine

/-! ## Command slots (R189, R192) -/

/-- The function of a slot. -/
def slotFn (slot : Nat) : Nat := if slot < 64 then slot else 0

def ftbSlot (i : Nat) (s : State) : FtbSlot := look {} s.ftb.slots i

def setSlot (i : Nat) (x : FtbSlot) (s : State) : State := setFtb (fun f => { f with slots := put {} f.slots i x }) s

/-- Word `w` of the slot's descriptor. -/
def FtbSlot.w (x : FtbSlot) (w : Nat) : Nat := x.desc.getD w 0

def FtbSlot.op (x : FtbSlot) : Nat := x.w 0 % 256
def FtbSlot.table (x : FtbSlot) : Nat := nfld (x.w 0) 8 4

/-- The outcome of a command: CODE, index, key words R2-R11 and data words R12-R15. -/
structure CmdRes where
  code : Nat
  idx : Nat := 0
  key : List Nat := []
  data : List Nat := []

/-- `n` words of a list, zero where it is shorter. -/
def padTo (n : Nat) (l : List Nat) : List Nat := (List.range n).map (fun i => l.getD i 0)

/-- The command in a slot ends with its result (R192); a VF's slot answers on the VF's own vector (R463). -/
def slotDone (i : Nat) (r : CmdRes) (s : State) : State :=
  let x := ftbSlot i s
  let s := setSlot i { x with state := 3, code := r.code, result := r.idx :: (padTo 10 r.key ++ padTo 4 r.data) } s
  let s := ev 0x170 0x0116 1 s
  let s := if r.code = 3 || r.code = 4 || r.code = 5 then ev 0x170 0x0117 1 s else s
  if !nbit (x.w 0) 16 then s else if 1 ≤ i && i ≤ 63 then irqAfter (msiSend i 10) s else raise 0x170 12 s

/-- A descriptor is committed: QUEUED; an operation or a table that no engine serves ends at once with BAD_ARG (R190). -/
def ftbCommit (i : Nat) (words : List Nat) (s : State) : State :=
  let x : FtbSlot := { state := 1, code := 0, desc := padTo 16 words, result := [] }
  let s := setSlot i x s
  if 4 < x.table || x.op = 0 || 7 < x.op then slotDone i { code := 5 } s else s

/-- The slot that a table's engine serves next, round-robin (R189). -/
def nextSlot (tab : Nat) (s : State) : Option Nat :=
  let q := s.ftb.slots.filterMap (fun e => if e.2.state = 1 && e.2.table == tab then some e.1 else none)
  match q.find? (fun i => decide (look 128 s.ftb.rr tab < i)) with
  | some i => some i
  | none => q.head?

/-- A command of one table and operation is served when it is the engine's next (R189). -/
def serve (tab op : Nat) (f : Nat → FtbSlot → State → CmdRes × State) (s : State) : State :=
  match nextSlot tab s with
  | none => s
  | some i =>
    if (ftbSlot i s).op != op then s
    else
      let s := setFtb (fun g => { g with rr := put 128 g.rr tab i }) s
      let (r, s) := f i (ftbSlot i s) s
      slotDone i r s

/-! ## Arguments -/

/-- The VRF or FID, KTYPE and LEN of W1. -/
def FtbSlot.vrf (x : FtbSlot) : Nat := x.w 1 % 4096
def FtbSlot.ktype (x : FtbSlot) : Nat := nfld (x.w 1) 12 4
def FtbSlot.len (x : FtbSlot) : Nat := nfld (x.w 1) 16 8

/-- The MAC address of W2 and W3. -/
def FtbSlot.mac (x : FtbSlot) : Nat := x.w 2 + x.w 3 % 65536 * 2 ^ 32

/-- An address of a family in W2 and up. -/
def FtbSlot.addr (x : FtbSlot) (v6 : Bool) : Nat :=
  if v6 then x.w 2 + x.w 3 * 2 ^ 32 + x.w 4 * 2 ^ 64 + x.w 5 * 2 ^ 96 else x.w 2

/-- The flow key words in use by a type (R178). -/
def FtbSlot.flowKey (x : FtbSlot) : List Nat :=
  match x.ktype with
  | 1 => [x.w 2 % 2 ^ 20, 0, 0, 0, 0, 0, 0, 0, 0, 0]
  | 2 => [x.w 2, x.w 3, x.w 4, x.w 5 % 256, 0, 0, 0, 0, 0, 0]
  | _ => (upto 2 9).map x.w ++ [x.w 11 % 256]

def FtbSlot.data (x : FtbSlot) : List Nat :=
  [x.w 12 % 2 ^ 24, x.w 13, x.w 14 % 1024, x.w 15 % 2 ^ 24]

def keyOfAddr (v6 : Bool) (a : Nat) : List Nat := if v6 then words4 a else [a]

/-- The arguments of a command are bad (R192, code 0x05). -/
def badArg (x : FtbSlot) : Bool :=
  let lpmBad (v6 : Bool) : Bool := decide (famBits v6 < x.len) ||
    (decide (x.len ≤ famBits v6) && x.addr v6 % 2 ^ (famBits v6 - x.len) != 0)
  let dop := nfld (x.w 12) 21 3
  match x.table, x.op with
  | 0, 6 => true
  | 1, 1 => decide (x.ktype = 0) || decide (3 < x.ktype) || decide (4 ≤ dop)
  | 1, 2 => decide (x.ktype = 0) || decide (3 < x.ktype)
  | 1, 3 => decide (x.ktype = 0) || decide (3 < x.ktype)
  | 1, 5 => true
  | 1, 6 => true
  | 2, 1 => lpmBad false
  | 2, 2 => lpmBad false
  | 2, 3 => lpmBad false
  | 2, 5 => true
  | 3, 1 => lpmBad true
  | 3, 2 => lpmBad true
  | 3, 3 => lpmBad true
  | 3, 5 => true
  | 4, 1 => decide (6 ≤ dop)
  | 4, 5 => true
  | 4, 6 => true
  | _, _ => false

/-- An entry's data names a result outside the function's next-hop range (R193). -/
def resultOk (tab f : Nat) (data : List Nat) (s : State) : Bool :=
  let w := data.getD 0 0
  match tab with
  | 0 => nfld w 20 2 != 2 || partNh f (w % 2 ^ 20) s
  | 1 => nfld w 21 3 != 0 || partNh f (w % 2 ^ 21) s
  | 4 => (decide (2 ≤ nfld w 21 3) || partNh f (w % 2 ^ 21) s) &&
         (!(nfld w 21 3 == 2 || nfld w 21 3 == 3) || partVrf f (nfld (data.getD 1 0) 20 12) s)
  | _ => partNh f (w % 2 ^ 21) s

/-- The key of a command lies in its function's partition (R193). -/
def keyOk (x : FtbSlot) (f : Nat) (s : State) : Bool :=
  match x.table with
  | 0 => partFid f x.vrf s
  | 4 => true
  | _ => partVrf f x.vrf s

/-- Walk of a table ends. -/
def walkEnd (tab : Nat) (s : State) : State := setFtb (fun f => { f with walks := del f.walks tab }) s

/-! ## ADD, DELETE, SEARCH -/

/-- The lowest free route index of a family. -/
def freeRoute (m : Tab Route) : Nat := ((List.range (m.length + 1)).find? (fun i => (find? m i).isNone)).getD m.length

/-- The part of the family is full (R164, R171). -/
def routeFull (v6 : Bool) (len : Nat) (s : State) : Bool :=
  if v6 then
    (if len ≤ 64 then decide (3145728 ≤ (s.ftb.v6.filter (fun e => decide (e.2.len ≤ 64))).length)
     else decide (262144 ≤ (s.ftb.v6.filter (fun e => decide (64 < e.2.len))).length))
  else decide (6291456 ≤ s.ftb.v4.length)

def setRoutes (v6 : Bool) (f : Tab Route → Tab Route) (s : State) : State :=
  setFtb (fun g => if v6 then { g with v6 := f g.v6 } else { g with v4 := f g.v4 }) s

/-- The route of an exact prefix. -/
def routeFind (v6 : Bool) (vrf len addr : Nat) (s : State) : Option (Nat × Route) :=
  (routes v6 s).find? (fun e => e.2.vrf == vrf && e.2.len == len && e.2.addr == addr)

/-- The events of a hashed insert (R196). -/
def placeNote (i k ovf : Nat) (s : State) : State :=
  let s := ev 0x170 0x0119 k s
  if ovf ≤ i then ev 0x170 0x0118 1 s else s

/-- A MAC entry is inserted; its slot, or none when the table is full (R177). -/
def macInsert (e : MacE) (s : State) : Option (Nat × State) :=
  if 4194304 ≤ s.ftb.mac.length then none
  else match (macHash s).place (walkCursor 0 s) e s.ftb.mac with
    | none => none
    | some (i, m, k) => some (i, placeNote i k 4718592 (setFtb (fun f => { f with mac := ins m i e }) s))

def flowInsert (e : FlowE) (s : State) : Option (Nat × State) :=
  if 2097152 < flowCount s + flowSize e.ktype then none
  else match (flowHash s).place (walkCursor 1 s) e s.ftb.flow with
    | none => none
    | some (i, m, k) => some (i, placeNote i k 2359296 (setFtb (fun f => { f with flow := ins m i e }) s))

/-- The index of the command's key in its table, when an entry is present. -/
def cmdFind (x : FtbSlot) (s : State) : Option Nat :=
  match x.table with
  | 0 => (macFind x.vrf x.mac s).map (·.1)
  | 1 => (flowFind x.ktype x.vrf x.flowKey s).map (·.1)
  | 2 => (routeFind false x.vrf x.len (x.addr false) s).map (·.1)
  | 3 => (routeFind true x.vrf x.len (x.addr true) s).map (·.1)
  | _ => (find? s.ftb.mpls (x.w 2 % 2 ^ 20)).map (fun _ => x.w 2 % 2 ^ 20)

/-- The result words of the entry at an index (R192). -/
def entryRes (tab i : Nat) (s : State) : CmdRes :=
  match tab with
  | 0 => (match find? s.ftb.mac i with
    | some e => ⟨0, i, [e.mac % 2 ^ 32, e.mac / 2 ^ 32],
        [e.dest, 0, b2n e.hit * 2 ^ 29 + b2n e.aged * 2 ^ 30 + b2n e.static * 2 ^ 31, 0]⟩
    | none => ⟨1, 0, [], []⟩)
  | 1 => (match find? s.ftb.flow i with
    | some e => ⟨0, i, e.key, [e.data.getD 0 0, e.data.getD 1 0, e.data.getD 2 0 + b2n e.hit * 2 ^ 29 + b2n e.aged * 2 ^ 30, e.data.getD 3 0]⟩
    | none => ⟨1, 0, [], []⟩)
  | 2 => (match find? s.ftb.v4 i with
    | some e => ⟨0, i, [e.addr], e.data⟩
    | none => ⟨1, 0, [], []⟩)
  | 3 => (match find? s.ftb.v6 i with
    | some e => ⟨0, i, words4 e.addr, e.data⟩
    | none => ⟨1, 0, [], []⟩)
  | _ => (match find? s.ftb.mpls i with
    | some e => ⟨0, i, [i], e.data⟩
    | none => ⟨1, 0, [], []⟩)

/-- The entry at an index is removed; `op` is the operation that the epoch record carries for a MAC entry (R401). -/
def entryRemove (op tab i : Nat) (s : State) : State :=
  match tab with
  | 0 => (match find? s.ftb.mac i with
    | some e => delta ⟨op, e.fid, e.mac, e.dest⟩ (setFtb (fun f => { f with mac := del f.mac i }) s)
    | none => s)
  | 1 => setFtb (fun f => { f with flow := del f.flow i }) s
  | 2 => setFtb (fun f => { f with v4 := del f.v4 i }) s
  | 3 => setFtb (fun f => { f with v6 := del f.v6 i }) s
  | _ => setFtb (fun f => { f with mpls := del f.mpls i }) s

def entryDel (tab i : Nat) (s : State) : State := entryRemove 4 tab i s

/-- The entry read failed its parity: it is invalidated and reported, and the command ends with PARITY (R192, R195). -/
def cmdParity (tab i : Nat) (s : State) : CmdRes × State :=
  match tab with
  | 2 => (⟨8, i, [], []⟩, ftbPerr 11 i 0x011A (entryDel tab i s))
  | 3 => (⟨8, i, [], []⟩, ftbPerr 11 i 0x011A (entryDel tab i s))
  | _ => (⟨8, i, [], []⟩, ftbPerr tab i 0x011A (entryDel tab i s))

/-- An ADD would raise the function's used count above its quota (R193). -/
def overQuota (x : FtbSlot) (f : Nat) (s : State) : Bool :=
  match x.table with
  | 0 => decide (tf tbPart f 4 0 23 s ≤ usedMac f s)
  | 1 => decide (tf tbPart f 5 0 22 s < usedFlow f s + flowSize x.ktype)
  | 2 => decide (tf tbPart f 6 0 23 s ≤ usedV4 f s)
  | 3 => decide (tf tbPart f 7 0 22 s ≤ usedV6 f s)
  | _ => false

/-- A present entry is replaced in place (R190); HIT and AGED of an entry that a command writes are 0, as those of a
learned entry are in the worked example of R188 (DESIGN CHOICE, log entry 24). -/
def cmdReplace (x : FtbSlot) (i : Nat) (s : State) : State :=
  match x.table with
  | 0 => setFtb (fun f => match find? f.mac i with
      | some e => { f with mac := ins f.mac i { e with dest := x.w 12 % 2 ^ 22, static := nbit (x.w 0) 13, hit := false, aged := false } }
      | none => f) s
  | 1 => setFtb (fun f => match find? f.flow i with
      | some e => { f with flow := ins f.flow i { e with data := x.data, hit := false, aged := false } }
      | none => f) s
  | 4 => setFtb (fun f => match find? f.mpls i with
      | some e => { f with mpls := ins f.mpls i { e with data := x.data } }
      | none => f) s
  | t => setRoutes (t == 3) (fun m => match find? m i with
      | some e => ins m i { e with data := x.data }
      | none => m) s

/-- The table or the part of the family holds its capacity (R164, R171, R177). -/
def tableFull (x : FtbSlot) (s : State) : Bool :=
  match x.table with
  | 0 => decide (4194304 ≤ s.ftb.mac.length)
  | 1 => decide (2097152 < flowCount s + flowSize x.ktype)
  | 2 => routeFull false x.len s
  | 3 => routeFull true x.len s
  | _ => false

/-- A new entry is inserted; its index, or none when the table is full. -/
def cmdInsert (x : FtbSlot) (f : Nat) (s : State) : Option (Nat × State) :=
  match x.table with
  | 0 => macInsert ⟨x.vrf, x.mac, x.w 12 % 2 ^ 22, nbit (x.w 0) 13, false, false, f⟩ s
  | 1 => flowInsert ⟨x.ktype, x.vrf, x.flowKey, x.data, false, false, f⟩ s
  | 4 =>
    let l := x.w 2 % 2 ^ 20
    some (l, setFtb (fun g => { g with mpls := ins g.mpls l ⟨x.data, f⟩ }) s)
  | t =>
    let v6 := t == 3
    if routeFull v6 x.len s then none
    else
      let i := freeRoute (routes v6 s)
      some (i, setRoutes v6 (fun m => ins m i ⟨x.vrf, x.len, x.addr v6, x.data, f⟩) s)

/-- ADD (R190-R193). -/
def cmdAdd (slot : Nat) (x : FtbSlot) (bad : Bool) (s : State) : CmdRes × State :=
  let f := slotFn slot
  if badArg x then (⟨5, 0, [], []⟩, s)
  else if !keyOk x f s || !resultOk x.table f x.data s then (⟨4, 0, [], []⟩, s)
  else match cmdFind x s with
    | some i =>
      if bad then cmdParity x.table i s
      else if nbit (x.w 0) 12 then
        let s := cmdReplace x i s
        (entryRes x.table i s, s)
      else (⟨2, i, [], []⟩, s)
    | none =>
      if tableFull x s then (⟨3, 0, [], []⟩, s)
      else if overQuota x f s then (⟨4, 0, [], []⟩, s)
      else match cmdInsert x f s with
        | none => (⟨3, 0, [], []⟩, s)
        | some (i, s) => (entryRes x.table i s, s)

/-- DELETE (R190). -/
def cmdDelete (slot : Nat) (x : FtbSlot) (bad : Bool) (s : State) : CmdRes × State :=
  let f := slotFn slot
  if badArg x then (⟨5, 0, [], []⟩, s)
  else if !keyOk x f s then (⟨4, 0, [], []⟩, s)
  else match cmdFind x s with
    | none => (⟨1, 0, [], []⟩, s)
    | some i => if bad then cmdParity x.table i s else (entryRes x.table i s, entryDel x.table i s)

/-- SEARCH (R190). -/
def cmdSearch (slot : Nat) (x : FtbSlot) (bad : Bool) (s : State) : CmdRes × State :=
  let f := slotFn slot
  if badArg x then (⟨5, 0, [], []⟩, s)
  else if !keyOk x f s then (⟨4, 0, [], []⟩, s)
  else match cmdFind x s with
    | none => (⟨1, 0, [], []⟩, s)
    | some i => if bad then cmdParity x.table i s else (entryRes x.table i s, s)

/-! ## NEXT and walks (R190) -/

/-- Indices of a table's entries inside a function's partition, ascending. -/
def partIdx (tab f : Nat) (s : State) : List Nat :=
  match tab with
  | 0 => (s.ftb.mac.filter (fun e => partFid f e.2.fid s)).map (·.1)
  | 1 => (s.ftb.flow.filter (fun e => partVrf f e.2.vrf s)).map (·.1)
  | 2 => (s.ftb.v4.filter (fun e => partVrf f e.2.vrf s)).map (·.1)
  | 3 => (s.ftb.v6.filter (fun e => partVrf f e.2.vrf s)).map (·.1)
  | _ => (s.ftb.mpls.filter (fun e => resultOk 4 f e.2.data s)).map (·.1)

/-- NEXT: the first entry at or above W2 in the partition, with the slot's walk open; END closes it. -/
def cmdNext (slot : Nat) (x : FtbSlot) (bad : Bool) (s : State) : CmdRes × State :=
  let busy := match find? s.ftb.walks x.table with
    | some w => w.slot != slot
    | none => false
  if busy then (⟨7, 0, [], []⟩, s)
  else match (partIdx x.table (slotFn slot) s).find? (fun i => decide (x.w 2 % 2 ^ 23 ≤ i)) with
    | none => (⟨6, 0, [], []⟩, walkEnd x.table s)
    | some i =>
      let s := setFtb (fun f => { f with walks := ins f.walks x.table ⟨slot, i, s.tim.up⟩ }) s
      if bad then cmdParity x.table i s else (entryRes x.table i s, s)

/-- WALK_CLOSE: the slot's own walk ends. -/
def cmdWalkClose (slot : Nat) (x : FtbSlot) (s : State) : CmdRes × State :=
  match find? s.ftb.walks x.table with
  | some w => (⟨0, 0, [], []⟩, if w.slot = slot then walkEnd x.table s else s)
  | none => (⟨0, 0, [], []⟩, s)

/-! ## FLUSH and LPM_LOOKUP -/

/-- A MAC entry is flushed: its record, its event. -/
def flushOne (note : Bool) (i : Nat) (e : MacE) (s : State) : State :=
  let s := ev 0x170 0x0115 1 (entryDel 0 i s)
  if note then notify ⟨4, e.fid, e.mac, e.dest⟩ s else s

/-- The entries with a destination are flushed (R190). -/
def flushDest (dest : Nat) (fid : Option Nat) (static note : Bool) (s : State) : State :=
  (s.ftb.mac.filter (fun e => find? s.ftb.mac e.1 == some e.2 && e.2.dest == dest && (static || !e.2.static) && (match fid with
      | some f => e.2.fid == f
      | none => true))).foldl (fun a e => flushOne note e.1 e.2 a) s

/-- FLUSH. -/
def cmdFlush (slot : Nat) (x : FtbSlot) (s : State) : CmdRes × State :=
  let f := slotFn slot
  let w0 := x.w 0
  if badArg x then (⟨5, 0, [], []⟩, s)
  else if nbit w0 15 && !partFid f x.vrf s then (⟨4, 0, [], []⟩, s)
  else if !resultOk 0 f [x.w 12 % 2 ^ 22] s then (⟨4, 0, [], []⟩, s)
  else (⟨0, 0, [], []⟩, flushDest (x.w 12 % 2 ^ 22) (if nbit w0 15 then some x.vrf else none) (nbit w0 14) (nbit w0 17) s)

/-- LPM_LOOKUP: as a frame would see it; `bad` is the trie stage whose word this lookup finds in error (R190, R192, R195). -/
def cmdLpm (slot : Nat) (x : FtbSlot) (bad : Option Nat) (s : State) : CmdRes × State :=
  let v6 := x.table == 3
  let s := if badArg x || !partVrf (slotFn slot) x.vrf s then s else match bad with
    | some st => lpmFail v6 x.vrf (x.addr v6) st 0x011A s
    | none => s
  if badArg x then (⟨5, 0, [], []⟩, s)
  else if !partVrf (slotFn slot) x.vrf s then (⟨4, 0, [], []⟩, s)
  else if lpmBroken v6 x.vrf (x.addr v6) s then (⟨8, 0, [], []⟩, s)
  else match lpm v6 x.vrf (x.addr v6) s with
    | none => (⟨1, 0, [], []⟩, s)
    | some (i, _) => (entryRes x.table i s, s)

def execFtbAdd (t tab : Nat) (bad : Bool) (s : State) : Res :=
  onLive (fun s => serve tab 1 (fun i x s => cmdAdd i x bad s) (advance t s)) s
def execFtbDelete (t tab : Nat) (bad : Bool) (s : State) : Res :=
  onLive (fun s => serve tab 2 (fun i x s => cmdDelete i x bad s) (advance t s)) s
def execFtbSearch (t tab : Nat) (bad : Bool) (s : State) : Res :=
  onLive (fun s => serve tab 3 (fun i x s => cmdSearch i x bad s) (advance t s)) s
def execFtbNext (t tab : Nat) (bad : Bool) (s : State) : Res :=
  onLive (fun s => serve tab 4 (fun i x s => cmdNext i x bad s) (advance t s)) s
def execFtbFlush (t tab : Nat) (s : State) : Res :=
  onLive (fun s => serve tab 5 (fun i x s => cmdFlush i x s) (advance t s)) s
def execLpmLookup (t tab : Nat) (bad : Option Nat) (s : State) : Res :=
  onLive (fun s => serve tab 6 (fun i x s => cmdLpm i x bad s) (advance t s)) s
def execWalkClose (t tab : Nat) (s : State) : Res :=
  onLive (fun s => serve tab 7 (fun i x s => cmdWalkClose i x s) (advance t s)) s

/-- WALK_TIMEOUT: one second without a NEXT ends the walk (R190). -/
def walkTimeout (tab : Nat) (s : State) : State :=
  match find? s.ftb.walks tab with
  | some w => if w.last + 10 ^ 9 * 2 ^ 32 ≤ s.tim.up then walkEnd tab s else s
  | none => s

def execWalkTimeout (t tab : Nat) (s : State) : Res := onLive (fun s => walkTimeout tab (advance t s)) s

/-! ## Learning (R184) -/

/-- The function that a learn is charged to: the lowest VF whose FID range holds the FID, else function 0 (R184). -/
def learnFn (fid : Nat) (s : State) : Option Nat := ((upto 1 63) ++ [0]).find? (fun f => partFid f fid s)

/-- LEARN_COMMIT: the head of the learn queue (R184). -/
def learnCommit (s : State) : State :=
  match s.ftb.learnQ with
  | [] => s
  | r :: q =>
    let s := setFtb (fun f => { f with learnQ := q }) s
    if pairPassive s then s
    else match macFind r.fid r.mac s with
      | some (i, e) =>
        if !r.move || e.static || e.dest == r.dport then s
        else if r.mode = 2 then notify ⟨5, r.fid, r.mac, r.dport⟩ s
        else
          let s := setFtb (fun f => { f with mac := ins f.mac i { e with dest := r.dport } }) s
          notify ⟨2, r.fid, r.mac, r.dport⟩ (ev 0x170 0x0110 1 (delta ⟨2, r.fid, r.mac, r.dport⟩ s))
      | none =>
        if r.move then s
        else if r.mode = 2 then notify ⟨5, r.fid, r.mac, r.dport⟩ s
        else match learnFn r.fid s with
          | none => ev 0x170 0x010E 1 s
          | some f =>
            if tf tbPart f 4 0 23 s ≤ usedMac f s then ev 0x170 0x010E 1 s
            else match macInsert ⟨r.fid, r.mac, r.dport, false, false, false, f⟩ s with
              | none => ev 0x170 0x010E 1 s
              | some (_, s) => notify ⟨1, r.fid, r.mac, r.dport⟩ (ev 0x170 0x010F 1 (delta ⟨1, r.fid, r.mac, r.dport⟩ s))

def execLearnCommit (t : Nat) (s : State) : Res := onLive (fun s => learnCommit (advance t s)) s

/-- The head of the notify FIFO is removed; nothing when it is empty (R185, FTB_NTF_POP). -/
def ntfPop (s : State) : State := setFtb (fun f => { f with notify := f.notify.drop 1 }) s

/-! ## Ageing (R187, R188) -/

/-- One visit to a dynamic entry: HIT, AGED and whether it is removed, with a hit in the same cycle resolved in favour of the hit. -/
def ageOne (hit aged now : Bool) : Bool × Bool × Bool :=
  if now then (true, false, false)
  else if hit then (false, false, false)
  else if !aged then (false, true, false)
  else (false, true, true)

/-- The sweeper visits the next MAC slot (R187). -/
def ageMac (now : Bool) (s : State) : State :=
  let i := s.ftb.ageNext
  let s := setFtb (fun f => { f with ageNext := (i + 1) % 4719616 }) s
  match find? s.ftb.mac i with
  | none => s
  | some e =>
    if e.static then s
    else
      let (h, a, rm) := ageOne e.hit e.aged now
      if rm then notify ⟨3, e.fid, e.mac, e.dest⟩ (ev 0x170 0x0113 1 (entryRemove 3 0 i s))
      else
        let s := if now && !e.hit && e.aged then ev 0x170 0x0114 1 s else s
        setFtb (fun f => { f with mac := ins f.mac i { e with hit := h, aged := a } }) s

/-- The sweeper visits the next flow slot (R187). What a flow entry's AGED record holds is log entry 235. -/
def ageFlow (now : Bool) (s : State) : State :=
  let i := s.ftb.flowNext
  let s := setFtb (fun f => { f with flowNext := (i + 1) % 2360320 }) s
  match find? s.ftb.flow i with
  | none => s
  | some e =>
    if !nbit (e.data.getD 2 0) 9 then s
    else
      let (h, a, rm) := ageOne e.hit e.aged now
      if rm then notify ⟨3, e.vrf, (e.key.getD 0 0 + e.key.getD 1 0 * 2 ^ 32) % 2 ^ 48, e.data.getD 0 0 % 2 ^ 22⟩ (ev 0x170 0x0113 1 (entryDel 1 i s))
      else
        let s := if now && !e.hit && e.aged then ev 0x170 0x0114 1 s else s
        setFtb (fun f => { f with flow := ins f.flow i { e with hit := h, aged := a } }) s

/-- AGE_VISIT: the next slot of the MAC or the flow sweep, with a hit in the same cycle or none. -/
def ageVisit (flow now : Bool) (s : State) : State :=
  if rf 0x170 0x118 0 16 s = 0 || pairPassive s then s
  else if flow then (if rb 0x170 0x118 16 s then ageFlow now s else s) else ageMac now s

def execAgeVisit (t : Nat) (flow now : Bool) (s : State) : Res := onLive (fun s => ageVisit flow now (advance t s)) s

/-! ## Port-down flush, rebuild, scan (R190, R195) -/

/-- PORT_DOWN_FLUSH: the waiting flush of the lowest source runs. -/
def portDownFlush (s : State) : State :=
  match s.ftb.downFlush with
  | [] => s
  | c :: r => flushDest (tf tbPort c 0 0 16 s) none false false (setFtb (fun f => { f with downFlush := r }) s)

def execPortDownFlush (t : Nat) (s : State) : Res := onLive (fun s => portDownFlush (advance t s)) s

/-- NODE_REBUILD: the oldest failed node is rebuilt from the route store (R195). -/
def nodeRebuild (s : State) : State :=
  if s.ftb.badNodes.isEmpty then s
  else ev 0x170 0x011C 1 (setFtb (fun f => { f with badNodes := f.badNodes.dropLast }) s)

def execNodeRebuild (t : Nat) (s : State) : Res := onLive (fun s => nodeRebuild (advance t s)) s

/-- The scanner reads a word and finds 0, 1 or 2 bad bits; R195's outcome of its table. For an LPM node `idx` is the trie
stage of the route in `route`. -/
def tableScan (tab idx route bad : Nat) (s : State) : State :=
  if !rb 0x170 0x120 0 s || bad = 0 then s
  else match tab with
    | 0 => ftbPerr 0 idx 0x011B (entryDel 0 idx s)
    | 1 => ftbPerr 1 idx 0x011B (entryDel 1 idx s)
    | 2 => (match find? s.ftb.v4 route with
      | some r => lpmFail false r.vrf r.addr idx 0x011B s
      | none => s)
    | 3 => (match find? s.ftb.v6 route with
      | some r => lpmFail true r.vrf r.addr idx 0x011B s
      | none => s)
    | 4 => ftbPerr 4 idx 0x011B (entryDel 4 idx s)
    | 5 => ftbPerr 5 idx 0x011B (tfput tbNh (idx % 2 ^ 20) 0 3 1 1 s)
    | 6 => ftbPerr 6 idx 0x011B (tfput tbGroup (idx % 65536) 0 30 1 1 s)
    | 7 => ftbPerr 7 idx 0x011B (setFtb (fun f => { f with badMembers := Sys2Proof.Machine.add f.badMembers (idx % 2 ^ 20) }) s)
    | 8 => ftbPerr 8 idx 0x011B (tfput tbVlan (idx % 4096) 0 3 1 1 s)
    | 9 => ftbPerr 9 idx 0x011B (setFtb (fun f => { f with cnt := del f.cnt idx }) s)
    | 11 =>
      if bad = 1 then s
      else ftbPerr 11 route 0x011B (entryDel (if idx = 0 then 2 else 3) route s)
    | _ => s

def execTableScan (t tab idx route bad : Nat) (s : State) : Res := onLive (fun s => tableScan tab idx route bad (advance t s)) s

/-! ## Registers and windows of pages 0x170-0x175 -/

/-- The number of MAC or flow overflow slots in use. -/
def ovfUsed (flow : Bool) (s : State) : Nat :=
  if flow then ((s.ftb.flow.filter (fun e => decide (2359296 ≤ e.1))).map (fun e => flowSize e.2.ktype)).sum
  else (s.ftb.mac.filter (fun e => decide (4718592 ≤ e.1))).length

def walkSlot (tab : Nat) (s : State) : Nat := match find? s.ftb.walks tab with
  | some w => w.slot
  | none => 0x7F

/-- The RO registers of page 0x170 that the engines own. -/
def ftbRo (off : Nat) (s : State) : Option Word :=
  let h := s.ftb.notify.head?
  match off with
  | 0x11C => some (w32 s.ftb.ageNext)
  | 0x128 => some (w32 s.ftb.perrIdx)
  | 0x12C => some (w32 (s.ftb.learnQ.length + s.ftb.notify.length * 2 ^ 13))
  | 0x134 => some (match h with
      | some n => w32 (n.type + 8 + n.fid * 16 + n.mac / 2 ^ 32 * 65536)
      | none => 0)
  | 0x144 => some (w32 (ovfUsed false s + ovfUsed true s * 65536))
  | 0x148 => some (w32 s.ftb.mac.length)
  | 0x14C => some (w32 (flowCount s))
  | 0x150 => some (w32 s.ftb.v4.length)
  | 0x154 => some (w32 (s.ftb.v6.filter (fun e => decide (e.2.len ≤ 64))).length)
  | 0x158 => some (w32 (s.ftb.v6.filter (fun e => decide (64 < e.2.len))).length)
  | 0x15C => some (w32 (walkSlot 0 s + walkSlot 1 s * 2 ^ 8 + walkSlot 2 s * 2 ^ 16 + walkSlot 3 s * 2 ^ 24))
  | 0x160 => some (w32 (walkSlot 4 s))
  | _ => none

/-- The words that a read of FTB_NTF_W0 latches. -/
def ntfWords (s : State) : Word × Word :=
  match s.ftb.notify.head? with
  | some n => (w32 n.mac, w32 n.dest)
  | none => (0, 0)

/-- The windows (R189 and the tables of pages 0x171-0x175). -/
def ftbWin (p off : Nat) (s : State) : Option WinRef :=
  let base (r : Nat) (lo n : Nat) : Nat := rf p r lo n s * 2 ^ lo
  if off < 0x4000 || 0x8000 ≤ off then none
  else match p with
    | 0x170 =>
      let i := (off - 0x4000) / 128
      let w := (off - 0x4000) % 128 / 4
      if 68 < i then none
      else
        let m := if w = 0 then 0x3FFFF else if w = 1 then 0xFFFFFF else if w = 12 then 0xFFFFFF else if w < 14 then 0xFFFFFFFF
          else if w = 14 then 0x3FF else if w = 15 then 0xFFFFFF else 0
        some ⟨tbCmd, i, w, 0x4000, i, w, m, false, true, false⟩
    | 0x171 =>
      let i := base 0x100 9 11 + (off - 0x4000) / 32
      let w := (off - 0x4000) % 32 / 4
      let m := match w with
        | 0 => 0xFFFF01F7 | 1 => 0x00FF7FFF | 2 => 0xFFFFFFFF | 3 => 0xFFFF | 4 => 0x7FFFFFFF | 5 => 0x7FFFFFFF | 6 => 0xFFFFFF | _ => 0
      some ⟨tbNh, i, w, 0x4000, i, w, m, false, true, false⟩
    | 0x172 =>
      if off < 0x6000 then
        let i := base 0x100 10 6 + (off - 0x4000) / 8
        let w := (off - 0x4000) % 8 / 4
        some ⟨tbGroup, i, w, 0x4000, i, w, if w = 0 then 0x8FFFFFFF else 0xFF, false, true, false⟩
      else
        let i := base 0x104 11 9 + (off - 0x6000) / 4
        some ⟨tbMember, i, 0, 0x6000, i, 0, 0xFFFFF, false, false, false⟩
    | 0x173 =>
      if off < 0x6000 then
        let i := base 0x100 9 3 + (off - 0x4000) / 16
        let w := (off - 0x4000) % 16 / 4
        some ⟨tbVlan, i, w, 0x4000, i, w, if w = 0 then 0xFFFFFFF7 else 0, false, true, false⟩
      else if off < 0x7000 then
        let i := (off - 0x6000) / 4
        if 288 < i then none else some ⟨tbPort, i, 0, 0x6000, i, 0, 0x3FFFFFFF, false, false, false⟩
      else if off < 0x7800 then
        let i := (off - 0x7000) / 8
        let w := (off - 0x7000) % 8 / 4
        some ⟨tbSmac, i, w, 0x7000, i, w, if w = 0 then 0xFFFFFFFF else 0xFFFF, false, true, false⟩
      else none
    | 0x175 =>
      let i := (off - 0x4000) / 64
      let w := (off - 0x4000) % 64 / 4
      if 63 < i then none
      else
        let m := match w with
          | 0 => 0x1FFFFFF | 1 => 0x1FFFFFF | 2 => 0xFFFFF | 3 => 0x1FFFFF | 4 => 0x7FFFFF | 5 => 0x3FFFFF | 6 => 0x7FFFFF | 7 => 0x3FFFFF
          | _ => 0
        some ⟨tbPart, i, w, 0x4000, i, w, m, false, true, false⟩
    | _ => none

/-- The counter behind an offset of page 0x174: its number and word. -/
def cntWin (off : Nat) (s : State) : Option (Nat × Nat) :=
  if 0x4000 ≤ off && off < 0x8000 then some (rf 0x174 0x100 10 13 s * 1024 + (off - 0x4000) / 16, (off - 0x4000) % 16 / 4) else none

/-- A word of a counter pair. -/
def cntWord (i w : Nat) (s : State) : Word :=
  let c := look (0, 0) s.ftb.cnt i
  match w with
  | 0 => w32 c.1
  | 1 => w32 (c.1 / 2 ^ 32)
  | 2 => w32 c.2
  | _ => w32 (c.2 / 2 ^ 32)

/-- A word of a counter pair is written (R194's window is RW). -/
def cntPut (i w : Nat) (v : Word) (s : State) : State :=
  let c := look (0, 0) s.ftb.cnt i
  let c := match w with
    | 0 => (c.1 / 2 ^ 32 * 2 ^ 32 + v.toNat, c.2)
    | 1 => (c.1 % 2 ^ 32 + fld v 0 16 * 2 ^ 32, c.2)
    | 2 => (c.1, c.2 / 2 ^ 32 * 2 ^ 32 + v.toNat)
    | _ => (c.1, c.2 % 2 ^ 32 + v.toNat * 2 ^ 32)
  setFtb (fun f => { f with cnt := put (0, 0) f.cnt i c }) s

/-- What a read of W0 leaves: the pair cleared under READ_CLEAR (R194). -/
def cntCleared (i : Nat) (s : State) : State :=
  if rb 0x174 0x104 0 s then setFtb (fun f => { f with cnt := del f.cnt i }) s else s

/-- RO words of the FTB windows: command results and used counts. -/
def ftbWinRo (r : WinRef) (s : State) : Option Word :=
  if r.tab = tbCmd then
    let x := ftbSlot r.idx s
    if r.word = 16 then some (w32 (x.state + x.code * 256))
    else if 16 < r.word then some (w32 (x.result.getD (r.word - 17) 0))
    else some (w32 (x.w r.word))
  else if r.tab = tbPart && 8 ≤ r.word then
    (match r.word with
     | 8 => some (w32 (usedMac r.idx s))
     | 9 => some (w32 (usedFlow r.idx s))
     | 10 => some (w32 (usedV4 r.idx s))
     | 11 => some (w32 (usedV6 r.idx s))
     | _ => some 0)
  else none

/-- A W0 commit that must not take effect: a slot at work (R189). -/
def ftbBusy (r : WinRef) (s : State) : Bool :=
  r.tab == tbCmd && r.word == 0 && ((ftbSlot r.idx s).state == 1 || (ftbSlot r.idx s).state == 2)

/-- What a commit does beyond storing the words: a descriptor is queued; BAD clears on a write of W0 (R195). -/
def ftbCommitted (r : WinRef) (s : State) : State :=
  if r.tab = tbCmd then ftbCommit r.idx ((List.range 16).map (fun w => (tw tbCmd r.idx w s).toNat)) s
  else if r.tab = tbNh || r.tab = tbVlan then tfput r.tab r.idx 0 3 1 0 s
  else if r.tab = tbGroup then tfput r.tab r.idx 0 30 1 0 s
  else if r.tab = tbMember then setFtb (fun f => { f with badMembers := rem f.badMembers r.idx }) s
  else s

/-- Page check of page 0x170: a seed differs from its live value while its table holds entries; `live` is the state in force. -/
def ftbCheck (live s : State) : Option Nat :=
  let ch (off : Nat) : Bool := rd 0x170 off live != rd 0x170 off s
  if ((ch 0x104 || ch 0x108) && !s.ftb.mac.isEmpty) || ((ch 0x10C || ch 0x110) && !s.ftb.flow.isEmpty) then some 0x01 else none

end Sys2Proof.Machine
end

