-- ==== Sys2Proof/Machine/Police.lean ====
section
/-! DEFINITION. The bulk policers: the two-rate three-colour marker (R292-R295). -/
namespace Sys2Proof.Machine

def setPcr (f : Pcr → Pcr) (s : State) : State := { s with pcr := f s.pcr }

/-- Bytes that a rate of `r` units of 64 kb/s gives in `dt` stamp units, scaled by one second (R205, R288, R293). -/
def rateBytes (r dt : Nat) : Int := ((r * 8000 * dt : Nat) : Int)

/-- A byte count in the scale of the levels. -/
def scaled (n : Nat) : Int := ((n * secU : Nat) : Int)

/-- Policer levels after the refill at stamp `t`, clamped to the bursts in force (R293, R295). -/
def polRefill (i t : Nat) (s : State) : Int × Int × Nat :=
  let x := look (0, 0, 0) s.pcr.pol i
  let cbs := scaled (tf tbPol i 2 0 24 s)
  let pbs := scaled (tf tbPol i 4 0 24 s)
  if x.2.2 < t then
    (min cbs (x.1 + rateBytes (tf tbPol i 1 0 28 s) (t - x.2.2)), min pbs (x.2.1 + rateBytes (tf tbPol i 3 0 28 s) (t - x.2.2)), t)
  else (min cbs x.1, min pbs x.2.1, x.2.2)

/-- The colour that the marker gives: 0 green, 1 yellow, 2 red; the levels after (R293). -/
def polMark (aware : Bool) (pc len : Nat) (tc tp : Int) : Nat × Int × Int :=
  let pc := if !aware || pc = 3 then 0 else pc
  let l := scaled len
  if pc = 2 || decide (tp < l) then (2, tc, tp)
  else if pc = 1 || decide (tc < l) then (1, tc, tp - l)
  else (0, tc - l, tp - l)

/-- A frame meets policer `i`: its colour (R293, R294). -/
def polMeter (i pc len : Nat) (s : State) : Nat × State :=
  if !tb tbPol i 0 0 s then
    (if pc = 3 then 0 else pc, ev 0x1A0 0x0108 1 (bump 0x1A0 0x11C 0 32 1 s))
  else
    let (tc, tp, t) := polRefill i (nowStamp s) s
    let (c, tc, tp) := polMark (tb tbPol i 0 1 s) pc len tc tp
    let s := setPcr (fun p => { p with
      pol := put (0, 0, 0) p.pol i (tc, tp, t),
      red := if c = 2 then put 0 p.red i (satAdd (look 0 p.red i) 1 0xFFFFFFFF) else p.red }) s
    let s := ev 0x1A0 0x0105 1 s
    (c, if c = 1 then ev 0x1A0 0x0109 1 s else s)

/-- A commit that sets VALID fills both levels (R295). -/
def polCommitted (was : Bool) (i : Nat) (s : State) : State :=
  if !was && tb tbPol i 0 0 s then
    setPcr (fun p => { p with
      pol := put (0, 0, 0) p.pol i (scaled (tf tbPol i 2 0 24 s), scaled (tf tbPol i 4 0 24 s), nowStamp s) }) s
  else s

end Sys2Proof.Machine
end

