-- ==== Sys2Proof/Machine/Bas.lean ====
section
/-! DEFINITION. The basin: berths and pools, admission, weirs, the mover, multicast, mirroring, flushes and ageing (R254-R279). -/
namespace Sys2Proof.Machine

def setBas (f : Bas → Bas) (s : State) : State := { s with bas := f s.bas }

/-- The BAS control page. -/
def pgBas : Nat := 0x190

/-- Berths, and deep berths of the variant (R254). -/
def berthCount : Nat := 1572864
def deepCount (s : State) : Nat := if s.fixed.ident.varH then 44040192 else 100663296

/-! ## The HBM controllers as the basin sees them (R344, R346, R357) -/

/-- Controllers of the variant, and one of them. -/
def memCount (s : State) : Nat := if s.fixed.ident.varH then 6 else 12
def memCtl (c : Nat) (s : State) : MemCtl := look {} s.mem.ctl c

/-- A controller is frozen; some controller is (R357). -/
def memFrozenAt (c : Nat) (s : State) : Bool := (memCtl c s).st == 4
def memFrozen (s : State) : Bool := s.mem.ctl.any (fun e => e.2.st == 4)

/-! ## Pools (R257, R260) -/

def poolMin (g p : Nat) (s : State) : Nat := fld (rdG g pgBas (0x400 + 4 * p) s) 0 21
def poolMax (g p : Nat) (s : State) : Nat := fld (rdG g pgBas (0x500 + 4 * p) s) 0 21
def poolDeepMax (p : Nat) (s : State) : Nat := min (rf pgBas (0x600 + 4 * p) 0 27 s) (deepCount s)
def poolUsed (p : Nat) (s : State) : Nat := look 0 s.bas.poolUsed p

/-- The shared region (R257). -/
def sharedSize (s : State) : Nat := berthCount - ((List.range 64).map (fun p => poolMin s.lock.gen p s)).sum

/-- The shared count as a lock or an enable recomputes it (R257). -/
def basApplied (s : State) : State :=
  setBas (fun b => { b with shared := (s.bas.poolUsed.map (fun e => e.2 - poolMin s.lock.gen e.1 s)).sum }) s

/-- Pool accounting of one request: granted or not (R257). -/
def poolTake (g p : Nat) (s : State) : Bool × State :=
  let u := poolUsed p s
  let up (b : Bas) : Bas := { b with poolUsed := put 0 b.poolUsed p (u + 1) }
  if u < poolMin g p s then (true, setBas up s)
  else if u < poolMax g p s && decide (s.bas.shared < sharedSize s) then
    (true, setBas (fun b => { up b with shared := b.shared + 1 }) s)
  else (false, s)

/-- One berth freed from a pool (R257). -/
def poolGive (p : Nat) (s : State) : State :=
  let u := poolUsed p s
  setBas (fun b => { b with
    shared := if poolMin s.lock.gen p s < u then b.shared - 1 else b.shared,
    poolUsed := put 0 b.poolUsed p (u - 1) }) s

/-! ## The allocator (R255, R256) -/

/-- The lowest free berth of a bank from index `i` on, `n` indices tried. -/
def lowFree (used : List Nat) (k : Nat) : Nat → Nat → Option Nat
  | 0, _ => none
  | n + 1, i => if has used (64 * i + k) then lowFree used k n (i + 1) else some (64 * i + k)

/-- The next bank after the last used that has a free berth and has not granted in this cycle (R256). -/
def nextBerth (used banks : List Nat) (last per : Nat) : Option Nat :=
  (upto (last + 1) 64).findSome? (fun k => if has banks (k % 64) then none else lowFree used (k % 64) per 0)

/-- The TM core cycle (0.625 ns). -/
def tmCycle (s : State) : Nat := s.tim.up * 8 / 5 / 2 ^ 32

/-! ## Berth requests (R256-R258) -/

/-- The order and the event of a requester. -/
def reqrCode (r : Reqr) : Nat :=
  match r with
  | .express => 0 | .ingress => 1 | .fabric => 2 | .capture => 3 | .host => 4

/-- The destination entry of a fabric destination port (R262). -/
def dstLocal (d : Nat) (s : State) : Option Nat :=
  if tb tbDst d 0 0 s && tb tbDst d 0 1 s then some (tf tbDst d 0 2 8 s) else none

/-- The channel whose FAB_POOL pays for a fabric frame; of a group, the first LOCAL member's. -/
def fabChannel (d : BDest) (s : State) : Nat :=
  match d with
  | .dport n => (dstLocal n s).getD 0
  | .mcast g =>
    ((upto (tf tbBGrp g 1 0 20 s) (tf tbBGrp g 0 1 11 s)).findSome? (fun i =>
      if tf tbMbr i 0 0 2 s = 0 then some (tf tbMbr i 0 2 8 s) else none)).getD 0
  | _ => 0

/-- The pool of a request (R260). -/
def reqPool (x : BDesc) (g : Nat) (s : State) : Nat :=
  match x.req with
  | .express => tf tbMir (x.session.getD 0) 0 20 6 s
  | .ingress => fld (rdG g pgBas (0x1400 + 4 * x.src) s) 0 6
  | .fabric => fld (rdG g pgBas (0x1000 + 4 * fabChannel x.dest s) s) 1 6
  | .capture => fld (rdG g pgBas 0x130 s) 0 6
  | .host => fld (rdG g pgBas 0x134 s) 0 6

/-- The ECN field of a parsed frame marks it ECN-capable. -/
def ectOf (p : Parse) : Bool :=
  match p.ip4, p.ip6 with
  | some h, _ => h.ecn != 0
  | none, some h => h.ecn != 0
  | none, none => false

/-- The channel D descriptor of a bulk frame that the reorder stage released (R263, R292). -/
def ingressDesc (id : Nat) (d : Decision) (s : State) : BDesc :=
  let a := d.act
  let f := frm id s
  { req := .ingress, dest := d.dest.getD .drop, cls := (d.cls.getD 8) - 8, colour := fld a.w0 18 2,
    policer := if bitOf a.w0 20 then some (fld a.w2 0 18) else none, src := f.src, ect := ectOf d.parse,
    mirror := if bitOf a.w0 9 then some (fld a.w0 10 4) else none,
    copyHost := if bitOf a.w0 3 then some a.puntQ else none }

/-- A released bulk frame arrives on channel D. -/
def ingressArrive (id : Nat) (s : State) : State :=
  if !has s.pac.outB id then s
  else match find? s.pac.dec id with
    | none => s
    | some d =>
      let x := ingressDesc id d s
      let x := { x with pool := reqPool x (frm id s).gen s }
      { s with pac := { s.pac with outB := s.pac.outB.filter (fun i => !(i == id)), dec := del s.pac.dec id },
               bas := { s.bas with desc := ins s.bas.desc id x } }

/-- Berths go on the list of those released: BERTH_FREE frees them (R259). -/
def relBerths (pool : Nat) (l : List Nat) (s : State) : State :=
  setBas (fun b => { b with rel := b.rel ++ l.map (fun i => (i, pool)) }) s

/-- An arriving frame is dropped whole: its berths are released and it is gone. -/
def dropArriving (id : Nat) (s : State) : State :=
  match find? s.bas.desc id with
  | none => dropFrm id s
  | some x => dropFrm id (setBas (fun b => { b with desc := del b.desc id }) (relBerths x.pool x.berths s))

/-- A mirror copy is refused (R258, R276). -/
def mirrorRefused (m : Nat) (s : State) : State :=
  ev pgBas 0x0112 1 (setBas (fun b => { b with mirRefused := put 0 b.mirRefused m (satAdd (look 0 b.mirRefused m) 1 0xFFFFFFFF) }) s)

/-- A capture record is lost after its point: its counter and event, and CAPTURE_LOSS (R367). -/
def captureLost (off evt : Nat) (s : State) : State :=
  raise 0x1D0 9 (ev 0x1D0 evt 1 (bump 0x1D0 off 0 32 1 { s with arc := { s.arc with lostAll := s.arc.lostAll + 1 } }))

/-- POOL_EMPTY: the requester's drop policy (R258). -/
def poolEmpty (id : Nat) (x : BDesc) (s : State) : State :=
  let s := raise pgBas 9 (ev pgBas (0x0102 + reqrCode x.req) 1 (bump pgBas (0x900 + 4 * x.pool) 0 32 1 s))
  let s := match x.req, x.session with
    | .express, some m => mirrorRefused m s
    | _, _ => s
  let s := match x.req with
    | .capture => captureLost 0x118 0x0103 s
    | .host => setBas (fun b => { b with lost := b.lost ++ [(.host, id)] }) s
    | _ => s
  dropArriving id s

/-- Requests that a requester may present in a cycle (R256). -/
def reqrPorts (r : Reqr) : Nat :=
  match r with
  | .express => 2 | .ingress => 24 | .fabric => 24 | .capture => 4 | .host => 2

/-- A request is neither granted nor refused in this cycle: it stays on its port (R256). -/
def berthWaits (r : Reqr) (id : Nat) (s : State) : State :=
  ev pgBas 0x011C 1 (setBas (fun b => { b with waiting := b.waiting ++ [(r, id)] }) s)

/-- The frame `id` of the requester still lacks a berth for the bytes that have come. -/
def berthDue (r : Reqr) (id : Nat) (s : State) : Bool :=
  match find? s.bas.desc id with
  | none => false
  | some x => x.req == r && decide (256 * x.berths.length < (frm id s).bytes.length)

/-- A request passes pool accounting: refused, granted with the berth of the next bank, or left over when no bank is ready (R256-R258). -/
def berthServe (r : Reqr) (id : Nat) (s : State) : State :=
  match find? s.bas.desc id with
  | none => s
  | some x =>
    let g := (frm id s).gen
    let x := { x with pool := reqPool x g s }
    let s := setBas (fun b => { b with ports := put 0 b.ports (reqrCode r) (look 0 b.ports (reqrCode r) + 1) }) s
    let (ok, t) := poolTake g x.pool s
    if !ok then poolEmpty id x s
    else match nextBerth s.bas.used s.bas.banks s.bas.lastBank (berthCount / 64) with
      | none => berthWaits r id s
      | some b => ev pgBas 0x0100 1 (setBas (fun a => { a with
          used := Sys2Proof.Machine.add a.used b, lastBank := b % 64, banks := Sys2Proof.Machine.add a.banks (b % 64)
          desc := ins a.desc id { x with berths := x.berths ++ [b] } }) t)

/-- In a new cycle every bank is ready, and the requests left over are served first (R256). -/
def newCycle (s : State) : State :=
  if s.bas.cycle = tmCycle s then s
  else
    s.bas.waiting.foldl (fun a e => if berthDue e.1 e.2 a then berthServe e.1 e.2 a else a)
      (setBas (fun b => { b with cycle := tmCycle s, banks := [], waiting := [], ports := [], turn := 0 }) s)

/-- BERTH_REQUEST: a requester asks for the next berth of a frame (R256-R258). A request that comes when its requester's ports are taken, or
behind a later requester of the same cycle, is presented in the next cycle. -/
def berthRequest (r : Reqr) (id : Nat) (s : State) : State :=
  let s := if r = .ingress then ingressArrive id s else s
  if !rb pgBas 0x008 0 s || !berthDue r id s then s
  else
    let s := newCycle s
    if s.bas.waiting.contains (r, id) || !berthDue r id s then s
    else if reqrCode r < s.bas.turn || reqrPorts r ≤ look 0 s.bas.ports (reqrCode r) then berthWaits r id s
    else berthServe r id (setBas (fun b => { b with turn := reqrCode r }) s)

/-- A free is refused as a double free (R259). -/
def doubleFree (party idx : Nat) (deep : Bool) (s : State) : State :=
  raise pgBas 10 (ev pgBas 0x0118 1 (bump pgBas 0x120 0 32 1
    (setBas (fun b => { b with dfree := idx % 2 ^ 27 + b2n deep * 2 ^ 27 + party % 8 * 2 ^ 28 + 2 ^ 31 }) s)))

/-- A berth is free again, credited to the pool that paid for it (R257). -/
def berthGone (pool idx : Nat) (s : State) : State :=
  ev pgBas 0x0101 1 (poolGive pool (setBas (fun b => { b with rel := b.rel.filter (fun e => !(e.1 == idx)), used := rem b.used idx }) s))

/-- A deep berth is free again, unless it is retired. -/
def deepGone (pool idx : Nat) (s : State) : State :=
  let s := setBas (fun b => { b with relDeep := b.relDeep.filter (fun e => !(e.1 == idx)) }) s
  if has s.mem.retired idx then s
  else ev pgBas 0x0114 1 (setBas (fun b => { b with
    deepUsed := rem b.deepUsed idx, poolDeep := put 0 b.poolDeep pool (look 0 b.poolDeep pool - 1) }) s)

/-- A free of a berth that its frame still holds: of a shared frame it takes one reference, and the berth itself from any other (R259). -/
def berthStray (party idx : Nat) (s : State) : State :=
  match s.bas.frames.find? (fun e => has e.2.berths idx) with
  | some (id, f) =>
    if f.refs = 0 then doubleFree party idx false s
    else if 1 < f.refs then setBas (fun b => { b with frames := ins b.frames id { f with refs := f.refs - 1 } }) s
    else berthGone f.pool idx s
  | none =>
    match s.bas.desc.find? (fun e => has e.2.berths idx) with
    | some (_, x) => berthGone x.pool idx s
    | none => s

/-- The pool that pays for a deep berth in use. -/
def deepPool (idx : Nat) (s : State) : Option Nat :=
  s.bas.q.findSome? (fun e => (e.2.find? (fun x => has x.deep idx)).bind (fun x => (find? s.bas.frames x.id).map (·.pool)))

/-- BERTH_FREE: a berth or deep berth is freed after the check of its bit; a free of one that is not in use is refused (R259). -/
def berthFree (party idx : Nat) (deep : Bool) (s : State) : State :=
  if deep then
    if !has s.bas.deepUsed idx then doubleFree party idx true (setBas (fun b => { b with relDeep := b.relDeep.filter (fun e => !(e.1 == idx)) }) s)
    else match s.bas.relDeep.find? (fun e => e.1 == idx) with
      | some (_, p) => deepGone p idx s
      | none => (match deepPool idx s with
        | some p => deepGone p idx s
        | none => s)
  else if !has s.bas.used idx then doubleFree party idx false (setBas (fun b => { b with rel := b.rel.filter (fun e => !(e.1 == idx)) }) s)
  else match s.bas.rel.find? (fun e => e.1 == idx) with
    | some (_, p) => berthGone p idx s
    | none => berthStray party idx s

def execBerthFree (t party idx : Nat) (deep : Bool) (s : State) : Res := onLive (fun s => berthFree party idx deep (advance t s)) s

/-! ## Queues and weirs (R261-R264) -/

/-- The number of punt queue u. -/
def puntQ (u : Nat) : Nat := 1048576 + u % 512

/-- The table index of a queue's entry. -/
def queue (q : Nat) (s : State) : List QEnt := look [] s.bas.q q
def setQ (q : Nat) (l : List QEnt) (s : State) : State := setBas (fun b => { b with q := put [] b.q q l }) s

def depth (q : Nat) (s : State) : Nat := ((queue q s).map (·.len)).sum

/-- An egress sub-queue: its channel, service and class. -/
def egressQ (c v k : Nat) : Nat := 524288 + 2048 * c + 8 * v + k
def isEgress (q : Nat) : Bool := decide (524288 ≤ q) && decide (q < 1048576)
def chanOfQ (q : Nat) : Nat := (q - 524288) / 2048

/-- The queue exists on this variant (R261). -/
def queueLive (q : Nat) (s : State) : Bool := !(s.fixed.ident.varH && decide (786432 ≤ q) && decide (q < 1048576))

def queueDrop (q : Nat) (s : State) : State :=
  setBas (fun b => { b with drops := put 0 b.drops q (satAdd (look 0 b.drops q) 1 0xFFFFFFFF) }) s

/-- Shared berths free and deep berths free, in bytes (R264). -/
def deepFree (s : State) : Nat := if s.bas.memReady then deepCount s - s.bas.deepUsed.length else 0
def freeBytes (s : State) : Nat := 256 * (sharedSize s - s.bas.shared) + 2048 * deepFree s

/-- What a weir answers. -/
inductive WeirOut where
  | pass (mark : Bool)
  | weir (yellow : Bool)
  | red
  deriving DecidableEq, Repr

/-- The weir of a queue judges a frame (R264). -/
def weirJudge (q len colour : Nat) (ect : Bool) (s : State) : WeirOut :=
  let w := tf tbBq q 0 1 8 s
  let w0 := tw tbWeir w 0 s
  let lim := (tw tbWeir w 1 s).toNat * 64
  let lim := if bitOf w0 0 then min lim (freeBytes s * 2 ^ fld w0 1 4 / 256) else lim
  if colour = 2 then .red
  else
    let lim := if colour = 1 then lim * fld w0 8 8 / 100 else lim
    let d := depth q s
    if decide (lim < d + len) && decide ((tw tbWeir w 2 s).toNat * 64 ≤ d) then .weir (colour == 1)
    else .pass (fld w0 16 8 != 0 && decide (lim * fld w0 16 8 < (d + len) * 100) && ect)

/-- The refusals of a weir are counted (R264, R279). -/
def weirNote (q : Nat) (o : WeirOut) (s : State) : State :=
  match o with
  | .red => queueDrop q (ev pgBas 0x010A 1 s)
  | .weir y => queueDrop q (ev pgBas 0x0108 1 (if y then ev pgBas 0x0109 1 s else s))
  | .pass m => if m then ev pgBas 0x010B 1 s else s

/-- Where a destination leads a frame of class Bk (R262). -/
def queueOf (d : BDest) (k : Nat) (fromFab : Bool) (s : State) : Option Nat :=
  match d with
  | .dport n =>
    if !tb tbDst n 0 0 s || has s.bas.unreach n then none
    else if tb tbDst n 0 1 s then some (egressQ (tf tbDst n 0 2 8 s) (tf tbDst n 0 10 8 s) k)
    else if fromFab then none else some (8 * n + k)
  | .punt u _ => some (puntQ u)
  | .queue q => some q
  | _ => none

/-- The local channel of a queue is down with FLUSH_ON_DOWN set (R263, R272). -/
def downRefuses (g q : Nat) (s : State) : Bool :=
  isEgress q && !chUp (chanOfQ q) s && bitOf (rdG g pgBas (0x1000 + 4 * chanOfQ q) s) 0

/-- A queue takes a reference to a stored frame. -/
def enqueue (q : Nat) (x : QEnt) (s : State) : State :=
  let s := setQ q (queue q s ++ [x]) s
  setBas (fun b => match find? b.frames x.id with
    | some f => { b with frames := ins b.frames x.id { f with refs := f.refs + 1 } }
    | none => b) s

/-- A queue gives up its reference: a stored frame with none left is gone, and its berths are released (R270). One more than the count holds
is refused (R259). -/
def unref (id : Nat) (s : State) : State :=
  match find? s.bas.frames id with
  | none => s
  | some f =>
    let gone (s : State) : State :=
      if s.bas.q.any (fun e => e.2.any (fun x => x.id == id)) then setBas (fun b => { b with frames := ins b.frames id { f with refs := 0 } }) s
      else dropFrm id (setBas (fun b => { b with frames := del b.frames id }) s)
    match f.refs with
    | 0 => gone (doubleFree 0 (f.berths.headD 0) false s)
    | 1 => gone (relBerths f.pool f.berths s)
    | n + 2 => setBas (fun b => { b with frames := ins b.frames id { f with refs := n + 1 } }) s

/-! ## Multicast and mirroring (R269-R271, R276, R277) -/

/-- The channel is the frame's source, or the other channel of its pair (R271); but a ring passes a group frame on to its other port (R234,
log entry 237). -/
def sourceChan (f : Frm) (c : Nat) (s : State) : Bool :=
  decide (f.src < 256) && (f.src == c || match pairOf f.gen f.src s with
    | some (v, _) => (v.chA == c || v.chB == c) && !ringPass c f (parse (parseCfg f.gen s) (frameData f.bytes)) s
    | none => false)

/-- A bulk frame for a pair is queued only in the egress sub-queues of CH_A (R239). -/
def pairHome (q : Nat) (f : Frm) (s : State) : Nat :=
  if isEgress q then (match pairInto (chanOfQ q) f s with
    | some (v, _) => q + 2048 * v.chA - 2048 * chanOfQ q
    | none => q)
  else q

def copyRefused (c : Nat) (s : State) : State := ev pgBas 0x010F 1 (bump pgBas (0x1A00 + 4 * c) 0 16 1 s)

/-- One copy into a queue, or its refusal counted for channel `c` (R270). -/
def copyTo (q c : Nat) (id : Nat) (x : BDesc) (len : Nat) (s : State) : State :=
  if !tb tbBq q 0 0 s || !queueLive q s then copyRefused c s
  else
    let o := weirJudge q len x.colour x.ect s
    match o with
    | .pass m => ev pgBas 0x010E 1 (enqueue q { id := id, len := len, mark := m, colour := x.colour, trunc := 0 } (weirNote q o s))
    | _ => copyRefused c (weirNote q o s)

/-- One member of a group (R269, R270). -/
def memberCopy (i id : Nat) (f : Frm) (x : BDesc) (len : Nat) (s : State) : State :=
  let w := tw tbMbr i 0 s
  let into (q c : Nat) (s : State) : State :=
    let q := pairHome q f s
    if isEgress q && !chUp (chanOfQ q) s then copyRefused c s else copyTo q c id x len s
  match fld w 0 2 with
  | 0 =>
    let c := fld w 2 8
    if sourceChan f c s then ev pgBas 0x0110 1 s else into (egressQ c (fld w 10 8) x.cls) c s
  | 1 =>
    if x.localOnly then s
    else (match queueOf (.dport (fld w 2 16)) x.cls false s with
      | none => copyRefused 0 s
      | some q => into q 0 s)
  | 2 =>
    if x.localOnly then s
    else ev pgBas 0x010E 1 (setBas (fun b => { b with trees := b.trees ++ [(fld w 2 16, id)] })
      (setBas (fun b => match find? b.frames id with
        | some f => { b with frames := ins b.frames id { f with refs := f.refs + 1 } }
        | none => b) s))
  | _ => s

/-- The pair that a group's member sends into, none for another member: a pair takes one copy, whichever of its channels the group holds
(R239). -/
def memberPair (i : Nat) (f : Frm) (x : BDesc) (s : State) : Option Nat :=
  let w := tw tbMbr i 0 s
  let chan : Option Nat := match fld w 0 2 with
    | 0 => if sourceChan f (fld w 2 8) s then none else some (fld w 2 8)
    | 1 => (match queueOf (.dport (fld w 2 16)) x.cls false s with
      | some q => if x.localOnly || !isEgress q then none else some (chanOfQ q)
      | none => none)
    | _ => none
  chan.bind (fun c => (pairInto c f s).map (fun v => v.1.p))

/-- The copies of a group frame, in member order. -/
def replicate (grp id : Nat) (f : Frm) (x : BDesc) (len : Nat) (s : State) : State :=
  ((upto (tf tbBGrp grp 1 0 20 s) (min 1024 (tf tbBGrp grp 0 1 11 s))).foldl (fun (a : List Nat × State) i =>
    match memberPair i f x s with
    | some p => if a.1.contains p then a else (p :: a.1, memberCopy i id f x len a.2)
    | none => (a.1, memberCopy i id f x len a.2)) ([], s)).2

/-- The session sees a frame: whether it takes a copy (R276). -/
def mirrorSees (m : Nat) (s : State) : Bool × State :=
  if !tb tbMir m 0 0 s then (false, s)
  else
    let n := look 0 s.bas.mirSeen m
    (n % (tf tbMir m 1 16 16 s + 1) == 0, setBas (fun b => { b with mirSeen := put 0 b.mirSeen m (n + 1) }) s)

def mirrorMade (m : Nat) (s : State) : State :=
  ev pgBas 0x0111 1 (setBas (fun b => { b with mirMade := put 0 b.mirMade m (satAdd (look 0 b.mirMade m) 1 0xFFFFFFFF) }) s)

/-- Length of a mirror copy: the frame's, or TRUNC. -/
def mirrorLen (m len : Nat) (s : State) : Nat := let t := tf tbMir m 1 0 14 s; if t = 0 then len else min t len

/-- A copy of a stored bulk frame, sharing its berths (R277). -/
def mirrorBulk (m id : Nat) (x : BDesc) (len : Nat) (s : State) : State :=
  let (take, s) := mirrorSees m s
  if !take then s
  else
    let k := tf tbMir m 0 17 3 s
    let n := mirrorLen m len s
    match queueOf (.dport (tf tbMir m 0 1 16 s)) k false s with
    | none => mirrorRefused m s
    | some q =>
      if !tb tbBq q 0 0 s || (isEgress q && !chUp (chanOfQ q) s) then mirrorRefused m s
      else
        let o := weirJudge q n 0 x.ect s
        match o with
        | .pass mk => mirrorMade m (enqueue q { id := id, len := n, mark := mk, trunc := if n < len then n else 0, mir := true } (weirNote q o s))
        | _ => mirrorRefused m (weirNote q o s)

/-- A copy of a frame that is not stored in the basin asks for berths of its own (R277). -/
def mirrorForkOf (m : Nat) (f : Frm) (s : State) : State :=
  let (take, s) := mirrorSees m s
  if !take then s
  else
    let n := mirrorLen m f.bytes.length s
    let new := s.lic.nextFrame
    let s := newFrm { f with mir := true, bytes := if n < f.bytes.length then f.bytes.take (n - 4) ++ fcsOf (f.bytes.take (n - 4)) else f.bytes } s
    let x : BDesc := {
      req := .express, dest := .dport (tf tbMir m 0 1 16 s), cls := tf tbMir m 0 17 3 s, src := f.src, session := some m,
      trunc := if n < f.bytes.length then n else 0 }
    setBas (fun b => { b with desc := ins b.desc new x }) s

/-- A copy of a frame of the device that is not stored in the basin. -/
def mirrorFork (m id : Nat) (s : State) : State := mirrorForkOf m (frm id s) s

/-- RX and TX mirror sessions of a channel (page 0x196). -/
def rxMirror (c : Nat) (s : State) : Option Nat := if tb tbPmir c 0 4 s then some (tf tbPmir c 0 0 4 s) else none
def txMirror (c : Nat) (s : State) : Option Nat := if tb tbPmir c 0 9 s then some (tf tbPmir c 0 5 4 s) else none

/-! ## Admission (R263) -/

/-- The frame leaves its arrival and is stored with no reference yet. -/
def store (id : Nat) (x : BDesc) (s : State) : State :=
  setBas (fun b => { b with
    desc := del b.desc id,
    frames := ins b.frames id ⟨x.pool, x.berths, 0, x.src, x.cls, (frm id s).bytes.length⟩ }) s

/-- COPY_HOST: a copy to the punt queue (R160). -/
def copyHost (u id : Nat) (x : BDesc) (len : Nat) (s : State) : State :=
  let q := puntQ u
  if !tb tbBq q 0 0 s then queueDrop q s
  else
    let o := weirJudge q len x.colour x.ect s
    match o with
    | .pass m => enqueue q { id := id, len := len, mark := m, colour := x.colour, why := 2 } (weirNote q o s)
    | _ => weirNote q o s

/-- The copies that follow the frame itself: to the host, and the mirrors of ingress. -/
def sideCopies (id : Nat) (x : BDesc) (len : Nat) (s : State) : State :=
  let s := match x.copyHost with | some u => copyHost u id x len s | none => s
  if x.session.isSome || x.localOnly then s
  else
    let s := match x.mirror with | some m => mirrorBulk m id x len s | none => s
    if x.req = .ingress && decide (x.src < 256) then
      (match rxMirror x.src s with
       | some m => mirrorBulk m id x len s
       | none => s)
    else s

/-- A frame whose copies are all refused is freed at once (R270). -/
def freeIfNone (id : Nat) (s : State) : State :=
  match find? s.bas.frames id with
  | some f => if f.refs = 0 then dropFrm id (relBerths f.pool f.berths (setBas (fun b => { b with frames := del b.frames id }) s)) else s
  | none => s

/-- Check 2 for a frame that goes to one queue: the queue, or the refusal counted (R263). -/
def destCheck (id : Nat) (x : BDesc) (s : State) : Option Nat × State :=
  let g := (frm id s).gen
  match queueOf x.dest x.cls (x.req == .fabric) s with
  | none => (none, ev pgBas 0x010C 1 s)
  | some q =>
    let q := pairHome q (frm id s) s
    if !tb tbBq q 0 0 s || !queueLive q s then (none, queueDrop q (ev pgBas 0x010C 1 s))
    else if downRefuses g q s then
      (none, queueDrop q (ev pgBas 0x010C 1 (bump pgBas (0x1A00 + 4 * chanOfQ q) 16 16 1 s)))
    else (some q, s)

/-- A mirror copy that fails a check (R276). -/
def sessionNote (x : BDesc) (s : State) : State := match x.session with | some m => mirrorRefused m s | none => s

/-- The frame has ended and all its berths are granted. -/
def admitReady (id : Nat) (x : BDesc) (s : State) : Bool :=
  (frm id s).ended && decide ((frm id s).bytes.length ≤ 256 * x.berths.length)

/-- The policer that an arriving frame is to meet (R292). -/
def policerOf (id : Nat) (x : BDesc) (s : State) : Option Nat :=
  if x.req == .ingress && !(frm id s).bad && !has s.exp.bulkDup id then x.policer else none

/-- Frames that meet one policer (R294). -/
def samePolicer (a : Nat) (x : BDesc) (b : Nat) (y : BDesc) (s : State) : Bool :=
  match policerOf a x s, policerOf b y s with
  | some i, some j => i == j
  | _, _ => false

/-- Ready frame `a` is judged before ready frame `b` of the same cycle: the requesters in the order of R256, and at one policer the reference
instants (R264, R294). -/
def admitBefore (s : State) (a : Nat) (x : BDesc) (b : Nat) (y : BDesc) : Bool :=
  decide (reqrCode x.req < reqrCode y.req) || (samePolicer a x b y s && refBefore s a b)

/-- A frame is put in front of the first one of a list that it goes before. -/
def admitInsert (s : State) (e : Nat × BDesc) : List (Nat × BDesc) → List (Nat × BDesc)
  | [] => [e]
  | g :: r => if admitBefore s e.1 e.2 g.1 g.2 then e :: g :: r else g :: admitInsert s e r

/-- The ready frames that are judged before frame `id`, in order. -/
def admitAhead (id : Nat) (s : State) : List Nat :=
  match find? s.bas.desc id with
  | none => []
  | some x =>
    ((s.bas.desc.filter (fun e => admitReady e.1 e.2 s && admitBefore s e.1 e.2 id x)).foldl (fun l e => admitInsert s e l) []).map (·.1)

/-- Another ready frame meets the same policer in this cycle: its metering is ordered behind, and counted (R294). -/
def meterOrderNote (id : Nat) (x : BDesc) (s : State) : State :=
  if s.bas.desc.any (fun e => e.1 != id && admitReady e.1 e.2 s && samePolicer id x e.1 e.2 s) then ev 0x1A0 0x0107 1 s else s

/-- The policer's colour, and whether the frame is dropped red (R292, R294). -/
def meter (id : Nat) (x : BDesc) (len : Nat) (s : State) : Nat × Bool × State :=
  match x.policer, x.req with
  | some i, .ingress =>
    let (c, s) := polMeter i x.colour len (meterOrderNote id x s)
    if c = 2 && tb tbPol i 0 0 s && tb tbPol i 0 2 s then (c, true, ev 0x1A0 0x0106 1 s) else (c, false, s)
  | _, _ => (if x.colour = 3 then 0 else x.colour, false, s)

/-- The end-of-frame checks and the admission of one frame (R263, R264, R269). -/
def admitOne (id : Nat) (s : State) : State :=
  match find? s.bas.desc id with
  | none => s
  | some x =>
    let f := frm id s
    let len := f.bytes.length
    if !admitReady id x s || !rb pgBas 0x008 0 s then s
    else
      if f.bad || has s.exp.bulkDup id then
        dropArriving id (sessionNote x (ev pgBas 0x010D 1 (setExp (fun e => { e with bulkDup := rem e.bulkDup id }) s)))
      else match x.dest with
        | .mcast g =>
          if !tb tbBGrp g 0 0 s then dropArriving id (sessionNote x (ev pgBas 0x010C 1 s))
          else
            let (c, red, s) := meter id x len s
            let x := { x with colour := c }
            if red then dropArriving id s
            else
              let s := ev pgBas 0x0107 1 (store id x s)
              freeIfNone id (sideCopies id x len (replicate g id f x len s))
        | _ =>
          let (q, s) := destCheck id x s
          match q with
          | none => dropArriving id (sessionNote x s)
          | some q =>
            let (c, red, s) := meter id x len s
            let x := { x with colour := c }
            if red then dropArriving id s
            else
              let o := weirJudge q len c x.ect s
              let s := weirNote q o s
              match o with
              | .pass m =>
                let s := ev pgBas 0x0107 1 (store id x s)
                let why := match x.dest with
                  | .punt _ w => w
                  | _ => 0
                let s := enqueue q { id := id, len := len, mark := m, colour := c, why := why } s
                let s := match x.session with | some m => mirrorMade m s | none => s
                sideCopies id x len s
              | _ => dropArriving id (sessionNote x s)

/-- BULK_ADMIT: the frame is judged behind the ready frames that go before it in its cycle (R263, R264, R294). -/
def bulkAdmit (id : Nat) (s : State) : State :=
  (admitAhead id s ++ [id]).foldl (fun a i => admitOne i a) s

/-! ## Dequeue -/

/-- The frame as it leaves its queue: CE marked (R264), truncated with its FCS recomputed (R276). -/
def leaveBytes (x : QEnt) (b : Bytes) (p : Parse) : Bytes :=
  let d := frameData b
  let mk (d : Bytes) : Bytes :=
    match p.ip4, p.ip6 with
    | some h, _ =>
      let m := beAt d h.off 2
      let m' := m ||| 3
      let t := (65535 - beAt d (h.off + 10) 2) + (65535 - m) + m'
      let t := t % 65536 + t / 65536
      let t := t % 65536 + t / 65536
      splice (splice d h.off (toBE 2 m')) (h.off + 10) (toBE 2 (65535 - t % 65536))
    | none, some h => splice d h.off (toBE 2 (beAt d h.off 2 ||| 0x30))
    | none, none => d
  if x.mark || x.trunc != 0 then
    let d := if x.mark then mk d else d
    let d := if x.trunc != 0 then d.take (x.trunc - 4) else d
    d ++ fcsOf d
  else b

/-- Deep berths that no other queued frame uses are released (R267). -/
def relDeep (pool : Nat) (l : List Nat) (s : State) : State :=
  let inUse (i : Nat) : Bool := s.bas.q.any (fun e => e.2.any (fun x => has x.deep i))
  setBas (fun b => { b with relDeep := b.relDeep ++ (l.filter (fun i => !inUse i)).map (fun i => (i, pool)) }) s

/-- An entry that has left its queue gives up its share of the stored frame. -/
def releaseEnt (x : QEnt) (s : State) : State :=
  match find? s.bas.frames x.id with
  | none => dropFrm x.id s
  | some f => unref x.id (if x.deep.isEmpty then s else relDeep f.pool x.deep s)

/-- The head frame of a queue leaves it as a frame of its own: its number (R282). -/
def dequeue (q : Nat) (s : State) : Option (Nat × QEnt × State) :=
  match queue q s with
  | [] => none
  | x :: r =>
    if !x.deep.isEmpty && !x.read then none
    else
      let f := frm x.id s
      let b := leaveBytes x f.bytes (parseOf f s)
      let new := s.lic.nextFrame
      let s := newFrm { f with bytes := b, mir := f.mir || x.mir } (setQ q r s)
      let s := ev pgBas 0x011B 1 (if x.deep.isEmpty then s else ev pgBas 0x011A 1 s)
      some (new, x, releaseEnt x s)

/-! ## The mover (R265-R268) -/

/-- MOVER_START and MOVER_STOP (R265). -/
def moverStart (s : State) : State :=
  if rb pgBas 0x100 0 s && s.bas.memReady && decide (rf pgBas 0x104 0 7 s * berthCount ≤ s.bas.used.length * 100) then
    setBas (fun b => { b with moving := true }) s
  else s

def moverStop (s : State) : State :=
  if s.bas.used.length * 100 < rf pgBas 0x104 8 7 s * berthCount then
    setBas (fun b => { b with moving := false, creditWait := false }) s
  else s

def execMoverStart (t : Nat) (s : State) : Res := onLive (fun s => moverStart (advance t s)) s
def execMoverStop (t : Nat) (s : State) : Res := onLive (fun s => moverStop (advance t s)) s

/-- The mover may move an entry (R265). -/
def movable (x : QEnt) (s : State) : Bool :=
  x.deep.isEmpty && !x.started && (match find? s.bas.frames x.id with
    | none => false
    | some f => f.refs == 1 && !rb pgBas (0x400 + 4 * f.pool) 21 s && decide (look 0 s.bas.poolDeep f.pool < poolDeepMax f.pool s))

/-- Bytes of a frame in a deep berth: packed at 64-byte boundaries (R265). -/
def packed (len : Nat) : Nat := (len + 63) / 64 * 64

/-- The pool that pays for a queued frame. -/
def entPool (x : QEnt) (s : State) : Nat := match find? s.bas.frames x.id with
  | some f => f.pool
  | none => 0

/-- The frames that follow in a run: movable ones of the same pool, which pays for all its deep berths (R260), as long as they fit the deep
berth after `taken` bytes. -/
def runOn (pool : Nat) (s : State) : List QEnt → Nat → List QEnt
  | [], _ => []
  | x :: r, taken =>
    if movable x s && entPool x s == pool && decide (taken + packed x.len ≤ 1984) then x :: runOn pool s r (taken + packed x.len) else []

/-- The run that starts at the oldest movable frame behind the keep: entries up to one deep berth of frames, or one larger
frame. `before` counts the bytes ahead. -/
def moverRun (keep : Nat) (s : State) : List QEnt → Nat → List QEnt
  | [], _ => []
  | x :: r, before =>
    if keep < before && movable x s then x :: runOn (entPool x s) s r (packed x.len) else moverRun keep s r (before + x.len)

/-- KEEP in bytes. -/
def moverKeep (s : State) : Nat := max 16 (rf pgBas 0x104 16 16 s) * 1024

/-- The next queue in round-robin order with a run to move. -/
def moverQueue (s : State) : Option (Nat × List QEnt) :=
  let l := s.bas.q.filterMap (fun e =>
    let r := if e.1 < 1048576 then moverRun (moverKeep s) s e.2 0 else []
    if r.isEmpty then none else some (e.1, r))
  match l.find? (fun e => decide (s.bas.moveNext < e.1)) with
  | some e => some e
  | none => l.head?

/-- Network throughput in bytes per TM cycle at 100 percent: 2,000 on the F, 1,000 on the H (R266). -/
def moverShare (s : State) : Nat := min 72 (rf pgBas 0x100 8 8 s) * (if s.fixed.ident.varH then 10 else 20)

/-- The credit counts up to now (R266). -/
def moverCredit (s : State) : State :=
  let c := tmCycle s
  if memFrozen s then setBas (fun b => { b with credit := 0, creditAt := c }) s
  else setBas (fun b => { b with credit := min 65536 (b.credit + (c - b.creditAt) * moverShare s), creditAt := c }) s

/-- `n` deep berths are taken, lowest of the next banks. -/
def takeDeep : Nat → State → List Nat × State
  | 0, s => ([], s)
  | n + 1, s =>
    match nextBerth s.bas.deepUsed [] s.bas.deepBank (deepCount s / 64) with
    | none => ([], s)
    | some b =>
      let s := ev pgBas 0x0113 1 (setBas (fun a => { a with deepUsed := Sys2Proof.Machine.add a.deepUsed b, deepBank := b % 64 }) s)
      let (l, s) := takeDeep n s
      (b :: l, s)

/-- The frames of a confirmed run leave their berths (R265). -/
def moveRun (q : Nat) (run : List QEnt) (deep : List Nat) (s : State) : State :=
  let ids := run.map (·.id)
  let s := setQ q ((queue q s).map (fun x => if ids.contains x.id then { x with deep := deep } else x)) s
  run.foldl (fun a x => match find? a.bas.frames x.id with
    | none => a
    | some f => setBas (fun b => { b with frames := ins b.frames x.id { f with berths := [] } }) (relBerths f.pool f.berths a)) s

/-- DEEP_WRITE_CONFIRM: MEM confirms the write of the mover's next run (R265-R267). -/
def deepWriteConfirm (s : State) : State :=
  if !s.bas.moving then s
  else match moverQueue s with
    | none => s
    | some (q, run) =>
      let total := (run.map (fun x => packed x.len)).sum
      let n := (total + 1983) / 1984
      let s := moverCredit s
      if s.bas.credit < 2048 * n then
        raise pgBas 11 (ev pgBas 0x0115 1 (setBas (fun b => { b with creditWait := true }) s))
      else
        let pool := match run.head? with
          | some x => entPool x s
          | none => 0
        let (deep, s) := takeDeep n (setBas (fun b => { b with credit := b.credit - 2048 * n, creditWait := false, moveNext := q }) s)
        moveRun q run deep (setBas (fun b => { b with poolDeep := put 0 b.poolDeep pool (look 0 b.poolDeep pool + n) }) s)

def execDeepWriteConfirm (t : Nat) (s : State) : Res := onLive (fun s => deepWriteConfirm (advance t s)) s

/-- The first moved frame of a queue that lies within 64 KiB of the head and is not read yet is read, unless a frozen
controller holds a part of it (R267, R357). -/
def readFirst (ok : Nat → Bool) : List QEnt → Nat → List QEnt
  | [], _ => []
  | x :: r, before =>
    if !x.deep.isEmpty && !x.read && decide (before ≤ 65536) then
      (if x.deep.all ok then { x with read := true } :: r else x :: r)
    else x :: readFirst ok r (before + x.len)

def execDeepRead (t q : Nat) : State → Res := onLive fun s =>
  let s := advance t s
  setQ q (readFirst (fun d => !memFrozenAt (d % memCount s) s) (queue q s) 0) s

/-! ## Flushes and ageing (R272-R275) -/

/-- Every frame of a queue that has not started leaves; their number. -/
def flushQueue (q : Nat) (s : State) : Nat × State :=
  let out := (queue q s).filter (fun x => !x.started)
  let s := setQ q ((queue q s).filter (fun x => x.started)) s
  (out.length, ev pgBas 0x0117 out.length (out.foldl (fun a x => releaseEnt x a) s))

/-- A flush of several queues. -/
def flushQueues (l : List Nat) (s : State) : Nat × State :=
  l.foldl (fun a q => let r := flushQueue q a.2; (a.1 + r.1, r.2)) (0, s)

/-- BAS_FLUSH_STAT.BUSY. -/
def flushBusy (s : State) : Bool := s.bas.flushes.any (·.cmd)

/-- BAS_FLUSH_CMD.GO (R274). -/
def basFlushGo (s : State) : State :=
  let q := if rb pgBas 0x124 20 s then puntQ (rf pgBas 0x124 0 9 s) else rf pgBas 0x124 0 20 s
  let (n, s) := flushQueue q s
  setBas (fun b => { b with flushes := b.flushes ++ [⟨true, n⟩], flushed := min n 0xFFFFFF }) s

/-- DOWN_FLUSH: the egress sub-queues of a channel that left UP are flushed (R272). -/
def downFlush (s : State) : State :=
  match s.bas.downPend with
  | [] => s
  | c :: r =>
    let s := setBas (fun b => { b with downPend := r }) s
    let qs := (s.bas.q.filter (fun e => isEgress e.1 && chanOfQ e.1 == c)).map (·.1)
    let (n, s) := flushQueues qs s
    setBas (fun b => { b with flushes := b.flushes ++ [⟨false, n⟩] }) s

/-- FLUSH_DONE (R274). -/
def flushDone (s : State) : State :=
  match s.bas.flushes with
  | [] => s
  | _ :: r => raise pgBas 12 (setBas (fun b => { b with flushes := r }) s)

def execFlushDone (t : Nat) (s : State) : Res := onLive (fun s => flushDone (advance t s)) s

/-- The frames at the head of a queue whose age has passed (R275). -/
def agedHead (limit now : Nat) (s : State) : List QEnt → List QEnt
  | [] => []
  | x :: r => if !x.started && decide ((frm x.id s).stamp + limit ≤ now) then x :: agedHead limit now s r else []

/-- AGER_VISIT of a queue (R275). -/
def agerVisit (q : Nat) (s : State) : State :=
  let ms := tf tbBq q 0 16 16 s
  if ms = 0 then s
  else
    let out := agedHead (ms * 1000000 * nsU) (nowStamp s) s (queue q s)
    if out.isEmpty then s
    else
      let s := setQ q ((queue q s).drop out.length) s
      let s := out.foldl (fun a x => releaseEnt x (queueDrop q a)) s
      raise pgBas 13 (ev pgBas 0x0116 out.length s)

/-! ## Registers and windows of pages 0x190-0x196 -/

def basRo (off : Nat) (s : State) : Option Word :=
  if off = 0x108 then some (w32 (sharedSize s))
  else if off = 0x10C then some (w32 s.bas.shared)
  else if off = 0x110 then some (w32 s.bas.used.length)
  else if off = 0x114 then some (w32 (deepFree s))
  else if off = 0x118 then some (w32 (b2n s.bas.moving + b2n s.bas.creditWait * 2 + b2n s.bas.memReady * 4))
  else if off = 0x11C then some (w32 s.bas.dfree)
  else if off = 0x12C then some (w32 (b2n (flushBusy s) + s.bas.flushed * 256))
  else if 0x700 ≤ off && off < 0x900 then
    (if off % 8 = 0 then some (w32 (poolUsed ((off - 0x700) / 8) s)) else some (w32 (look 0 s.bas.poolDeep ((off - 0x700) / 8))))
  else none

def basWin (p off : Nat) (s : State) : Option WinRef :=
  if off < 0x4000 || 0x8000 ≤ off then none
  else
    let o := off - 0x4000
    match p with
    | 0x191 =>
      if off < 0x6000 then
        let q := rf 0x191 0x100 9 11 s * 512 + o / 16
        let w := o % 16 / 4
        some ⟨tbBq, q, w, 0x4000, q, w, if w = 0 then 0xFFFF01FF else 0, false, true, !queueLive q s⟩
      else
        let u := (off - 0x6000) / 16
        let w := o % 16 / 4
        if 511 < u then none else some ⟨tbBq, puntQ u, w, 0x6000, u, w, if w = 0 then 0xFFFF01FF else 0, false, true, false⟩
    | 0x192 =>
      let i := o / 16
      let w := o % 16 / 4
      if 255 < i then none
      else some ⟨tbWeir, i, w, 0x4000, i, w, if w = 0 then 0xFFFF1F else if w = 3 then 0 else 0xFFFFFFFF, false, true, false⟩
    | 0x193 =>
      let i := rf 0x193 0x100 10 6 s * 1024 + o / 8
      let w := o % 8 / 4
      if 0x6000 ≤ off then none else some ⟨tbDst, i, w, 0x4000, i, w, if w = 0 then 0x3FFFF else 0, false, true, false⟩
    | 0x194 =>
      let i := rf 0x194 0x100 10 6 s * 1024 + o / 8
      let w := o % 8 / 4
      if 0x6000 ≤ off then none else some ⟨tbBGrp, i, w, 0x4000, i, w, if w = 0 then 0xFFF else 0xFFFFF, false, true, false⟩
    | 0x195 =>
      let i := rf 0x195 0x100 11 9 s * 2048 + o / 4
      if 0x6000 ≤ off then none else some ⟨tbMbr, i, 0, 0x4000, i, 0, 0x3FFFF, false, false, false⟩
    | 0x196 =>
      if off < 0x4100 then
        let w := o % 16 / 4
        some ⟨tbMir, o / 16, w, 0x4000, o / 16, w, if w = 0 then 0x3FFFFFF else if w = 1 then 0xFFFF3FFF else 0, false, true, false⟩
      else if 0x5000 ≤ off && off < 0x5400 then
        some ⟨tbPmir, (off - 0x5000) / 4, 0, 0x5000, (off - 0x5000) / 4, 0, 0x3FF, false, false, false⟩
      else none
    | _ => none

def basWinRo (r : WinRef) (s : State) : Option Word :=
  if r.tab = tbBq then
    (match r.word with
     | 1 => some (w32 (min 0xFFFFFFFF (depth r.idx s)))
     | 2 => some (w32 (queue r.idx s).length)
     | 3 => some (w32 (look 0 s.bas.drops r.idx))
     | _ => none)
  else if r.tab = tbMir then
    (match r.word with
     | 2 => some (w32 (look 0 s.bas.mirMade r.idx))
     | 3 => some (w32 (look 0 s.bas.mirRefused r.idx))
     | _ => none)
  else none

/-- Page check of page 0x190 (R278). -/
def basCheck (s : State) : Option Nat :=
  let mn (p : Nat) : Nat := rf pgBas (0x400 + 4 * p) 0 21 s
  if berthCount < ((List.range 64).map mn).sum then some 0x01
  else if (List.range 64).any (fun p => decide (rf pgBas (0x500 + 4 * p) 0 21 s < mn p)) then some 0x02
  else if decide (100 < rf pgBas 0x104 0 7 s) || decide (rf pgBas 0x104 0 7 s ≤ rf pgBas 0x104 8 7 s) then some 0x03
  else none

end Sys2Proof.Machine
end

