-- ==== Sys2Proof/Machine/FabBase.lean ====
section
/-! DEFINITION. The fabric's lanes, links, routes and bulk streams, as the pacer and the express path use them (R307, R313, R322, R329-R331). -/
namespace Sys2Proof.Machine

def setFab (f : Fab → Fab) (s : State) : State := { s with fab := f s.fab }

/-- The FAB control page. -/
def pgFab : Nat := 0x1B0

def fabLane (f : Nat) (s : State) : FabLane := look {} s.fab.lanes f

def setFLane (n : Nat) (g : FabLane → FabLane) (s : State) : State :=
  setFab (fun f => { f with lanes := put {} f.lanes n (g (fabLane n s)) }) s

/-- JOINED lanes of a link, ascending. -/
def joined (k : Nat) (s : State) : List Nat := (s.fab.lanes.filter (fun e => e.2.st == 2 && e.2.link == k)).map (·.1)

/-- JOINED and HOLD lanes of a link. -/
def linkLanes (k : Nat) (s : State) : List Nat :=
  (s.fab.lanes.filter (fun e => (e.2.st == 2 || e.2.st == 3) && e.2.link == k)).map (·.1)

/-- The numbers of the links that exist, ascending. -/
def links (s : State) : List Nat :=
  s.fab.lanes.foldl (fun a e => if e.2.st == 2 || e.2.st == 3 then add a e.2.link else a) []

/-! ## The device in the fabric (R305, R319, R320, R337) -/

/-- The pair logic reports paired operation to FAB. -/
def fabPaired (s : State) : Bool := s.lock.paired

/-- SERIAL of this device's HELLO: its own, or the lower of the pair's (R317). -/
def fabSerial (s : State) : Nat :=
  if fabPaired s then min s.fixed.ident.serial s.pair.mate else s.fixed.ident.serial
def fabPartner (s : State) : Nat := if fabPaired s then max s.fixed.ident.serial s.pair.mate else 0

/-- ACTIVE of a HELLO: both members of a pair send the same HELLO, and only the active one is heard (R317, R337). -/
def fabActive (s : State) : Bool := fabPaired s || s.pair.role == .active || s.pair.role == .solo

/-- Another device of lower SERIAL carries this device's address: data stops (R320). -/
def fabStopped (s : State) : Bool :=
  s.fab.devs.any (fun e => decide (e.1 < fabSerial s) && nbit e.2.flags 0 && s.fab.addr == some e.2.addr)

/-- The device sends and accepts data barges (R305, R320). -/
def fabData (s : State) : Bool := s.fab.addr.isSome && !fabStopped s

/-- FLAGS of R317. -/
def fabFlags (s : State) : Nat :=
  b2n s.fab.addr.isSome + b2n (fabPaired s) * 2 + b2n (fabActive s) * 4 + b2n (rb pgFab 0x100 3 s) * 8 + b2n s.fab.isMaster * 16

/-! ## Barges and pools (R309, R313) -/

/-- Blocks of a barge (R308). -/
def Barge.blocks (b : Barge) : Nat := 1 + (b.pay.length + 15) / 16

/-- The credit pool of a barge; none for IDLE and HELLO (R310, R313). -/
def Barge.pool (b : Barge) : Option Nat :=
  if b.type = 1 || b.type = 3 then some (4 + b.hops)
  else if b.type = 2 then some (1 + b.hops)
  else if b.type = 0 || b.type = 8 then none
  else some 0

/-- Transmit credit of a lane in a pool, less the barges queued on it. -/
def laneCredit (f p : Nat) (s : State) : Nat :=
  let l := fabLane f s
  look 0 l.credit p - (((l.ctl ++ l.xq ++ l.bulk ++ l.tree).filter (fun b => b.pool == some p)).map (·.blocks)).sum

/-! ## Routes (R322) -/

/-- A path: its index, first link, hops, weight and NO_EXPRESS. -/
structure Path where
  idx : Nat
  link : Nat
  hops : Nat
  weight : Nat
  noExp : Bool
  deriving DecidableEq, Repr

/-- The valid paths to a device, in entry order. -/
def pathsTo (v : Nat) (s : State) : List Path :=
  (List.range (min 64 (tf tbRt v 0 0 7 s))).filterMap (fun i =>
    let w := tf tbRt v (4 + i / 2) (i % 2 * 16) 16 s
    if nbit w 15 && nfld w 8 2 != 0 then some ⟨i, nfld w 0 8, nfld w 8 2, nfld w 10 4, nbit w 14⟩ else none)

/-- The express route list (R322). -/
def expRoutes (v : Nat) (s : State) : List Path := (pathsTo v s).filter (fun p => !p.noExp)

/-- The device and channel group of a fabric destination port (R307). -/
def portDev (d : Nat) (s : State) : Option (Nat × Nat) :=
  if tb tbFPort d 0 0 s then some (tf tbFPort d 0 1 10 s, tf tbFPort d 0 11 3 s) else none

/-! ## Streams and spraying (R329-R331) -/

/-- The stream of class Bk toward device v and group g. -/
def streamNo (v g k : Nat) : Nat := 64 * v + 8 * g + k

def fabStream (n : Nat) (s : State) : FabStream := look {} s.fab.streams n

/-- Barges of a stream sent or numbered beyond ACKED. -/
def streamAhead (n : Nat) (s : State) : Nat := ((fabStream n s).next + 65536 - (fabStream n s).acked) % 65536

/-- A joined lane of the path's first link has credit for a full barge at the path's hops (R330). -/
def pathLane (p : Path) (blocks : Nat) (s : State) : Option Nat :=
  let l := (joined p.link s).filter (fun f => decide (blocks ≤ laneCredit f (4 + p.hops - 1) s))
  match l.find? (fun f => decide (look 0 s.fab.rrLane p.link < f)) with
  | some f => some f
  | none => l.head?

/-- FAB's transmit credit for a virtual output queue (R331): room for the stream's window and a path with credit. -/
def fabTxOk (q : Nat) (s : State) : Bool :=
  match portDev (q / 8) s with
  | none => false
  | some (v, g) =>
    fabData s && decide (streamAhead (streamNo v g (q % 8)) s + 32 ≤ 4096) && s.fab.bulkOut.isEmpty &&
    (pathsTo v s).any (fun p => p.weight != 0 && (pathLane p 33 s).isSome)

/-- The spray counter of a path. -/
def sprayCur (v i : Nat) (s : State) : Int := look 0 s.fab.cur (v * 64 + i)

/-- The path of at most `maxHops` hops that R330 chooses for a bulk barge, with the counters after; none when every path waits for credit. -/
def sprayChoose (v blocks maxHops : Nat) (s : State) : Option Path × State :=
  let (ps, s) := ((pathsTo v s).filter (fun p => p.weight != 0 && decide (p.hops ≤ maxHops))).foldl (fun (a : List Path × State) p =>
      if (pathLane p blocks a.2).isSome then
        (a.1 ++ [p], setFab (fun f => { f with cur := put 0 f.cur (v * 64 + p.idx) (sprayCur v p.idx a.2 + p.weight) }) a.2)
      else (a.1, ev pgFab 0x0112 1 a.2)) (([] : List Path), s)
  let total : Nat := (ps.map (·.weight)).sum
  match ps.foldl (fun (a : Option Path) p => match a with
      | none => some p
      | some b => if sprayCur v b.idx s < sprayCur v p.idx s then some p else some b) none with
  | none => (none, s)
  | some p => (some p, setFab (fun f => { f with cur := put 0 f.cur (v * 64 + p.idx) (sprayCur v p.idx s - total) }) s)

/-- A bulk barge takes a path and a lane, and its sequence number if it has none yet; or it waits (R330). -/
def sprayOne (strm : Option Nat) (b : Barge) (s : State) : Bool × State :=
  let full := match strm with
    | some n => decide (4096 ≤ streamAhead n s)
    | none => false
  if full then (false, s)
  else
    let (p, s) := sprayChoose b.dest b.blocks (if b.fid = 0 then 3 else b.hops + 1) s
    match p with
    | none => (false, s)
    | some p =>
      match pathLane p b.blocks s with
      | none => (false, s)
      | some f =>
        let s := setFab (fun g => { g with rrLane := put 0 g.rrLane p.link f }) s
        match strm with
        | none => (true, setFLane f (fun l => { l with bulk := l.bulk ++ [{ b with hops := p.hops - 1 }] }) s)
        | some n =>
          let q := (fabStream n s).next
          let s := setFab (fun g => { g with streams := put {} g.streams n { fabStream n s with next := (q + 1) % 65536 } }) s
          (true, setFLane f (fun l => { l with bulk := l.bulk ++ [{ b with hops := p.hops - 1, seq := q }] }) s)

/-- The stream of a barge of this device. -/
def bargeStream (b : Barge) (s : State) : Nat :=
  let g := match portDev b.dfp s with
    | some (_, g) => g
    | none => 0
  streamNo b.dest g b.cls

/-- Waiting bulk barges take their lanes, in order, as far as credit and windows allow. Barges of `bulkOut` carry no number
yet, but those that a lane gave back (R330), which stand first and keep theirs. -/
def sprayWaiting : List Barge → List Barge → State → List Barge × State
  | [], keep, s => (keep, s)
  | b :: r, keep, s =>
    if keep.any (fun x => bargeStream x s == bargeStream b s) then sprayWaiting r (keep ++ [b]) s
    else
      let (ok, s) := sprayOne (if b.bad || b.fid != 0 then none else some (bargeStream b s)) { b with bad := false } s
      sprayWaiting r (if ok then keep else keep ++ [b]) s

/-- The waiting barges are tried again. -/
def sprayAgain (s : State) : State :=
  let (l, s) := sprayWaiting s.fab.bulkOut [] (setFab (fun f => { f with bulkOut := [] }) s)
  setFab (fun f => { f with bulkOut := l }) s

/-- The payloads of a frame's barges: 512 bytes each but the last (R329). -/
def chunks : Nat → Bytes → List Bytes
  | 0, _ => []
  | n + 1, b => if b.length ≤ 512 then [b] else b.take 512 :: chunks n (b.drop 512)

/-- The barges of a frame, from a first header. -/
def bargesOf (h : Barge) (b : Bytes) : List Barge :=
  let c := chunks 40 b
  (c.zipIdx).map (fun e => { h with
    pay := e.1, sof := e.2 == 0, eof := e.2 + 1 == c.length, own := h.own.map (fun o => { o with pos := 512 * e.2 }) })

/-- A granted bulk frame for another device is handed to its stream (R282, R329). -/
def fabBulk (d k colour : Nat) (ect : Bool) (own : BargeOwn) (b : Bytes) (s : State) : State :=
  match portDev d s, s.fab.addr with
  | some (v, _), some a =>
    let h : Barge := { type := 1, dest := v, src := a, cls := k, dfp := d, colour := colour, ect := ect, own := some own }
    sprayAgain (setFab (fun f => { f with bulkOut := f.bulkOut ++ bargesOf h b }) s)
  | _, _ => s

end Sys2Proof.Machine
end

