-- ==== Sys2Proof/Machine/Pcr.lean ====
section
/-! DEFINITION. The pacer: the scheduling tree, shaping, grants, refill, gates, PAUSE and PFC generation (R280-R304). -/
namespace Sys2Proof.Machine

/-- The PCR control page. -/
def pgPcr : Nat := 0x1A0

/-! ## Nodes and queues (R280, R281) -/

/-- The key of node or queue `i` of a level: 0 port, 1 class group, 2 service, 3 aggregate, 4 queue, 5 profile (R291). -/
def nkey (lvl i : Nat) : Nat := lvl * 1048576 + i

/-- Nodes of a level. -/
def nodeCount (lvl : Nat) : Nat :=
  match lvl with
  | 0 => 1280 | 1 => 10240 | 2 => 65536 | 3 => 262144 | 4 => 1048576 | _ => 131072

/-- The node or queue exists on this variant (R280). -/
def nodeLive (lvl i : Nat) (s : State) : Bool :=
  decide (i < nodeCount lvl) && !(s.fixed.ident.varH &&
    ((lvl == 0 && decide (128 ≤ i) && decide (i < 256)) || (lvl == 1 && decide (1024 ≤ i) && decide (i < 2048)) ||
     (lvl == 4 && decide (786432 ≤ i))))

/-- A word of a node or queue entry. -/
def nodeW (lvl i w : Nat) (s : State) : Word := if lvl = 4 then tw tbQ i w s else tw tbNode (lvl * 262144 + i) w s

/-- The parent's number, by level: a queue's aggregate, an aggregate's service, a service's class group, a class group's port. -/
def parentOf (lvl i : Nat) (s : State) : Nat :=
  match lvl with
  | 4 => fld (nodeW 4 i 1 s) 0 18
  | 3 => fld (nodeW 3 i 1 s) 0 16
  | 2 => fld (nodeW 2 i 1 s) 0 14
  | 1 => i / 8
  | _ => i

/-- The port node above a node. -/
def portAbove : Nat → Nat → State → Nat
  | 0, i, _ => i
  | lvl + 1, i, s => portAbove lvl (parentOf (lvl + 1) i s) s

/-- A queue's own port (R281). -/
def ownPort (q : Nat) (s : State) : Option Nat :=
  if isEgress q then some (chanOfQ q)
  else match portDev (q / 8) s with
    | some (v, _) => some (256 + v)
    | none => none

/-- The queue and the nodes above it. -/
structure Chain where
  q : Nat
  agg : Nat
  srv : Nat
  cg : Nat
  port : Nat
  deriving DecidableEq, Repr

def chainOf (q : Nat) (s : State) : Chain :=
  let a := parentOf 4 q s
  let v := parentOf 3 a s
  let g := parentOf 2 v s
  ⟨q, a, v, g, g / 8⟩

/-- The number of the chain's node at a level. -/
def Chain.at_ (c : Chain) (lvl : Nat) : Nat :=
  match lvl with
  | 0 => c.port | 1 => c.cg | 2 => c.srv | 3 => c.agg | _ => c.q

/-- Chains of the queues that hold a frame and reach port node `p`. -/
def chainsOf (p : Nat) (s : State) : List Chain :=
  (s.bas.q.filterMap (fun e => if decide (e.1 < 1048576) && !e.2.isEmpty then some (chainOf e.1 s) else none)).filter (·.port == p)

/-! ## Shaping state (R287) -/

def bucket (k : Nat) (s : State) : Bucket := look {} s.pcr.bucket k

def setBucket (k : Nat) (b : Bucket) (s : State) : State := setPcr (fun p => { p with bucket := put {} p.bucket k b }) s

/-- A field of the profile that a bucket has in force. -/
def profW (b : Bucket) (w : Nat) (s : State) : Word := tw tbProf (b.bank * 65536 + b.prof) w s

/-- Blocked: P_EN with PL below zero. -/
def blocked (k : Nat) (s : State) : Bool :=
  let b := bucket k s
  bitOf (profW b 2 s) 31 && decide (b.pl < 0)

/-- Committed: C_EN with CL not below zero. -/
def committed (k : Nat) (s : State) : Bool :=
  let b := bucket k s
  bitOf (profW b 0 s) 31 && decide (0 ≤ b.cl)

/-- The node's entry, or the profile that it has in force, is BAD (R291). -/
def badNode (k : Nat) (s : State) : Bool :=
  has s.pcr.bad k || has s.pcr.bad (nkey 5 ((bucket k s).bank * 65536 + (bucket k s).prof))

/-! ## Eligibility (R283) -/

/-- A node of levels 0-3 lets its children through, but for its peak bucket. -/
def nodeOpen (lvl i : Nat) (s : State) : Bool :=
  nodeLive lvl i s && bitOf (nodeW lvl i 0 s) 0 && !badNode (nkey lvl i) s &&
  (lvl != 0 || decide (i < 256) || rb pgPcr 0x100 0 s)

def nodeOk (lvl i : Nat) (s : State) : Bool := nodeOpen lvl i s && !blocked (nkey lvl i) s

/-- Staging credit left, by channel and class (R284). -/
def credit (c k : Nat) (s : State) : Nat := 32768 - look 0 s.pcr.creditUsed (8 * c + k)

/-- The head frame of a queue is ready to be dequeued. -/
def headReady (q : Nat) (s : State) : Bool :=
  match queue q s with
  | [] => false
  | x :: _ => x.deep.isEmpty || x.read

/-- Length of a queue's head frame. -/
def headLen (q : Nat) (s : State) : Nat :=
  match queue q s with
  | [] => 0
  | x :: _ => x.len

/-- The class of the queue is held on its channel (R111). -/
def queueHeld (q : Nat) (s : State) : Bool := isEgress q && classHeld (chanOfQ q) (q % 8) s

/-- A replay frame is due on the channel: it is granted ahead of the channel's B7 queues (R385). -/
def replayDue (c : Nat) (s : State) : Bool :=
  match s.arc.rpl with
  | none => false
  | some r => r.chan == c && rf 0x1D0 0x164 0 19 s != 0 && decide (r.nextAt ≤ nowStamp s)

/-- The conditions of R283 on a queue, but for PAUSE and PFC and its peak bucket. -/
def queueOpen (q : Nat) (s : State) : Bool :=
  headReady q s && queueLive q s && !has s.pcr.miswired q && !badNode (nkey 4 q) s &&
  ownPort q s == some (chainOf q s).port &&
  (if isEgress q then decide (headLen q s ≤ credit (chanOfQ q) (q % 8) s) && !(q % 8 == 7 && replayDue (chanOfQ q) s) else fabTxOk q s)

def queueOk (q : Nat) (s : State) : Bool := queueOpen q s && !queueHeld q s && !blocked (nkey 4 q) s

/-- Chains of a port whose queue is eligible and whose nodes down to level `lvl` are eligible with it. -/
def liveAt (lvl : Nat) (l : List Chain) (s : State) : List Chain :=
  l.filter (fun c => queueOk c.q s && (upto lvl (4 - lvl)).all (fun i => i == 4 || nodeOk i (c.at_ i) s))

/-- The child would be eligible but for its own peak bucket or a PAUSE or PFC hold (R286). -/
def keptAt (lvl : Nat) (l : List Chain) (s : State) : List Chain :=
  l.filter (fun c => queueOpen c.q s && (lvl == 4 || !blocked (nkey 4 c.q) s) &&
    (upto lvl (4 - lvl)).all (fun i => if i = lvl then nodeOpen i (c.at_ i) s else nodeOk i (c.at_ i) s))

/-! ## Tags and selection (R285, R286) -/

def tagOf (k : Nat) (s : State) : PTag := look {} s.pcr.tag k
def setTag (k : Nat) (x : PTag) (s : State) : State := setPcr (fun p => { p with tag := put {} p.tag k x }) s

/-- The virtual time of a node. -/
def vtOf (k : Nat) (s : State) : Nat := look 0 s.pcr.vt k

/-- WEIGHT of a child; 0 acts as 1. -/
def weightOf (lvl i : Nat) (s : State) : Nat := max 1 (fld (nodeW lvl i 0 s) 16 16)

/-- `a` is ahead of `b` or equal, modulo 2^48. -/
def aheadEq (a b : Nat) : Bool := decide ((a + 2 ^ 48 - b % 2 ^ 48) % 2 ^ 48 ≤ 2 ^ 47)

/-- Child `i` of a level goes before child `j` (R285). -/
def goesBefore (lvl i j : Nat) (s : State) : Bool :=
  let ci := committed (nkey lvl i) s
  let cj := committed (nkey lvl j) s
  let pi := fld (nodeW lvl i 0 s) 1 3
  let pj := fld (nodeW lvl j 0 s) 1 3
  let fi := (tagOf (nkey lvl i) s).f
  let fj := (tagOf (nkey lvl j) s).f
  if ci != cj then ci
  else if pi ≠ pj then decide (pi < pj)
  else if fi ≠ fj then aheadEq fj fi
  else decide (i < j)

/-- The child of a level that R285 selects among the chains of its parent. -/
def bestChild (lvl : Nat) (l : List Chain) (s : State) : Option Nat :=
  l.foldl (fun a c => match a with
    | none => some (c.at_ lvl)
    | some i => if c.at_ lvl ≠ i && goesBefore lvl (c.at_ lvl) i s then some (c.at_ lvl) else some i) none

/-- The chain that the selection reaches: `n` levels to go, the next of them level 5 - n. -/
def selectDown : Nat → List Chain → State → Option Chain
  | 0, l, _ => l.head?
  | n + 1, l, s =>
    match bestChild (4 - n) l s with
    | none => none
    | some i => selectDown n (l.filter (fun c => c.at_ (4 - n) == i)) s

/-- The length of the next frame of node `i` of a level. -/
def nextLen (lvl i : Nat) (l : List Chain) (s : State) : Nat :=
  match selectDown (4 - lvl) (l.filter (fun c => c.at_ lvl == i)) s with
  | some c => headLen c.q s
  | none => 0

/-- How far a frame moves a child's tag. -/
def tagStep (lvl i len : Nat) (s : State) : Nat := len * 65536 / weightOf lvl i s

/-- The tags of child `i` of a level follow its eligibility; `won` for the child just granted through (R286). -/
def syncOne (lvl i : Nat) (live kept : List Chain) (won : Bool) (s : State) : State :=
  let k := nkey lvl i
  let x := tagOf k s
  let v := vtOf (nkey (lvl - 1) (parentOf lvl i s)) s
  if live.any (fun c => c.at_ lvl == i) then
    let step := tagStep lvl i (nextLen lvl i live s) s
    let go (st : Nat) : State := setTag k { s := st % 2 ^ 48, f := (st + step) % 2 ^ 48, elig := true } s
    if x.elig then (if won then go x.f else s)
    else if x.kept then go (if aheadEq x.s v then x.s else v)
    else go v
  else
    let x := if won then { x with s := x.f } else x
    setTag k { x with elig := false, kept := (x.elig || x.kept) && kept.any (fun c => c.at_ lvl == i) } s

/-- Children of a level below port `p` that may have tags to bring up to date. -/
def syncKeys (lvl p : Nat) (l : List Chain) (s : State) : List Nat :=
  let known := s.pcr.tag.filterMap (fun e =>
    if e.1 / 1048576 == lvl && (e.2.elig || e.2.kept) && portAbove lvl (e.1 % 1048576) s == p then some (e.1 % 1048576) else none)
  l.foldl (fun a c => add a (c.at_ lvl)) known

/-- The tags below port `p`, from the queues up; `won` is the chain just granted. -/
def syncPort (p : Nat) (won : Option Chain) (s : State) : State :=
  let l := chainsOf p s
  [4, 3, 2, 1].foldl (fun a lvl =>
    let live := liveAt lvl l a
    let kept := keptAt lvl l a
    (syncKeys lvl p l a).foldl (fun a i => syncOne lvl i live kept (match won with
      | some c => c.at_ lvl == i
      | none => false) a) a) s

/-- Queues have lost frames other than by a grant: their ports' tags follow. -/
def syncQueues (qs : List Nat) (s : State) : State :=
  (qs.foldl (fun a q => if q < 1048576 then add a (chainOf q s).port else a) []).foldl (fun a p => syncPort p none a) s

/-! ## Grants (R282, R284, R287) -/

/-- A queue that reaches port `p` and is not its own is miswired: found once (R281). -/
def findMiswired (p : Nat) (s : State) : State :=
  (chainsOf p s).foldl (fun a c =>
    if ownPort c.q a == some p || has a.pcr.miswired c.q || !headReady c.q a then a
    else raise pgPcr 9 (ev pgPcr 0x0112 1 (bump pgPcr 0x110 0 32 1
      (setPcr (fun x => { x with
        miswired := Sys2Proof.Machine.add x.miswired c.q, miswireLast := c.q + p % 2048 * 2 ^ 20 + 2 ^ 31 }) a)))) s

/-- An entry fails parity: it is BAD and reported (R291). -/
def pcrParity (lvl i : Nat) (s : State) : State :=
  raise pgPcr 10 (ev pgPcr 0x0113 1 (setPcr (fun x => { x with
    bad := Sys2Proof.Machine.add x.bad (nkey lvl i),
    perrLast := (if lvl = 5 then i % 65536 else i) % 2 ^ 20 + lvl % 8 * 2 ^ 20 + 2 ^ 31 }) s))

/-- The overhead of a port node; a fabric port node has 20 bytes (log entry 40). -/
def portOvh (p : Nat) (s : State) : Int := if p < 256 then sgn (rd pgPcr (0x200 + 4 * p) s).toNat 8 else 20

/-- The least level that the 25-bit level words hold, in the scale of the levels. -/
def leastLevel : Int := -(16777216 * (secU : Int))

/-- A grant takes from both levels (R287). -/
def chargeNode (n : Int) (k : Nat) (s : State) : State :=
  let b := bucket k s
  setBucket k { b with cl := max leastLevel (b.cl - n * secU), pl := max leastLevel (b.pl - n * secU) } s

/-- The TX mirror's copy of the head frame of an egress sub-queue, as the basin reads it: it shares the frame's berths, or takes
new ones when the frame has moved to HBM (R276, R277). -/
def txMirrorBulk (q : Nat) (s : State) : State :=
  match (if isEgress q then txMirror (chanOfQ q) s else none), queue q s with
  | some m, x :: _ =>
    if x.mir || (frm x.id s).mir then s
    else if x.deep.isEmpty && (find? s.bas.frames x.id).isSome then
      mirrorBulk m x.id { req := .host, dest := .drop, cls := 0, ect := ectOf (parseOf (frm x.id s) s) } x.len s
    else mirrorFork m x.id s
  | _, _ => s

/-- The granted frame goes to its channel's staging, or to the fabric (R282, R284). -/
def grantOut (q : Nat) (s : State) : State :=
  match dequeue q (txMirrorBulk q s) with
  | none => s
  | some (id, x, s) =>
    if isEgress q then
      let c := chanOfQ q
      let k := q % 8
      let s := setPcr (fun p => { p with
        creditUsed := put 0 p.creditUsed (8 * c + k) (look 0 p.creditUsed (8 * c + k) + x.len), out := ins p.out id q }) s
      setPort c (fun p => { p with stage := put [] p.stage k (look [] p.stage k ++ [id]) }) s
    else
      let f := frm id s
      if pdelayStops f.src (parseOf f s).ptp s then dropFrm id s
      else fabBulk (q / 8) (q % 8) x.colour (ectOf (parseOf f s)) ⟨f.stamp, f.gen, f.src, false, 0⟩ (stripped f s) (dropFrm id s)

/-- The tags and virtual times that a grant moves. -/
def grantTags (c : Chain) (s : State) : State :=
  [1, 2, 3, 4].foldl (fun a lvl =>
    setPcr (fun p => { p with vt := put 0 p.vt (nkey (lvl - 1) (c.at_ (lvl - 1))) (tagOf (nkey lvl (c.at_ lvl)) a).f }) a) s

/-- The port nodes granted so far in the TM cycle of now. -/
def grantedNow (s : State) : List Nat := if s.pcr.cycle = tmCycle s then s.pcr.granted else []

/-- The cycle has a grant left for port node `p`: 24 to the network ports, 24 to the fabric ports, one to a network port (R282). -/
def grantLeft (p : Nat) (s : State) : Bool :=
  let l := grantedNow s
  if p < 256 then !has l p && decide ((l.filter (fun c => decide (c < 256))).length < 24)
  else decide ((l.filter (fun c => decide (256 ≤ c))).length < 24)

/-- A grant to port node `p` is counted in its cycle. -/
def grantNote (p : Nat) (s : State) : State :=
  setPcr (fun x => { x with cycle := tmCycle s, granted := p :: grantedNow s }) s

/-- GRANT at port node `p` (R282-R287). `bad` names the entry whose parity fails as the selection reads it. -/
def grant (p : Nat) (bad : Option (Nat × Nat)) (s : State) : State :=
  if !rb pgPcr 0x008 0 s || decide (1280 ≤ p) || s.pair.egressHold || !grantLeft p s then s
  else
    let s := match bad with
      | some (lvl, i) => if lvl ≤ 5 && decide (i < nodeCount lvl) then pcrParity lvl i s else s
      | none => s
    let s := syncPort p none (findMiswired p s)
    match selectDown 4 (liveAt 0 (chainsOf p s) s) s with
    | none => s
    | some c =>
      let len := headLen c.q s
      let s := grantNote p s
      let s := ev pgPcr 0x0102 len (ev pgPcr (if p < 256 then 0x0100 else 0x0101) 1 s)
      let s := if committed (nkey 1 c.cg) s then s else ev pgPcr 0x0103 1 s
      let s := (List.range 5).foldl (fun a lvl => chargeNode (len + portOvh p s) (nkey lvl (c.at_ lvl)) a) s
      syncPort p (some c) (grantOut c.q (grantTags c s))

def execGrant (t p : Nat) (bad : Option (Nat × Nat)) (s : State) : Res := onService (fun s => grant p bad (advance t s)) s

/-- CREDIT_RETURN: the oldest length on its way back is credited (R284). -/
def creditReturn (s : State) : State :=
  match s.pcr.ret with
  | [] => s
  | (k, n) :: r => setPcr (fun p => { p with ret := r, creditUsed := put 0 p.creditUsed k (look 0 p.creditUsed k - n) }) s

def execCreditReturn (t : Nat) (s : State) : Res := onLive (fun s => creditReturn (advance t s)) s

/-- DOWN_FLUSH and AGER_VISIT with the pacer's view of the queues that they empty (R272, R275). -/
def downFlushed (s : State) : State :=
  let qs := match s.bas.downPend with
    | [] => []
    | c :: _ => (s.bas.q.filter (fun e => isEgress e.1 && chanOfQ e.1 == c)).map (·.1)
  syncQueues qs (downFlush s)

def execDownFlush (t : Nat) (s : State) : Res := onLive (fun s => downFlushed (advance t s)) s

def execAgerVisit (t q : Nat) (s : State) : Res := onLive (fun s => syncQueues [q] (agerVisit q (advance t s))) s

/-! ## Refill (R288-R290) -/

/-- The refill of a bucket at stamp `t`, with the profile that the entry and the live bank name. -/
def refilled (b : Bucket) (prof t : Nat) (s : State) : Bucket :=
  let b := { b with bank := rf pgPcr 0x104 0 1 s, prof := prof }
  if b.last < t then
    let w (i : Nat) : Word := profW b i s
    { b with
      cl := if bitOf (w 0) 31 then min (scaled (fld (w 1) 0 24)) (b.cl + rateBytes (fld (w 0) 0 28) (t - b.last)) else b.cl
      pl := if bitOf (w 2) 31 then min (scaled (fld (w 3) 0 24)) (b.pl + rateBytes (fld (w 2) 0 28) (t - b.last)) else b.pl
      last := t }
  else b

/-- REFILL_VISIT of the next node of a level; `bad`: 1 when its entry fails parity, 2 when its profile does (R288-R291). -/
def refillVisit (lvl bad : Nat) (s : State) : State :=
  if 4 < lvl || !rb pgPcr 0x008 0 s then s
  else
    let i := look 0 s.pcr.pos lvl
    let left := look 0 s.pcr.flip lvl
    let s := ev pgPcr 0x0114 1 (setPcr (fun p => { p with
      pos := put 0 p.pos lvl ((i + 1) % nodeCount lvl), flip := put 0 p.flip lvl (left - 1) }) s)
    let s := if left = 1 && s.pcr.flip.isEmpty then raise pgPcr 12 s else s
    if !nodeLive lvl i s then s
    else
      let k := nkey lvl i
      let b := refilled (bucket k s) (fld (nodeW lvl i 2 s) 0 16) (nowStamp s) s
      if bad = 1 then pcrParity lvl i s
      else if bad = 2 then pcrParity 5 (b.bank * 65536 + b.prof) s
      else setBucket k b s

def execRefillVisit (t lvl bad : Nat) (s : State) : Res := onLive (fun s => refillVisit lvl bad (advance t s)) s

/-- PCR_PROF_BANK has changed: on an enabled page every level has a pass to complete (R289, log entry 23). -/
def bankFlipped (s : State) : State :=
  if !rb pgPcr 0x008 0 s then s else setPcr (fun p => { p with flip := (List.range 5).map (fun l => (l, nodeCount l)) }) s

/-- PCR_STAT.FLIP_PENDING. -/
def flipPending (s : State) : Bool := !s.pcr.flip.isEmpty

/-! ## Gates (R296-R300) -/

def gateCh (c : Nat) (s : State) : GateCh := look {} s.pcr.gate c
def setGate (c : Nat) (f : GateCh → GateCh) (s : State) : State :=
  setPcr (fun p => { p with gate := put {} p.gate c (f (gateCh c s)) }) s

/-- The gate page. -/
def pgGate : Nat := 0x1A5

/-- The table index of entry `j` of a list. -/
def gclIdx (c l j : Nat) : Nat := (l * 256 + c) * 1024 + j

/-- Cycle time of a list in stamp units, and its entries in use. -/
def gateCycle (c l : Nat) (s : State) : Nat := max 1 (rf pgGate (0x1004 + 4 * l + 16 * c) 0 30 s) * nsU
def gateEntries (c l : Nat) (s : State) : Nat := min 1024 (rf pgGate (0x100C + 16 * c) (16 * l) 11 s)

/-- The first instant at or after `t` at which a list starts entry 0 (R297). -/
def cycleFrom (c l t : Nat) (s : State) : Nat :=
  let y := gateCycle c l s
  (t + y - 1) / y * y

/-- A change of a channel's gates: its instant and the new GATES. -/
structure GateEv where
  at_ : Nat
  gates : Nat
  deriving DecidableEq, Repr

/-- The openings of a list's entries in a cycle that starts at `st`. -/
def openings (c l st : Nat) (s : State) : List GateEv :=
  ((List.range (gateEntries c l s)).foldl (fun (a : List GateEv × Nat) j =>
    (a.1 ++ [⟨a.2, tf tbGcl (gclIdx c l j) 0 0 8 s⟩], a.2 + tf tbGcl (gclIdx c l j) 1 0 30 s * nsU)) ([], st)).1

/-- The start of the cycle in which instant `t` lies: a regular start, or the restart after a step (R297). -/
def cycleStart (c l t : Nat) (restart : Option Nat) (s : State) : Nat :=
  let y := gateCycle c l s
  match restart with
  | some r => if r ≤ t && t / y * y < r then r else t / y * y
  | none => t / y * y

/-- The first opening of a list after instant `t`. -/
def listNext (c l t : Nat) (restart : Option Nat) (s : State) : Option GateEv :=
  if gateEntries c l s = 0 then none
  else
    let st := cycleStart c l t restart s
    let nxt := (st / gateCycle c l s + 1) * gateCycle c l s
    let nxt := match restart with
      | some r => if t < r && r < nxt then r else nxt
      | none => nxt
    match (openings c l st s).find? (fun e => decide (t < e.at_) && decide (e.at_ < nxt)) with
    | some e => some e
    | none => (openings c l nxt s).head?

/-- The first gate change of a channel after instant `t` (R297, R298). -/
def gateNext (c t : Nat) (s : State) : Option GateEv :=
  let g := gateCh c s
  let cur := if g.en then listNext c g.sel t g.restart s else none
  match g.pend with
  | none => cur
  | some (tp, en, sel) =>
    let first : GateEv := if en then ((openings c sel tp s).head?).getD ⟨tp, 0xFF⟩ else ⟨tp, 0xFF⟩
    if t < tp then (match cur with
      | some e => if e.at_ < tp then some e else some first
      | none => some first)
    else if en then listNext c sel t none s
    else none

/-- A change of SEL or EN whose instant has come is the channel's selection (R298). -/
def gateSettle (c : Nat) (s : State) : State :=
  match (gateCh c s).pend with
  | some (tp, en, sel) =>
    if tp ≤ nowStamp s then ev pgPcr 0x010C 1 (setGate c (fun g => { g with pend := none, en := en, sel := sel }) s) else s
  | none => s

/-- A lock changed PCR_GATE_CTL of a channel at T: it applies at the first cycle start of the list at or after T (R298). -/
def gateApplied (c t : Nat) (s : State) : State :=
  let s := gateSettle c s
  let en := rb pgGate (0x1000 + 16 * c) 0 s
  let sel := rf pgGate (0x1000 + 16 * c) 1 1 s
  let g := gateCh c s
  if g.en = en && g.sel = sel then setGate c (fun g => { g with pend := none }) s
  else
    let tp := cycleFrom c sel t s
    setGate c (fun g => { g with
      pend := some (tp, en, sel)
      notes := g.notes.filter (fun n => decide (n.at_ < tp))
      sent := match g.sent with
        | some x => if tp ≤ x then some (tp - 1) else some x
        | none => none }) s

/-- After a forward step every enabled list starts entry 0 at the first issued boundary `b` (R297). -/
def gatesRestart (b : Nat) (s : State) : State :=
  setPcr (fun p => { p with gate := p.gate.map (fun e =>
    (e.1, if e.2.en then { e.2 with restart := some b, sent := some (b - 1), notes := e.2.notes.filter (fun n => decide (n.at_ < b)) } else e.2)) }) s

/-- GATE_NOTICE: the pacer sends the next gate change of a channel to its MAC (R299). -/
def gateNotice (c : Nat) (s : State) : State :=
  let s := gateSettle c s
  let g := gateCh c s
  if 64 ≤ g.notes.length || 256 ≤ c || !rb pgGate 0x008 0 s then s
  else match gateNext c (g.sent.getD (nowStamp s - 1)) s with
    | none => s
    | some e =>
      ev pgPcr 0x010A 1 (setGate c (fun g => { g with
        sent := some e.at_, notes := g.notes ++ [⟨e.at_, e.gates, (gateNext c e.at_ s).map (·.at_)⟩] }) s)

/-- GATE_APPLY: the MAC applies its oldest notice at its instant (R299). -/
def gateApply (c : Nat) (s : State) : State :=
  let s := gateSettle c s
  match (gateCh c s).notes with
  | [] => s
  | n :: r =>
    if n.at_ ≤ nowStamp s then setGate c (fun g => { g with notes := r, open_ := n.gates, follow := n.next }) s else s

/-- GATE_MISS: the following change has come without a newer notice: every bulk gate closes (R299). -/
def gateMiss (c : Nat) (s : State) : State :=
  let s := gateSettle c s
  let g := gateCh c s
  match g.follow with
  | some f =>
    if f ≤ nowStamp s && g.notes.isEmpty then
      let w := rd pgPcr 0x118 s
      raise pgPcr 11 (ev pgPcr 0x0111 1 (wr pgPcr 0x118 (w32 (c % 256 + satAdd (fld w 8 24) 1 0xFFFFFF * 256))
        (setGate c (fun g => { g with open_ := 0, follow := none }) s)))
    else s
  | none => s

def execGateNotice (t c : Nat) (s : State) : Res := onLive (fun s => gateNotice c (advance t s)) s
def execGateApply (t c : Nat) (s : State) : Res := onLive (fun s => gateApply c (advance t s)) s
def execGateMiss (t c : Nat) (s : State) : Res := onLive (fun s => gateMiss c (advance t s)) s

/-- Gate k of a channel is open at the MAC. -/
def gateOpen (c k : Nat) (s : State) : Bool := nbit (gateCh c s).open_ k

/-- The instant at which gate k of a channel closes next, as the MAC's notices tell it; none when none closes it. -/
def gateCloses (c k : Nat) (s : State) : Option Nat :=
  let g := gateCh c s
  match g.notes.find? (fun n => !nbit n.gates k) with
  | some n => some n.at_
  | none => match g.notes.getLast? with
    | some n => n.next
    | none => g.follow

/-- A list is busy: named by the live or the chamber copy of SEL, or selected and not started (R298). -/
def listBusy (c l : Nat) (s : State) : Bool :=
  let k := rkey pgGate (0x1000 + 16 * c)
  rf pgGate (0x1000 + 16 * c) 1 1 s == l || (has s.regs.dirty k && fld (chm k s) 1 1 == l) ||
  (match (gateCh c s).pend with
   | some (tp, _, sel) => decide (nowStamp s < tp) && (sel == l || (gateCh c s).sel == l)
   | none => false)

/-! ## PAUSE and PFC generation (R301, R302) -/

/-- Bytes of the frames from channel `c` of class Bk in the basin (R301). -/
def heldBytes (c k : Nat) (s : State) : Nat :=
  ((s.bas.frames.filter (fun e => e.2.src == c && e.2.cls == k)).map (·.2.len)).sum

/-- A PFC register of profile `f`. -/
def pfcReg (f w : Nat) (s : State) : Word := rd 0x1A6 (0x200 + 16 * f + 4 * w) s

/-- The judgement of one count under profile `f`: the quanta requested, if any. -/
def pfcJudgeOne (key h f : Nat) (s : State) : Option Nat × State :=
  let xoff := fld (pfcReg f 0 s) 0 21 * 256
  let xon := fld (pfcReg f 1 s) 0 21 * 256
  let quanta := fld (pfcReg f 2 s) 0 16
  let refresh := fld (pfcReg f 2 s) 16 16 * 100 * 2 ^ 32
  match find? s.pcr.off key with
  | none =>
    if xoff ≤ h then (some quanta, ev pgPcr 0x010F 1 (setPcr (fun p => { p with off := ins p.off key s.tim.up }) s)) else (none, s)
  | some at_ =>
    if h < xon then (if bitOf (pfcReg f 3 s) 0 then some 0 else none, setPcr (fun p => { p with off := del p.off key }) s)
    else if at_ + refresh ≤ s.tim.up then (some quanta, setPcr (fun p => { p with off := ins p.off key s.tim.up }) s)
    else (none, s)

/-- A MAC control frame: its source address is open (log entry 11). -/
def macControl (body : Bytes) (s : State) : Bytes × State :=
  let (sa, s) := drawFree s
  let d := toBE 6 0x0180C2000001 ++ toBE 6 sa ++ toBE 2 0x8808 ++ body
  let d := d ++ zeros (60 - d.length)
  (d ++ fcsOf d, s)

/-- The priorities that LIC_PFC_MAP maps to bulk class Bk. -/
def prioritiesOf (c k : Nat) (s : State) : List Nat := (List.range 8).filter (fun i => rf (licPage c) 0x110 (4 * i) 4 s == k)

/-- PFC_JUDGE of a channel (R301, R302). -/
def pfcJudge (c : Nat) (s : State) : State :=
  let w := rd 0x1A6 (0x1000 + 4 * c) s
  if !bitOf w 0 || decide (256 ≤ c) || !rb 0x1A6 0x008 0 s then s
  else
    let en := (List.range 8).filter (fun k => nbit (fld w 2 8) k)
    let f := fld w 10 5
    if bitOf w 1 then
      let (r, s) := pfcJudgeOne (8 * c) ((en.map (fun k => heldBytes c k s)).sum) f s
      match r with
      | none => s
      | some q =>
        let (b, s) := macControl (toBE 2 1 ++ toBE 2 q) s
        ev pgPcr 0x010E 1 (setPort c (fun p => { p with ctl := p.ctl ++ [b] }) s)
    else
      let (reqs, s) := en.foldl (fun (a : List (Nat × Nat) × State) k =>
        let (r, s) := pfcJudgeOne (8 * c + k) (heldBytes c k a.2) f a.2
        match r with
        | none => (a.1, s)
        | some q =>
          let ps := prioritiesOf c k s
          if ps.isEmpty then (a.1, ev pgPcr 0x0115 1 s) else (a.1 ++ ps.map (fun i => (i, q)), s)) ([], s)
      if reqs.isEmpty then s
      else
        let vec := (reqs.map (fun r => 2 ^ r.1)).sum
        let times := (List.range 8).flatMap (fun i => toBE 2 (match reqs.find? (fun r => r.1 == i) with
          | some r => r.2
          | none => 0))
        let (b, s) := macControl (toBE 2 0x0101 ++ toBE 2 vec ++ times) s
        ev pgPcr 0x010D 1 (setPort c (fun p => { p with ctl := p.ctl ++ [b] }) s)

def execPfcJudge (t c : Nat) (s : State) : Res := onLive (fun s => pfcJudge c (advance t s)) s

/-! ## Registers, windows and checks of pages 0x1A0-0x1A6 -/

def pcrRo (p off : Nat) (s : State) : Option Word :=
  if p ≠ pgPcr then none
  else if off = 0x108 then some (w32 (b2n (flipPending s)))
  else if off = 0x10C then some (w32 s.pcr.miswireLast)
  else if off = 0x114 then some (w32 s.pcr.perrLast)
  else if 0x600 ≤ off && off < 0xA00 then
    let c := (off - 0x600) / 4
    let l := (List.range 8).map (fun k => credit c k s)
    some (w32 (min 0xFFFF (l.foldl min 32768) +
      (List.range 8).foldl (fun a k => a + b2n (decide (credit c k s < 2048)) * 2 ^ (16 + k)) 0))
  else none

/-- The windows of pages 0x1A1-0x1A6; `m` for a marshal access. -/
def pcrWin (p off : Nat) (m : Bool) (s : State) : Option WinRef :=
  if off < 0x4000 || 0x8000 ≤ off then none
  else
    let o := off - 0x4000
    let w := o % 32 / 4
    let mask (lvl : Nat) : Nat :=
      match w with
      | 0 => if lvl = 4 then 0xFFFF000E else 0xFFFF000F
      | 1 => (match lvl with | 4 => 0x3FFFF | 3 => 0xFFFF | 2 => 0x3FFF | _ => 0)
      | 2 => 0xFFFF
      | _ => 0
    match p with
    | 0x1A1 =>
      let lvl := rf 0x1A1 0x100 0 2 s
      let i := rf 0x1A1 0x100 9 9 s * 512 + o / 32
      some ⟨tbNode, lvl * 262144 + i, w, 0x4000 + lvl, i, w, mask lvl, false, true, !nodeLive lvl i s⟩
    | 0x1A2 =>
      let q := rf 0x1A2 0x100 9 11 s * 512 + o / 32
      some ⟨tbQ, q, w, 0x4000, q, w, mask 4, false, true, !nodeLive 4 q s⟩
    | 0x1A3 =>
      let b := rf 0x1A3 0x100 31 1 s
      let i := rf 0x1A3 0x100 10 6 s * 1024 + o / 16
      let w := o % 16 / 4
      some ⟨tbProf, b * 65536 + i, w, 0x4000 + b, i, w, if w % 2 = 0 then 0x8FFFFFFF else 0xFFFFFF, false, true, false⟩
    | 0x1A4 =>
      let i := rf 0x1A4 0x100 9 9 s * 512 + o / 32
      some ⟨tbPol, i, w, 0x4000, i, w, (match w with
        | 0 => 7 | 1 => 0x0FFFFFFF | 2 => 0xFFFFFF | 3 => 0x0FFFFFFF | 4 => 0xFFFFFF | _ => 0), false, true, false⟩
    | 0x1A5 =>
      let b := rf 0x1A5 (if m then 0x104 else 0x100) 0 9 s
      let j := o / 8
      let w := o % 8 / 4
      if 1023 < j then none
      else some ⟨tbGcl, gclIdx (b % 256) (b / 256) j, w, 0x4000 + b / 256, b % 256 * 1024 + j, w,
        if w = 0 then 0xFF else 0x3FFFFFFF, true, true, false⟩
    | 0x1A6 =>
      if 0x2000 ≤ o then none else some ⟨tbPfc, o / 4, 0, 0x4000, o / 4, 0, 0, false, false, false⟩
    | _ => none

/-- A level word: bytes, signed, 25 bits. -/
def levelWord (x : Int) : Word := w32 (unsgn (x / (secU : Int)) 25)

/-- BACKLOG of a node or queue (W5). -/
def backlog (lvl i : Nat) (s : State) : Bool :=
  let p := portAbove lvl i s
  (liveAt lvl (chainsOf p s) s).any (fun c => c.at_ lvl == i) ||
  s.pcr.out.any (fun e => (chainOf e.2 s).at_ lvl == i)

/-- The read-only words of those windows. -/
def pcrWinRo (r : WinRef) (s : State) : Option Word :=
  let node (lvl i : Nat) : Option Word :=
    let b := bucket (nkey lvl i) s
    match r.word with
    | 0 => some (setFld (nodeW lvl i 0 s) 4 1 (b2n (has s.pcr.bad (nkey lvl i))))
    | 3 => some (levelWord b.cl)
    | 4 => some (levelWord b.pl)
    | 5 => some (w32 (b2n (backlog lvl i s) + (if lvl = 4 then b2n (queueHeld i s) * 2 + b2n (has s.pcr.miswired i) * 4 else 0)))
    | 6 => some (w32 (if lvl = 4 then (tagOf (nkey 4 i) s).f else vtOf (nkey lvl i) s))
    | _ => none
  if r.tab = tbNode then node (r.idx / 262144) (r.idx % 262144)
  else if r.tab = tbQ then node 4 r.idx
  else if r.tab = tbPol then
    let (tc, tp, _) := look (0, 0, 0) s.pcr.pol r.idx
    (match r.word with
     | 5 => some (levelWord tc)
     | 6 => some (levelWord tp)
     | 7 => some (w32 (look 0 s.pcr.red r.idx))
     | _ => none)
  else if r.tab = tbPfc then
    let c := r.idx / 8
    let k := r.idx % 8
    let off := (find? s.pcr.off (if rb 0x1A6 (0x1000 + 4 * c) 1 s then 8 * c else 8 * c + k)).isSome
    some (w32 (min (2 ^ 30 - 1) (heldBytes c k s / 256) + b2n off * 2 ^ 31))
  else none

/-- Why a window write of those pages is discarded: the PG_STAT bits beside WR_IGNORED; `w0` when it commits the entry, with
the PARENT word that it would commit (R287, R289, R290, R298). -/
def pcrRefuses (r : WinRef) (w0 : Bool) (parent : Word) (s : State) : Option Nat :=
  if r.tab = tbProf then
    let bank := r.idx / 65536
    let k := rkey pgPcr 0x104
    let live := rf pgPcr 0x104 0 1 s
    let ch := if has s.regs.dirty k then fld (chm k s) 0 1 else live
    if bank == live || bank == ch || flipPending s then some 8
    else if r.idx % 65536 = 0 then some 0
    else none
  else if r.tab = tbGcl then (if listBusy (r.idx / 1024 % 256) (r.idx / 262144) s then some 10 else none)
  else if (r.tab = tbNode || r.tab = tbQ) && w0 then
    let lvl := if r.tab = tbQ then 4 else r.idx / 262144
    let i := if r.tab = tbQ then r.idx else r.idx % 262144
    if parent != nodeW lvl i 1 s && decide (2 ≤ lvl) && backlog lvl i s then some 9 else none
  else none

/-- An entry has been committed: BAD clears, a mismatch that is gone clears MISWIRED (R281, R291). -/
def pcrCommitted (r : WinRef) (wasValid : Bool) (s : State) : State :=
  if r.tab = tbPol then polCommitted wasValid r.idx (setPcr (fun p => { p with bad := rem p.bad (nkey 6 r.idx) }) s)
  else if r.tab = tbProf then setPcr (fun p => { p with bad := rem p.bad (nkey 5 r.idx) }) s
  else if r.tab = tbNode || r.tab = tbQ then
    let k := if r.tab = tbQ then nkey 4 r.idx else nkey (r.idx / 262144) (r.idx % 262144)
    let s := setPcr (fun p => { p with bad := rem p.bad k }) s
    let s := setPcr (fun p => { p with miswired := p.miswired.filter (fun q => !(ownPort q s == some (chainOf q s).port)) }) s
    (s.pcr.tag.foldl (fun a e => let p := portAbove (e.1 / 1048576) (e.1 % 1048576) s; if has a p then a else Sys2Proof.Machine.add a p) []).foldl
      (fun a p => syncPort p none a) s
  else s

/-- Page check of a PCR page with the new configuration (R303). -/
def pcrCheck (p : Nat) (s : State) : Option Nat :=
  let bank := rf pgPcr 0x104 0 1 s
  let profs := s.regs.tbl.foldl (fun a e =>
    if e.1 / 2 ^ 30 = tbProf && e.1 / 64 % 2 ^ 24 / 65536 = bank then Sys2Proof.Machine.add a (e.1 / 64 % 2 ^ 24) else a) []
  let pw (i w lo n : Nat) : Nat := tf tbProf i w lo n s
  let gates := (List.range 256).filter (fun c => rb pgGate (0x1000 + 16 * c) 0 s)
  let sel (c : Nat) : Nat := rf pgGate (0x1000 + 16 * c) 1 1 s
  let cnt (c : Nat) : Nat := rf pgGate (0x100C + 16 * c) (16 * sel c) 11 s
  let cyc (c : Nat) : Nat := rf pgGate (0x1004 + 4 * sel c + 16 * c) 0 30 s
  let ivs (c : Nat) : List Nat := (List.range (cnt c)).map (fun j => tf tbGcl (gclIdx c (sel c) j) 1 0 30 s)
  if p = 0x1A0 then
    if profs.any (fun i => pw i 0 31 1 == 1 && pw i 2 31 1 == 1 && decide (pw i 2 0 28 < pw i 0 0 28)) then some 0x01
    else if profs.any (fun i => (pw i 0 31 1 == 1 && decide (pw i 1 0 24 < 16447)) ||
        (pw i 2 31 1 == 1 && decide (pw i 3 0 24 < 16447))) then some 0x02
    else none
  else if p = 0x1A5 then
    if gates.any (fun c => cnt c == 0 || decide (1024 < cnt c)) then some 0x03
    else if gates.any (fun c => (ivs c).sum != cyc c || (ivs c).any (fun x => decide (x < 64))) then some 0x04
    else if gates.any (fun c => cyc c == 0 || (125000 % cyc c != 0 && (cyc c % 125000 != 0 || decide (1000000000 < cyc c)))) then some 0x05
    else if s.fixed.ident.varH && gates.any (fun c => decide (127 < c)) then some 0x07
    else none
  else if p = 0x1A6 then
    if (List.range 32).any (fun f => decide (fld (pfcReg f 0 s) 0 21 < fld (pfcReg f 1 s) 0 21)) then some 0x06
    else if s.fixed.ident.varH && (upto 128 128).any (fun c => rb 0x1A6 (0x1000 + 4 * c) 0 s) then some 0x07
    else none
  else none

/-- Cross check 2 of R45 over one network port: its profile's PIR against its channel's speed; a port that is off is not judged. -/
def portRateBad (c : Nat) (s : State) : Bool :=
  let i := rf pgPcr 0x104 0 1 s * 65536 + tf tbNode c 2 0 16 s
  tf tbProf i 2 31 1 s == 1 && chSpeed c s != 0 && decide (macMbps (chSpeed c s) * 1000 < tf tbProf i 2 0 28 s * 64)

end Sys2Proof.Machine
end

