-- ==== Sys2Proof/Machine/Exp.lean ====
section
/-! DEFINITION. The express path: contracts, allowances, policing, admission, commitment, verdicts, false starts, multicast, pinned paths, histograms and the seal units (R197-R227, R236-R253). -/
namespace Sys2Proof.Machine

def pgExp : Nat := 0x180
def pgDup : Nat := 0x188
def pgSeal : Nat := 0x18B

/-! ## Contracts, allowances and policing (R202, R203, R205) -/

/-- The table index of a contract in a bank. -/
def conIdx (bank c : Nat) : Nat := bank * 4096 + c % 4096
/-- The table index of an express queue's allowance in a bank. -/
def alwIdx (bank q : Nat) : Nat := bank * 2048 + q % 2048

def conMaxlen (i : Nat) (s : State) : Nat := tf tbCon i 4 0 14 s
def alwInflight (i : Nat) (s : State) : Nat := tf tbAlw i 0 0 8 s

/-- Frames in flight on an express queue. -/
def inflight (q : Nat) (s : State) : Nat := look 0 s.exp.inflight q

def inflightAdd (q : Nat) (s : State) : State := setExp (fun e => { e with inflight := put 0 e.inflight q (inflight q s + 1) }) s
def inflightSub (q : Nat) (s : State) : State := setExp (fun e => { e with inflight := put 0 e.inflight q (inflight q s - 1) }) s

/-- The level of a contract after the refill at reference instant `t` (R205). -/
def polExpRefill (i c t : Nat) (s : State) : Int × Nat :=
  let (l, last) := look (0, 0) s.exp.level c
  if last < t then (min (scaled (tf tbCon i 3 0 24 s)) (l + rateBytes (tf tbCon i 2 0 24 s) (t - last)), t) else (l, last)

/-- The policer takes MAXLEN, or refuses (R205). -/
def polExpTake (i c t : Nat) (s : State) : Bool × State :=
  let (l, last) := polExpRefill i c t s
  let m := scaled (conMaxlen i s)
  if l < m then (false, setExp (fun e => { e with level := put (0, 0) e.level c (l, last) }) s)
  else (true, setExp (fun e => { e with level := put (0, 0) e.level c (l - m, last) }) s)

/-- The unused part of MAXLEN is credited back at the frame's end or its discard, once (R205). -/
def polExpSettle (id : Nat) (s : State) : State :=
  match find? s.exp.frames id with
  | none => s
  | some x =>
    if x.settled then s
    else
      let i := conIdx x.bank x.contract
      let (l, last) := look (0, 0) s.exp.level x.contract
      let l := min (scaled (tf tbCon i 3 0 24 s)) (l + scaled x.maxlen - scaled (frm id s).bytes.length)
      setXf id (fun x => { x with settled := true }) (setExp (fun e => { e with level := put (0, 0) e.level x.contract (l, last) }) s)

/-! ## Refusals (R204) -/

/-- The event of a refusal cause. -/
def refuseEvent (cause : Nat) : Nat :=
  match cause with
  | 1 => 0x0102 | 2 => 0x0103 | 3 => 0x0104 | 4 => 0x0105 | _ => 0x010B

/-- A refusal charged to an express queue. -/
def queueRefused (q : Nat) (s : State) : State :=
  setExp (fun e => { e with refused := put 0 e.refused q (satAdd (look 0 e.refused q) 1 0xFFFF) }) s

/-- A frame is refused with a cause: counted, recorded and gone (R204). -/
def refuse (id cause contract : Nat) (s : State) : State :=
  let src := (frm id s).src
  let s := ev pgExp (refuseEvent cause) 1 (bump pgExp 0x128 0 32 1
    (setExp (fun e => { e with refuseLast := cause % 16 + contract % 4096 * 16 + src % 512 * 2 ^ 16 + 2 ^ 31 }) s))
  dropFrm id (raise pgExp 11 s)

/-! ## Destinations (R202, R223) -/

/-- The seeded CRC-32C of R517 over words of the pinning hash (R223, R325); each value in 32 bits, addresses in six bytes. -/
def pinHash (contract src da sa appid : Nat) (s : State) : Nat :=
  crc32cSeed (rd pgExp 0x108 s).toNat (toBE 2 contract ++ toBE 2 src ++ toBE 6 da ++ toBE 6 sa ++ toBE 2 appid)

/-- Where a frame bound for device `v` leaves: its path's hops, and its lane, if the link has a joined one. -/
structure PinTo where
  link : Nat
  hops : Nat
  lane : Option Nat
  deriving DecidableEq, Repr

/-- The lane of a link that a hash chooses (R325). -/
def laneByHash (h k : Nat) (s : State) : Option Nat :=
  let l := joined k s
  l[h / 65536 * l.length / 65536]?

/-- The path and lane that a hash chooses toward device `v`; none without an express route (R223, R325). -/
def pinPath (h v : Nat) (s : State) : Option PinTo :=
  let r := expRoutes v s
  match r[h % 65536 * r.length / 65536]? with
  | none => none
  | some p => some ⟨p.link, p.hops, laneByHash h p.link s⟩

/-- What the destination of a contract resolves to. -/
inductive XRes where
  | none
  | chan (c : Nat)
  | fab (v d : Nat)
  | group (g : Nat)
  | ces (pw : Nat)
  deriving DecidableEq, Repr

/-- A fabric destination port: a local channel, or a port of another device (R202, R262). -/
def resPort (d : Nat) (s : State) : XRes :=
  match dstLocal d s with
  | some c => .chan c
  | none => match portDev d s with
    | some (v, _) => .fab v d
    | none => .none

/-- The next hop gives a fabric destination port (R202). -/
def resNextHop (n id : Nat) (bad : List Nat) (s : State) : XRes × Option Nat × State :=
  let s := if has bad 5 then ftbPerr 5 n 0x011A (tfput tbNh n 0 3 1 1 s) else s
  let w0 := tw tbNh n 0 s
  if !bitOf w0 0 || bitOf w0 3 || fld w0 1 2 != 0 then (.none, none, s)
  else
    let w6 := tw tbNh n 6 s
    (resPort (fld w0 16 16) s, some n, if bitOf w6 23 then frmCount id (fld w6 0 23) (cntRestart (has bad 9) (fld w6 0 23) s) else s)

/-- The flow entry of the frame's key decides (R202, R178). Of the classifier's action only COUNTER applies to an express frame (R161), so its key has
VRF 0 (log entry 236). -/
def resFlow (id : Nat) (f : Frm) (d : Decision) (bad : List Nat) (s : State) : XRes × Option Nat × State :=
  match flowKeyOf d.parse with
  | none => (.none, none, s)
  | some (kt, key) =>
    let k : Lk := ⟨s, rwOf (dataOfFrm f) d.parse, d, f.src, id, bad⟩
    match k.flowHit kt 0 key with
    | (s, none) => (.none, none, s)
    | (s, some e) =>
      let w := e.data.getD 0 0
      match nfld w 21 3 with
      | 0 => if nbit w 20 then (.none, none, s) else resNextHop (w % 2 ^ 20) id bad s
      | 1 => (.ces (w % 16384), none, s)
      | _ => (.none, none, s)

/-- The destination of a contract, and the next hop whose rewrite applies (R202). -/
def resolve (id : Nat) (f : Frm) (d : Decision) (i : Nat) (bad : List Nat) (s : State) : XRes × Option Nat × State :=
  let target := tf tbCon i 1 0 20 s
  if !tb tbCon i 0 0 s then (.none, none, s)
  else match tf tbCon i 0 1 3 s with
    | 0 => (.chan (target % 256), none, s)
    | 1 => (resPort (target % 65536) s, none, s)
    | 2 => (.group (target % 4096), none, s)
    | 3 => resFlow id f d bad s
    | 4 => resNextHop target id bad s
    | _ => (.none, none, s)

/-! ## Copies (R221, R222, R234, R238) -/

/-- A copy asked for: its destination, its pair, and whether it passes a ring with its tag. -/
structure Ask where
  dst : XDst
  pair : Option (Nat × Bool) := none
  keepTag : Bool := false
  deriving DecidableEq, Repr

/-- The copies toward a channel: both channels of its pair, or the channel alone (R238, R240). -/
def asksChan (g c : Nat) (p : Parse) (s : State) : List Ask :=
  if p.type = 0x88F7 then [{ dst := .chan c }]
  else match pairOf g c s with
    | none => [{ dst := .chan c }]
    | some (v, _) => [{ dst := .chan v.chA, pair := some (v.p, false) }, { dst := .chan v.chB, pair := some (v.p, true) }]

/-- The copy toward a fabric destination port of device `v`; none without a route. -/
def askFab (h v d : Nat) (s : State) : Option Ask :=
  match pinPath h v s with
  | none => none
  | some t => some { dst := .fab v d (t.lane.getD 256) (t.hops - 1) }

/-- The copies of an express group (R221); a channel pair is entered once. -/
def asksGroup (g bank grp src h : Nat) (p : Parse) (s : State) : List Ask :=
  let i := bank * 4096 + grp
  let excl := tb tbGrp i 0 1 s
  let chans := (List.range 256).filter (fun c => tb tbGrp i (1 + c / 32) (c % 32) s && !(excl && c == src))
  let cs := chans.flatMap (fun c => asksChan g c p s)
  let fs := (List.range 4).filterMap (fun n =>
    if tb tbGrp i 11 n s then
      (match resPort (tf tbGrp i (9 + n / 2) (n % 2 * 16) 16 s) s with
       | .chan c => some (asksChan g c p s)
       | .fab v d => (askFab h v d s).map (fun a => [a])
       | _ => none)
    else none)
  let all := (cs ++ fs.flatMap id).foldl (fun a x => if a.contains x then a else a ++ [x]) []
  if excl then all.filter (fun x => !(x.dst == .chan src)) else all

/-- Checks 2 to 4 of R204 on a copy: the cause that refuses it, 0 for none. -/
def askCheck (bank k : Nat) (a : Ask) (s : State) : Nat :=
  match a.dst with
  | .chan c =>
    if !chUp c s then 2
    else if alwInflight (alwIdx bank (8 * c + k)) s ≤ inflight (8 * c + k) s then 3
    else 0
  | .fab _ _ f _ => if f = 256 || !fabData s || decide (24 < (fabLane f s).xq.length) then 4 else 0
  | .ces _ => 0

/-- A refused copy is charged to its queue (R222). -/
def askRefused (k : Nat) (a : Ask) (s : State) : State :=
  match a.dst with
  | .chan c => queueRefused (8 * c + k) s
  | _ => s

/-- Rate of a source's MAC, and of an egress, in Mb/s (R211). -/
def srcMbps (x : Frm) (fromFab : Bool) (s : State) : Nat :=
  if fromFab then 200780 else if x.src < 256 then macMbps (chSpeed x.src s) else 0

def dstMbps (d : XDst) (s : State) : Nat :=
  match d with
  | .chan c => macMbps (chSpeed c s)
  | .fab .. => 200780
  | .ces _ => 0

/-- The copy is cut through: its ingress is at least as fast as its egress (R211). -/
def cutThrough (x : Frm) (fromFab : Bool) (d : XDst) (s : State) : Bool :=
  let r := srcMbps x fromFab s
  r != 0 && (match d with | .ces _ => false | _ => true) && decide (dstMbps d s ≤ r)

/-- A contract still has a barge in a lane queue of a link (R224). -/
def linkBusy (k contract : Nat) (s : State) : Bool := (linkLanes k s).any (fun f => (fabLane f s).xq.any (·.con == contract))

/-- The flow of a frame bound for device `v` takes a path (R224). One that hashes to a new path waits for its old one, and so does every
frame of the flow until the wait is over: its end, and the old link. -/
def repin (h v contract : Nat) (t : PinTo) (s : State) : Option (Nat × Nat) × State :=
  let lane := t.lane.getD 256
  let mine (p : Pin) : Bool := p.hash == h && p.dev == v && p.contract == contract
  let old := s.exp.pins.find? mine
  let still (w : Nat × Nat) : Bool := decide (s.tim.up < w.1) && linkBusy w.2 contract s
  let (hold, new) : Option (Nat × Nat) × Bool := match old with
    | none => (none, false)
    | some p =>
      if (p.link != t.link || p.lane != lane) && linkBusy p.link contract s then (some (s.tim.up + 2000 * 2 ^ 32, p.link), true)
      else (p.hold.filter still, false)
  let s := setExp (fun e => { e with pins := ⟨h, v, contract, t.link, lane, hold⟩ :: e.pins.filter (fun p => !mine p) }) s
  (hold, if new then ev pgExp 0x0113 1 s else s)

/-- The wait of an admitted copy: that of its flow, for a copy toward the fabric (R221, R224). -/
def copyWait (h contract : Nat) (a : Ask) (s : State) : Option (Nat × Nat) × State :=
  match a.dst with
  | .fab v _ _ _ => (match pinPath h v s with
    | some t => repin h v contract t s
    | none => (none, s))
  | _ => (none, s)

/-- An admitted copy: its place in the order, its cut-through decision, its queue's in-flight count (R203, R211). -/
def makeCopy (k : Nat) (f : Frm) (fromFab : Bool) (seqs : List (Nat × Nat)) (wait : Option (Nat × Nat)) (a : Ask) (s : State) : XCopy × State :=
  let s := match a.dst with
    | .chan c => inflightAdd (8 * c + k) s
    | _ => s
  let n := s.exp.order
  let pr := a.pair.map (fun p => (p.1, p.2, ((seqs.find? (fun e => e.1 == p.1)).map (·.2)).getD 0))
  ({ dst := a.dst, cut := cutThrough f fromFab a.dst s, keepTag := a.keepTag, order := n, wait := wait, pair := pr },
    setExp (fun e => { e with order := n + 1 }) s)

/-- The copies of an admitted frame are counted as cut through or stored whole (R211). -/
def copiesNote (id : Nat) (s : State) : State :=
  match find? s.exp.frames id with
  | none => s
  | some x => x.copies.foldl (fun a c => ev pgExp (if c.cut then 0x0109 else 0x010A) 1 a) s

/-- The pairs that a frame is sent into take one number each, and learn its source (R232, R238). -/
def takePairs (g src sa : Nat) (asks : List Ask) (s : State) : List (Nat × Nat) × State :=
  (asks.filterMap (·.pair)).foldl (fun (a : List (Nat × Nat) × State) p =>
    if a.1.any (fun e => e.1 == p.1) then a
    else
      let s := match pairAt g p.1 a.2 with
        | some v => proxyLearn v src sa a.2
        | none => a.2
      let (q, s) := pairTake p.1 s
      (a.1 ++ [(p.1, q)], s)) ([], s)

/-- Copies into a DANH pair with a foreign source address are not sent (R234). -/
def dropForeign (g sa : Nat) (asks : List Ask) (s : State) : List Ask × State :=
  asks.foldl (fun (a : List Ask × State) x =>
    let bad := match x.pair with
      | some (p, _) => (match pairAt g p a.2 with
        | some v => danhForeign v sa a.2
        | none => false)
      | none => false
    if !bad then (a.1 ++ [x], a.2)
    else match x.pair with
      | some (p, false) => (a.1, pairCount p 15 (ev pgDup 0x0115 1 a.2))
      | _ => a) ([], s)

/-! ## Seal units (R246, R247, R250) -/

def unit (u : Nat) (s : State) : SealUnit := look {} s.exp.units u
def setUnit (u : Nat) (f : SealUnit → SealUnit) (s : State) : State :=
  setExp (fun e => { e with units := put {} e.units u (f (unit u s)) }) s

def keySlot (k : Nat) (s : State) : KeySlot := look {} s.msh.keys k
def setKey (k : Nat) (x : KeySlot) (s : State) : State := { s with msh := { s.msh with keys := put {} s.msh.keys k x } }

/-- A slot is loaded, erased or zeroised after a parity error: event, and KEY_CHANGE with KIND 0, 1 or 2 (R431, R441). -/
def keyChange (slot kind origin : Nat) (k : KeySlot) (s : State) : State :=
  let old := keySlot slot s
  let named := if kind = 0 then k else old
  logDev 0x023 origin 0x0303 (slot % 256 + named.uses % 256 * 256 + kind * 65536) named.keyid
    (ev 0x023 (if kind = 0 then 0x0101 else 0x0102) 1 (setKey slot k s))

/-- The slot is zeroised; its count of loads stays (R431, R441). -/
def keyErase (slot kind origin : Nat) (s : State) : State := keyChange slot kind origin { loads := (keySlot slot s).loads } s

/-- The lowest-numbered free unit in service, from `u` on, `n` of them tried. -/
def freeUnit (s : State) : Nat → Nat → Option Nat
  | 0, _ => none
  | n + 1, u => if (unit u s).st = 0 then some u else freeUnit s n (u + 1)

/-- A bad verdict of a seal unit is counted and recorded (R252). -/
def sealFail (cause contract src u slot : Nat) (s : State) : State :=
  raise pgSeal 9 (ev pgSeal 0x0101 1 (bump pgSeal 0x118 0 32 1 (setExp (fun e => { e with
    sealLast := cause % 16 + contract % 4096 * 16 + src % 512 * 2 ^ 16 + u % 64 * 2 ^ 25 + 2 ^ 31, sealSlot := slot % 256 }) s)))

/-- A unit is allocated and fetches its slot; `bus` is 1 when the transfer's CRC is wrong and 2 when the slot fails parity,
which zeroises it (R246, R247, R432, R441). IV_CTR is consumed by a
sign fetch (R250). -/
def unitStart (u slot id : Nat) (sign : Bool) (bus : Nat) (s : State) : State :=
  let k := keySlot slot s
  let use := if sign then nbit k.uses 1 else nbit k.uses 0
  let spent := decide (k.ivCtr = 0xFFFFFFFF)
  let cause := if bus != 0 then 9 else if !k.valid then 2 else if !use then 5 else if sign && spent then 6 else 0
  let s := setUnit u (fun x => { x with
    st := if sign then 2 else 1, slot := slot, frame := id, valid := k.valid, key := k.key, keyid := k.keyid, uses := k.uses,
    ivFixed := k.ivFixed, ivCtr := k.ivCtr, cause := cause }) (ev 0x023 0x0100 1 (ev pgSeal 0x0106 1 s))
  let s := if bus = 1 then ev 0x023 0x0103 1 s else if bus = 2 then keyErase slot 2 0x50 s else s
  if sign && bus != 2 && k.valid && use && !spent then setKey slot { k with ivCtr := k.ivCtr + 1 } s else s

/-- A unit is free again. -/
def unitFree (u : Nat) (s : State) : State :=
  setUnit u (fun x => { st := if x.st = 3 then 3 else 0, slot := x.slot, compare := x.compare, served := satAdd x.served 1 0xFFFFFFFF }) s

/-- DUP_SEAL of a contract (R242). -/
def dupSeal (i : Nat) (s : State) : Word := tw tbCon i 6 s

/-- The units that a frame's contract asks for: slot and whether it signs (R246). -/
def sealAsks (w : Word) : List (Nat × Bool) :=
  let k := fld w 2 8
  match fld w 0 2 with
  | 1 => [(k, false)]
  | 2 => [(k, true)]
  | 3 => [(k, false), ((k + 1) % 256, true)]
  | _ => []

/-- Units are allocated to a frame: the units, and the cause that refuses it before commitment, 0 for none. -/
def sealAlloc (id contract src bus : Nat) (asks : List (Nat × Bool)) (s : State) : List Nat × Nat × State :=
  asks.foldl (fun (a : List Nat × Nat × State) k =>
    let s := a.2.2
    if a.2.1 ≠ 0 then a
    else match freeUnit s 64 0 with
      | none =>
        let (v, s) := drawFree s
        (a.1, 8, ev pgSeal 0x0104 1 (sealFail 8 contract src v k.1 s))
      | some u =>
        let s := unitStart u k.1 id k.2 bus s
        if (unit u s).cause = 6 then
          (a.1, 6, raise pgSeal 11 (ev pgSeal 0x0103 1 (sealFail 6 contract src u k.1 (unitFree u s))))
        else (a.1 ++ [u], 0, s)) ([], 0, s)

/-! ## Discard and end of an express frame -/

/-- A copy leaves: sent or discarded; its in-flight count is returned, and the frame is gone with its last copy (R203). -/
def copyDone (id n : Nat) (s : State) : State :=
  match find? s.exp.frames id with
  | none => s
  | some x =>
    match x.copies[n]? with
    | none => s
    | some c =>
      if c.gone then s
      else
        let s := match c.dst with
          | .chan d => inflightSub (8 * d + x.cls) s
          | _ => s
        let cs := x.copies.set n { c with gone := true }
        if cs.all (·.gone) then
          let s := polExpSettle id s
          let s := x.units.foldl (fun a u => unitFree u a) s
          dropFrm id (setExp (fun e => { e with frames := del e.frames id }) s)
        else setXf id (fun x => { x with copies := cs }) s

/-- The copies that a test names are discarded. -/
def copiesDrop (id : Nat) (f : XCopy → Bool) (s : State) : State :=
  match find? s.exp.frames id with
  | none => s
  | some x => (x.copies.zipIdx).foldl (fun a e => if f e.1 then copyDone id e.2 a else a) s

/-- The whole frame is discarded at the crossbar. -/
def expDrop (id : Nat) (s : State) : State := copiesDrop id (fun _ => true) s

/-! ## Admission (R204, R209) -/

/-- Duplicate handling of an admitted frame (R234, R236, R243, R244): a state of the frame, and whether it is discarded. -/
def dupHandle (id : Nat) (f : Frm) (p : Parse) (d : Bytes) (ring : Bool) (w : Word) (s : State) : Bool × State :=
  let pr := if f.src < 256 then pairOf f.gen f.src s else none
  let (gone, s) : Bool × State := match pr with
    | none => (false, s)
    | some (v, b) =>
      if v.role = 0 then
        if p.type = 0x88F7 || (f.ended && f.bad) then (false, s)
        else if f.ended then
          let (s, q) := prpNote v b d p s
          let (dup, s) := prpEndKnown v b p.sa q s
          (dup, if dup then dupDiscard v.p s else s)
        else
          let (held, s) := prpEarly v b id p.sa true s
          (false, setXf id (fun x => { x with
            held := held
            copies := if held then x.copies.map (fun c => { c with cut := false }) else x.copies }) s)
      else if ring then hsrJudge v p s
      else (false, s)
  if gone then (true, s)
  else
    let r := fld w 14 13
    match fld w 11 2 with
    | 0 => (false, s)
    | 1 =>
      if tb tbStr r 0 0 s && tb tbStr r 0 2 s then
        let (q, s) := strTake r s
        (false, setXf id (fun x => { x with rtag := some q }) s)
      else (false, s)
    | m =>
      if tb tbStr r 0 0 s && tb tbStr r 0 1 s then
        match rtagOf d p with
        | none => (true, ev pgDup 0x0112 1 s)
        | some (_, q) =>
          let (pass, s) := strJudge r q f.stamp s
          (!pass, setXf id (fun x => { x with rpop := m == 3 }) s)
      else (false, setXf id (fun x => { x with rpop := m == 3 }) s)

/-- A frame that passed the checks enters the crossbar: its copies, then duplicate handling and the seal units. `fate` is what the rows of R234
before the sequence judgement found. -/
def enterCrossbar (id i contract k h : Nat) (f : Frm) (d : Decision) (asks : List Ask) (nh : Option Nat) (fate : HsrFate)
    (mcast : Bool) (bus : Nat) (s : State) : State :=
  let p := d.parse
  let data := dataOfFrm f
  let w := dupSeal i s
  let (seqs, s) := takePairs f.gen f.src p.sa asks s
  let (cs, s) := asks.foldl (fun (a : List XCopy × State) x =>
    let (hold, s) := copyWait h contract x a.2
    let (c, s) := makeCopy k f false seqs hold x s
    (a.1 ++ [c], if mcast then ev pgExp 0x010C 1 s else s)) ([], s)
  let x : XFrame := {
    src := f.src, contract := contract, bank := i / 4096, cls := k, maxlen := conMaxlen i s, mcast := mcast, copies := cs
    nh := nh }
  let s := ev pgExp 0x0100 1 (setExp (fun e => { e with frames := ins e.frames id x }) s)
  let (gone, s) := dupHandle id f p data (decide (fate ≠ .plain)) w s
  if gone then expDrop id s
  else
    let s := copiesNote id (if fate = .route false true then ev pgDup 0x010A 1 s else s)
    let (us, cause, s) := sealAlloc id contract f.src bus (sealAsks w) s
    let s := setXf id (fun x => { x with units := us }) s
    if cause ≠ 0 then expDrop id (ev pgExp 0x0106 1 s)
    else if x.maxlen < f.bytes.length then expDrop id (ev pgExp 0x0106 1 s)
    else s

/-- What an express frame asks for, before the checks of R204. -/
structure XReq where
  fate : HsrFate
  res : XRes := .none
  nh : Option Nat := none
  asks : List Ask := []
  deriving DecidableEq, Repr

/-- The rows of R234 that come before the sequence judgement, for a frame received on a pair. -/
def ringFate (id : Nat) (f : Frm) (p : Parse) (s : State) : HsrFate × State :=
  match (if f.src < 256 then pairOf f.gen f.src s else none) with
  | some (v, b) => if v.role = 0 then (.plain, s) else hsrStatic v id f p (pairCount v.p (if b then 3 else 2) s)
  | none => (.plain, s)

/-- The pinning hash of a frame (R223). -/
def frameHash (f : Frm) (d : Decision) (s : State) : Nat :=
  pinHash d.contract f.src d.parse.da d.parse.sa (match d.parse.grid with | some (a, _) => a | none => 0) s

/-- The copies that a resolved destination asks for; an invalid group and a device without a route give none (R202, R221). -/
def resAsks (f : Frm) (d : Decision) (bank : Nat) (res : XRes) (s : State) : List Ask :=
  let h := frameHash f d s
  match res with
  | .none => []
  | .chan c => asksChan f.gen c d.parse s
  | .fab v n => (askFab h v n s).toList
  | .group g => if tb tbGrp (bank * 4096 + g) 0 0 s then asksGroup f.gen bank g f.src h d.parse s else []
  | .ces w => [{ dst := .ces w }]

/-- Check 1 fails: R202 gives no destination, or its group is not valid, or no route leads to its device (R204). -/
def noDest (bank : Nat) (r : XReq) (s : State) : Bool :=
  match r.fate, r.res with
  | .route false _, _ => false
  | _, .none => true
  | _, .group g => !tb tbGrp (bank * 4096 + g) 0 0 s
  | _, .fab .. => r.asks.isEmpty
  | _, _ => false

/-- The copy toward the other port of a ring (R234). -/
def ringAsk (f : Frm) (fate : HsrFate) (s : State) : List Ask :=
  match fate, pairOf f.gen f.src s with
  | .route _ true, some (v, b) => [{ dst := .chan (if b then v.chA else v.chB), keepTag := true }]
  | _, _ => []

/-- What an express frame asks for (R202, R221, R234). -/
def xReq (id : Nat) (f : Frm) (d : Decision) (bad : List Nat) (s : State) : XReq × State :=
  let bank := expBank f.gen s
  let (fate, s) := ringFate id f d.parse s
  match fate with
  | .drop => ({ fate := fate }, s)
  | .route false _ => ({ fate := fate, asks := ringAsk f fate s }, s)
  | _ =>
    let (res, nh, s) := resolve id f d (conIdx bank d.contract) bad s
    ({ fate := fate, res := res, nh := nh, asks := ringAsk f fate s ++ resAsks f d bank res s }, s)

/-- What the checks of a frame read and change: its contract's bucket, the queues and the lanes that it asks for (R206). -/
def checkKeys (id : Nat) (s : State) : List Nat :=
  match find? s.pac.dec id with
  | none => []
  | some d =>
    let f := frm id s
    (xReq id f d [] s).1.asks.filterMap (fun a => match a.dst with
      | .chan c => some (8192 + 8 * c + d.cls.getD 0)
      | .fab _ _ l _ => some (16384 + l)
      | .ces _ => none) ++ [d.contract % 4096]

/-- The frame of the express release that is checked next, and those left: of the frames released in one cycle, which the stage checks in
one cycle, the first in order (R206, R209). -/
def nextCheck (s : State) : Option (Nat × List (Nat × Nat)) :=
  match s.pac.outX with
  | [] => none
  | (i, c) :: r =>
    let first := (r.takeWhile (fun e => e.2 == c)).foldl (fun a e => if refBefore s e.1 a then e.1 else a) i
    some (first, s.pac.outX.filter (fun e => e.1 != first))

/-- Frames of one cycle that share an allowance, a lane or a bucket with the frame checked first are ordered behind it: counted (R206). -/
def orderNote (id : Nat) (s : State) : State :=
  let mine := checkKeys id s
  let cyc := (s.pac.outX.find? (fun e => e.1 == id)).map (·.2)
  let others := s.pac.outX.filter (fun e => e.1 != id && some e.2 == cyc)
  if others.any (fun e => (checkKeys e.1 s).any mine.contains) then ev pgExp 0x0116 1 s else s

/-- Checks 2 to 5 of R204 on a frame with a destination, and its way into the crossbar. -/
def expressChecks (bus id : Nat) (f : Frm) (d : Decision) (r : XReq) (s : State) : State :=
  let k := d.cls.getD 0
  let bank := expBank f.gen s
  let (asks, s) := dropForeign f.gen d.parse.sa r.asks s
  let mcast := (match r.res with | .group _ => true | _ => false) || decide (1 < asks.length)
  if asks.isEmpty then dropFrm id s
  else
    let found := asks.map (fun a => (a, askCheck bank k a s))
    let ok := (found.filter (fun e => e.2 == 0)).map (·.1)
    let s := found.foldl (fun a e =>
      if e.2 = 0 then a else askRefused k e.1 (if mcast then ev pgExp 0x010D 1 a else a)) s
    if ok.isEmpty then
      (if mcast then dropFrm id s else refuse id ((found.headD ({ dst := .chan 0 }, 1)).2) d.contract s)
    else
      let i := conIdx bank d.contract
      let (pass, s) := polExpTake i d.contract f.stamp s
      if !pass then refuse id 5 d.contract s
      else enterCrossbar id i d.contract k (frameHash f d s) f d ok r.nh r.fate mcast bus s

/-- EXPRESS_LOOKUP of the next frame of the express release (R204, R206, R209); a Pdelay message of a transparent clock's domain is not
forwarded (R79). -/
def expressLookup (bus : Nat) (bad : List Nat) (s : State) : State :=
  match (if rb pgExp 0x008 0 s then nextCheck s else none) with
  | none => s
  | some (id, rest) =>
    let s := orderNote id s
    let s := { s with pac := { s.pac with outX := rest } }
    match find? s.pac.dec id with
    | none => s
    | some d =>
      let s := { s with pac := { s.pac with dec := del s.pac.dec id } }
      let f := frm id s
      if pdelayStops f.src d.parse.ptp s then dropFrm id s
      else
        let (r, s) := xReq id f d bad s
        if r.fate = .drop then dropFrm id s
        else if noDest (expBank f.gen s) r s then refuse id 1 d.contract s
        else expressChecks bus id f d r s

/-- A frame that arrives from the fabric is admitted at its destination, or refused (R204, R327). -/
def expFromFabric (id dfp k : Nat) (s : State) : State :=
  let f := frm id s
  let s := ev pgExp 0x010F 1 s
  match dstLocal dfp s with
  | none => refuse id 1 0 s
  | some c =>
    let p := parseOf f s
    let bank := expBank f.gen s
    let (asks, s) := dropForeign f.gen p.sa (asksChan f.gen c p s) s
    let multi := decide (1 < asks.length)
    let bad := asks.map (fun a => (a, askCheck bank k a s))
    let ok := (bad.filter (fun e => e.2 == 0)).map (·.1)
    let s := bad.foldl (fun a e => if e.2 = 0 then a else askRefused k e.1 (if multi then ev pgExp 0x010D 1 a else a)) s
    if asks.isEmpty then dropFrm id s
    else if ok.isEmpty then (if multi then dropFrm id s else refuse id ((bad.headD ({ dst := .chan 0 }, 1)).2) 0 s)
    else
      let (seqs, s) := takePairs f.gen f.src p.sa ok s
      let (cs, s) := ok.foldl (fun (a : List XCopy × State) x =>
        let (c, s) := makeCopy k f true seqs none x a.2
        (a.1 ++ [c], s)) ([], s)
      let x : XFrame := {
        src := f.src, contract := 4096, bank := bank, cls := k, maxlen := 16383, mcast := multi, copies := cs, settled := true
        fab := true }
      copiesNote id (ev pgExp 0x0100 1 (setExp (fun e => { e with frames := ins e.frames id x }) s))

/-! ## The bytes of a copy (R179, R238, R240, R243) -/

/-- The tag or trailer of a pair's copy is written (R230, R238). -/
def addRed (g p : Nat) (lanB : Bool) (q : Nat) (d : Bytes) (s : State) : Bytes :=
  match pairAt g p s with
  | none => d
  | some v =>
    let ps := parse (parseCfg g s) d
    if v.role = 0 then addRct d ps.typeEnd lanB q
    else addHsr d (12 + 4 * ps.tags.length) (v.netId * 2 + b2n lanB) q

/-- The bytes of a copy, with the FCS recomputed where anything changed; the frame has ended. -/
def copyBytes (x : XFrame) (c : XCopy) (f : Frm) (s : State) : Bytes :=
  let d0 := frameData f.bytes
  let cfg := parseCfg f.gen s
  let d := if c.keepTag then d0 else stripRed f d0 (parse cfg d0) s
  let p := parse cfg d
  let d := if x.rpop then (match rtagOf d p with | some (o, _) => removeAt d o 6 | none => d) else d
  let d := match x.rtag with
    | some q => insertAt d (12 + 4 * p.tags.length) (toBE 2 0xF1C1 ++ toBE 2 0 ++ toBE 2 q)
    | none => d
  let d := match x.nh with
    | some n => ((rwOf d (parse cfg d)).nextHop n s).b
    | none => d
  let d := match c.pair with
    | some (q, b, n) => addRed f.gen q b n d s
    | none => d
  if d = d0 then f.bytes else d ++ fcsOf d

/-- The bytes that leave after a false start: the frame's own with the inverse of the correct FCS, cut at MAXLEN (R207, R219). -/
def falseBytes (x : XFrame) (b : Bytes) : Bytes :=
  let d := if x.cause = 4 then b.take (x.maxlen - 4) else frameData b
  d ++ (fcsOf d).map (fun y => ~~~ y)

/-! ## False starts (R218-R220) -/

/-- A record enters the false-start ring, or is lost (R220). -/
def fsRecord (w3 w4 stamp : Nat) (s : State) : State :=
  let n := s.exp.fsSeq
  if 512 ≤ (n + 2 ^ 32 - (rd pgExp 0x11C s).toNat) % 2 ^ 32 then raise pgExp 10 (ev pgExp 0x0108 1 (bump pgExp 0x120 0 32 1 s))
  else setExp (fun e => { e with fsRing := ins e.fsRing (n % 512) ⟨stamp, w3, w4, n⟩, fsSeq := (n + 1) % 2 ^ 32 }) s

/-- The false start of a frame (R219). -/
def falseStart (id : Nat) (x : XFrame) (s : State) : State :=
  let f := frm id s
  let (c0, s) := if x.contract = 4096 then (let r := drawFree s; (r.1 % 4096, r.2)) else (x.contract, s)
  let (src, s) := if 288 < f.src then (let r := drawFree s; (r.1 % 512, r.2)) else (f.src, s)
  let first := x.copies.find? (fun c => c.committed)
  let sent := match first with
    | some c => (falseBytes x (copyBytes x c f s)).length - 4
    | none => 0
  let q := match first with
    | some c => (match c.dst with | .chan d => 8 * d + x.cls | _ => 0)
    | none => 0
  let fab := match first with
    | some c => (match c.dst with | .fab .. => true | _ => false)
    | none => false
  let s := fsRecord (c0 + x.cause % 16 * 2 ^ 12 + src % 512 * 2 ^ 16)
    (q + b2n x.mcast * 2 ^ 11 + b2n fab * 2 ^ 12 + min sent 0xFFFF * 2 ^ 16) f.stamp s
  let s := raise pgExp 9 (ev pgExp 0x0107 1 s)
  if x.cause = 4 then ev pgExp 0x0110 1 s else s

/-- The barges of a fabric-bound copy enter their lane's queue; after a bad verdict they carry the bytes that R207 and R219 leave of the frame
(R217, R219, R329). -/
def sendFab (id : Nat) (x : XFrame) (c : XCopy) (bad : Bool) (s : State) : State :=
  match c.dst, s.fab.addr with
  | .fab v d lane hops, some a =>
    let f := frm id s
    let b := copyBytes x c f s
    let b := if bad then falseBytes x b else b
    let h : Barge := {
      type := 2, dest := v, src := a, hops := hops, cls := 8 + x.cls, dfp := d, con := x.contract, fid := id
      own := some ⟨f.stamp, f.gen, x.src, x.mcast, 0⟩ }
    let l := bargesOf h b
    let l := l.map (fun y => if y.eof then { y with bad := bad } else y)
    setFLane lane (fun y => { y with xq := y.xq ++ l }) s
  | _, _ => s

/-- The RX mirror's copy of an express frame (R277). -/
def expMirror (id : Nat) (s : State) : State :=
  let f := frm id s
  if f.src < 256 then (match rxMirror f.src s with
    | some m => mirrorFork m id s
    | none => s)
  else s

/-- A bad verdict acts on the frame: discarded at the crossbar, or a false start (R213, R219). -/
def verdictBad (id cause : Nat) (s : State) : State :=
  let s := tapEnd id true s
  match find? s.exp.frames id with
  | none => s
  | some y =>
    let x : XFrame := { y with verdict := some false, cause := cause }
    let s := setXf id (fun _ => x) s
    if y.verdict == some false then s
    else if !x.copies.any (fun c => c.committed && !c.gone) then expDrop id (ev pgExp 0x0106 1 s)
    else
      let s := falseStart id x (setFrm id (fun f => { f with bad := true }) (polExpSettle id s))
      let s := expMirror id s
      let s := (x.copies.zipIdx).foldl (fun a e => match e.1.dst with
        | .fab .. => if e.1.committed && !e.1.gone then copyDone id e.2 (sendFab id x e.1 true a) else a
        | _ => a) s
      copiesDrop id (fun c => !c.committed || (x.mcast && !c.started)) s

/-- The cause of a frame's bad verdict, 0 for a good one (R213, R218). -/
def verdictCause (id : Nat) (x : XFrame) (s : State) : Nat :=
  let f := frm id s
  if x.cause ≠ 0 then x.cause
  else if f.lenBad then 2
  else if f.bad then 1
  else if x.sealBad then 3
  else 0

/-- VERDICT: the verdict of a frame whose end and seal are known (R213). -/
def verdict (id : Nat) (s : State) : State :=
  match find? s.exp.frames id with
  | none => s
  | some x =>
    if !(frm id s).ended || !x.units.isEmpty || x.verdict.isSome then s
    else
      let cause := verdictCause id x s
      if cause ≠ 0 then verdictBad id cause s
      else
        let s := tapEnd id false (polExpSettle id (setXf id (fun x => { x with verdict := some true }) s))
        let s := if x.copies.any (fun c => c.committed && !c.gone) then expMirror id s else s
        (x.copies.zipIdx).foldl (fun a e => match e.1.dst with
          | .fab .. => if e.1.committed && !e.1.gone then copyDone id e.2 (sendFab id x e.1 false a) else a
          | _ => a) s

/-- An earlier frame of the same flow has a copy that has not left for the same destination: the frames of a flow cross one path in order
(R223). -/
def flowAhead (x : XFrame) (c : XCopy) (s : State) : Bool :=
  match c.dst with
  | .fab .. => s.exp.frames.any (fun e => e.2.src == x.src && e.2.contract == x.contract &&
      e.2.copies.any (fun d => d.dst == c.dst && !d.gone && decide (d.order < c.order)))
  | _ => false

/-- COMMITMENT of copy `n` of a frame: its release toward the egress MAC, channel X or the CES engine (R211, R213). -/
def commitment (id n : Nat) (s : State) : State :=
  match find? s.exp.frames id with
  | none => s
  | some x =>
    match x.copies[n]? with
    | none => s
    | some c =>
      let ready := c.cut || ((frm id s).ended && x.verdict == some true)
      if c.committed || c.gone || c.wait.isSome || x.held || !ready || flowAhead x c s then s
      else
        let first := !x.copies.any (·.committed)
        let s := setXf id (fun x => { x with copies := x.copies.set n { c with committed := true } }) s
        let s := if first && x.verdict == some true then expMirror id s else s
        match c.dst with
        | .chan _ => s
        | .fab .. =>
          let s := ev pgExp 0x010E 1 s
          if x.verdict = some true then copyDone id n (sendFab id x c false s) else s
        | .ces w =>
          let f := frm id s
          let p := parseOf f s
          copyDone id n (pwArrive w ((frameData f.bytes).drop p.mplsEnd) s)

def execCommitment (t id n : Nat) (s : State) : Res := onService (fun s => commitment id n (advance t s)) s

/-- REPIN_HOLD_END: the old path has drained, or 2 microseconds have passed (R224). -/
def repinHoldEnd (id n : Nat) (s : State) : State :=
  match find? s.exp.frames id with
  | none => s
  | some x =>
    match x.copies[n]? with
    | none => s
    | some c =>
      match c.wait with
      | none => s
      | some (e, k) =>
        if decide (e ≤ s.tim.up) || !linkBusy k x.contract s then
          setXf id (fun x => { x with copies := x.copies.set n { c with wait := none } }) s
        else s

def execRepinHoldEnd (t id n : Nat) (s : State) : Res := onLive (fun s => repinHoldEnd id n (advance t s)) s

/-- More bytes of an express frame have arrived: byte MAXLEN + 1 ends it (R207). -/
def expGrow (id : Nat) (s : State) : State :=
  match find? s.exp.frames id with
  | none => s
  | some x =>
    if x.fab || x.verdict.isSome || decide ((frm id s).bytes.length ≤ x.maxlen) then s
    else verdictBad id 4 (setFrm id (fun f => { f with ended := true }) s)

/-! ## Seal verdicts (R248-R252) -/

/-- The type that follows the VLAN tags, any HSR tag and one R-TAG (R248). -/
def gridType (d : Bytes) (p : Parse) : Nat := if p.type = 0xF1C1 then beAt d (p.typeEnd + 4) 2 else p.type

/-- The offset of the GOOSE or SV header, its APPID, and the length that it gives itself and its APDU (R248). -/
def gridHead (d : Bytes) (p : Parse) : Nat × Nat :=
  let o := if p.type = 0xF1C1 then p.typeEnd + 6 else p.typeEnd
  (o, beAt d (o + 2) 2)

/-- What a seal unit finds wrong, 0 for nothing, before its tag is compared (R248, R252). The extension `x` starts where the APDU ends. -/
def sealPre (u : SealUnit) (reqTag : Bool) (d : Bytes) (p : Parse) (x : Option SealExt) : Nat :=
  if gridType d p != 0x88B8 && gridType d p != 0x88BA then 10
  else if u.cause ≠ 0 then u.cause
  else match x with
    | none => if u.st = 2 || reqTag then 1 else 0
    | some e =>
      let (o, n) := gridHead d p
      let fin := o + n + e.len
      if d.length < fin || e.tagLen != 16 || decide (4096 < e.authLen) || decide (66 < d.length - fin) then 4
      else if u.st = 1 && beAt d (o + n + e.keyOff) 4 != u.keyid then 2
      else 0

/-- The unit's verdict: 0 good, else a cause; the frame's data with the tag that a sign unit writes; bytes authenticated. -/
def sealWork (u : SealUnit) (reqTag : Bool) (d : Bytes) (p : Parse) (x : Option SealExt) : Nat × Bytes × Nat :=
  let c := sealPre u reqTag d p x
  if c ≠ 0 then (c, d, 0)
  else match x with
    | none => (0, d, 0)
    | some e =>
      let (o, n) := gridHead d p
      let mac (d : Bytes) (iv : Nat) : Nat := gmac u.key (u.ivFixed * 2 ^ 32 + iv) (natsOf (sub d (o + e.authOff) e.authLen))
      if u.st = 1 then
        (if mac d (beAt d (o + n + e.ivOff) 4) = beAt d (o + n + e.tagOff) 16 then 0 else 3, d, e.authLen)
      else
        let d := splice (splice d (o + n + e.keyOff) (toBE 4 u.keyid)) (o + n + e.ivOff) (toBE 4 u.ivCtr)
        (0, splice d (o + n + e.tagOff) (toBE 16 (mac d u.ivCtr)), e.authLen)

/-- What a unit's outcome counts (R252, R253). -/
def sealNote (u : Nat) (y : SealUnit) (contract src cause : Nat) (ext : Bool) (s : State) : State :=
  if cause ≠ 0 then sealFail cause contract src u y.slot s
  else if y.st = 2 then ev pgSeal 0x0102 1 s
  else ev pgSeal (if ext then 0x0100 else 0x0108) 1 s

/-- SEAL_VERDICT of unit `u` (R249, R251, R252); `cmp` when the two datapaths disagree. A unit works on the frame as received, whether or not
another has signed it. -/
def sealVerdict (u : Nat) (ext : Option SealExt) (cmp : Bool) (s : State) : State :=
  let y := unit u s
  match find? s.exp.frames y.frame with
  | none => s
  | some x =>
    let f := frm y.frame s
    if (y.st != 1 && y.st != 2) || !f.ended || !x.units.contains u then s
    else
      let b := x.unsigned.getD f.bytes
      let req := bitOf (dupSeal (conIdx x.bank x.contract) s) 10
      let (cause, d', n) := sealWork y req (frameData b) (parse (parseCfg f.gen s) (frameData b)) ext
      let cause := if cmp then 7 else cause
      let s := if n = 0 then s else ev pgSeal 0x0107 n s
      let s := if cmp then
          raise pgSeal 10 (ev pgSeal 0x0105 1 (setUnit u (fun z => { z with st := 3, compare := satAdd z.compare 1 0xFFFF }) s))
        else s
      let s := sealNote u y x.contract x.src cause ext.isSome s
      let sign := cause == 0 && y.st == 2
      let s := if sign then setFrm y.frame (fun f => { f with bytes := d' ++ fcsOf d' }) s else s
      setXf y.frame (fun z => { z with
        units := z.units.filter (fun v => !(v == u)), sealBad := z.sealBad || cause != 0
        unsigned := if sign then some b else z.unsigned }) (unitFree u s)

def execSealVerdict (t u : Nat) (ext : Option SealExt) (cmp : Bool) (s : State) : Res :=
  onService (fun s => sealVerdict u ext cmp (advance t s)) s

/-- The marshal returns a withdrawn unit to service (R249). -/
def sealReturn (u : Nat) (s : State) : State := setUnit u (fun x => if x.st = 3 then { x with st := 0 } else x) s

/-- IV_SKIP at takeover: every slot that permits signing moves on (R250). -/
def sealSkip (s : State) : State :=
  let skip := rf pgSeal 0x100 0 16 s
  s.msh.keys.foldl (fun a e =>
    if e.2.valid && nbit e.2.uses 1 then ev pgSeal 0x0109 1 (setKey e.1 { e.2 with ivCtr := min 0xFFFFFFFF (e.2.ivCtr + skip) } a) else a) s

/-! ## Residence-time histograms (R225, R226) -/

def histWord (h w : Nat) (s : State) : Word := tw tbHist h w s

/-- A frame sent on queue `q` under contract `con`, with transmit stamp `tx` and reference instant `ref` (R225, R226). -/
def histCount (q con tx ref : Nat) (s : State) : State :=
  (List.range 64).foldl (fun a h =>
    let w := histWord h 0 a
    let st (i : Nat) : Nat := ofStampWords (histWord h i a) (histWord h (i + 1) a) (histWord h (i + 2) a)
    let stop := st 7
    let noStop := histWord h 7 a == 0 && histWord h 8 a == 0 && histWord h 9 a == 0
    if bitOf w 0 && fld w 2 12 == (if bitOf w 1 then con else q) && decide (st 4 ≤ tx) && (noStop || decide (tx < stop)) then
      let r := (tx - ref) / 4096
      let base := fld (histWord h 2 a) 0 28
      let width := fld (histWord h 1 a) 0 24
      let bin := if r < base then 0 else if base + 30 * width ≤ r then 31 else (r - base) / width + 1
      let x := look {} a.exp.hist h
      let y : Hist := ⟨satAdd x.count 1 0xFFFFFFFF, max x.max (min r 0xFFFFFFFF), min x.min r,
        put 0 x.bins bin (satAdd (look 0 x.bins bin) 1 0xFFFFFFFF)⟩
      ev pgExp 0x0114 1 (setExp (fun e => { e with hist := put {} e.hist h y }) a)
    else a) s

/-- CLEAR (R226). -/
def histClear (h : Nat) (s : State) : State := setExp (fun e => { e with hist := put {} e.hist h {} }) s

/-! ## Banks (R200) -/

/-- Banks that a copy of EXP_BANK names: the live one, and that of the previous generation while frames still use it. -/
def bankNamed (b : Nat) (s : State) : Bool :=
  rf pgExp 0x100 0 1 s == b || (match find? s.regs.oldLive (rkey pgExp 0x100) with
    | some w => fld w 0 1 == b
    | none => false)

/-- Entries of a table in each bank. -/
def bankSize (tab : Nat) : Nat :=
  if tab = tbOpen then 512 else if tab = tbAlw then 2048 else 4096

/-- MSH_BANK_COPY.GO starts a copy of the bank in force; with no shadow bank there is none to fill (R200). -/
def bankCopyGo (s : State) : State :=
  if bankNamed (1 - rf pgExp 0x100 0 1 s) s then s else ev 0x020 0x0104 1 (setExp (fun e => { e with copyBusy := true }) s)

/-- BANK_COPY_DONE: the shadow bank holds the tables of the bank in force (R200). -/
def bankCopyDone (s : State) : State :=
  if !s.exp.copyBusy then s
  else
    let live := rf pgExp 0x100 0 1 s
    let tabs := [tbMap, tbCon, tbOpen, tbAlw, tbGrp]
    let inBank (k b : Nat) : Bool := tabs.contains (k / 2 ^ 30) && k / 64 % 2 ^ 24 / bankSize (k / 2 ^ 30) == b
    let kept := s.regs.tbl.filter (fun e => !inBank e.1 (1 - live))
    let src := s.regs.tbl.filter (fun e => inBank e.1 live)
    let new := src.foldr (fun e (a : Tab Word) =>
      let d := 64 * bankSize (e.1 / 2 ^ 30)
      ins a (if live = 0 then e.1 + d else e.1 - d) e.2) kept
    setExp (fun e => { e with copyBusy := false }) { s with regs := { s.regs with tbl := new } }

def execBankCopyDone (t : Nat) (s : State) : Res := onLive (fun s => bankCopyDone (advance t s)) s

/-- A lock has applied a new EXP_BANK (R200). -/
def bankFlip (s : State) : State := raise pgExp 12 (ev pgExp 0x0117 1 s)

/-! ## Registers, windows and the page check -/

/-- Cells of a frame in the express store. -/
def xCells (id : Nat) (s : State) : Nat := ((frm id s).bytes.length + 127) / 128

/-- Cells reserved by a bank (R210). -/
def storeRsv (bank : Nat) (s : State) : Nat :=
  25600 + ((List.range 2048).map (fun q =>
    alwInflight (alwIdx bank q) s * ((tf tbAlw (alwIdx bank q) 0 8 14 s + 127) / 128))).sum

def expRo (p off : Nat) (s : State) : Option Word :=
  if p = pgExp then
    if off = 0x104 then some (w32 (b2n s.exp.copyBusy + b2n (bankNamed 0 s && bankNamed 1 s) * 2))
    else if off = 0x10C then some (w32 (b2n s.exp.allowOver))
    else if off = 0x110 then some (w32 ((s.exp.frames.map (fun e => xCells e.1 s)).sum))
    else if off = 0x114 then some (w32 (storeRsv (rf pgExp 0x100 0 1 s) s))
    else if off = 0x118 then some (w32 s.exp.fsSeq)
    else if off = 0x124 then some (w32 s.exp.refuseLast)
    else none
  else if p = pgSeal then
    let bits (o : Nat) : Nat := (List.range 32).foldl (fun a u => a + b2n ((unit (o + u) s).st != 3) * 2 ^ u) 0
    if off = 0x104 then some (w32 (bits 0))
    else if off = 0x108 then some (w32 (bits 32))
    else if off = 0x10C then some (w32 ((s.exp.units.filter (fun e => e.2.st == 1 || e.2.st == 2)).length))
    else if off = 0x110 then some (w32 s.exp.sealLast)
    else if off = 0x114 then some (w32 s.exp.sealSlot)
    else none
  else none

/-- The windows of pages 0x180-0x187 and 0x18B; `m` for a marshal access. -/
def expWin (p off : Nat) (m : Bool) (s : State) : Option WinRef :=
  if off < 0x4000 || 0x8000 ≤ off then none
  else
    let o := off - 0x4000
    let base := rd p (if m then 0x104 else 0x100) s
    let bank := fld base 31 1
    let ref (tab size shift blk stride : Nat) (mask : Nat → Nat) : Option WinRef :=
      let i := fld base shift blk * (0x4000 / stride) + o / stride
      let w := o % stride / 4
      if size ≤ i then none else some ⟨tab, bank * bankSize tab + i, w, 0x4000 + bank, i, w, mask w, true, true, false⟩
    match p with
    | 0x180 => some ⟨0, o, 0, 0x4000, 0, 0, 0, true, false, false⟩
    | 0x181 => ref tbMap 4096 8 4 64 (fun w => if w = 0 then 0x0FFF000F else if 4 ≤ w && w < 12 then 0xFFFFFFFF else 0)
    | 0x182 => ref tbCon 4096 9 3 32 (fun w => match w with
        | 0 => 0xF | 1 => 0xFFFFF | 2 => 0xFFFFFF | 3 => 0xFFFFFF | 4 => 0x3FFF | 6 => 0x07FFDFFF | _ => 0)
    | 0x183 => ref tbOpen 289 31 0 32 (fun w => if w = 0 then 0xFF else if w ≤ 4 then 0x0FFF0FFF else 0)
    | 0x184 => ref tbAlw 2048 31 0 8 (fun w => if w = 0 then 0x3FFFFF else 0xFFFFFF)
    | 0x185 => ref tbGrp 4096 8 4 64 (fun w => if w = 0 then 3 else if w ≤ 10 then 0xFFFFFFFF else if w = 11 then 0xF else 0)
    | 0x186 =>
      let w := o % 256 / 4
      if 63 < o / 256 then none
      else some ⟨tbHist, o / 256, w, 0x4000, o / 256, w, (match w with
        | 0 => 0x3FFF | 1 => 0xFFFFFF | 2 => 0x0FFFFFFF | 3 => 1
        | _ => if 4 ≤ w && w ≤ 9 then 0xFFFFFFFF else 0), false, false, false⟩
    | 0x187 => some ⟨0, o, 0, 0x4000, 0, 0, 0, false, false, false⟩
    | 0x18B => if o < 512 then some ⟨0, o, 0, 0x4000, 0, 0, 0, true, false, false⟩ else none
    | _ => none

/-- The words of those windows that the engines own. -/
def expWinRo (p off : Nat) (r : WinRef) (s : State) : Option Word :=
  let o := off - 0x4000
  if p = 0x180 then
    some (match find? s.exp.fsRing (o / 32 % 512) with
      | none => 0
      | some x => (match o % 32 / 4 with
        | 0 => stampA x.stamp | 1 => stampB x.stamp | 2 => stampC x.stamp | 3 => w32 x.w3 | 4 => w32 x.w4 | 5 => w32 x.seq | _ => 0))
  else if p = 0x182 && r.word = 5 then some (w32 (unsgn ((look (0, 0) s.exp.level r.index).1 / (secU : Int)) 25))
  else if p = 0x186 then
    let x := look {} s.exp.hist r.idx
    (if r.word = 3 then some 0
     else if r.word = 10 then some (w32 x.count)
     else if r.word = 11 then some (w32 x.max)
     else if r.word = 12 then some (w32 x.min)
     else if 13 ≤ r.word && r.word < 32 then some 0
     else if 32 ≤ r.word then some (w32 (look 0 x.bins (r.word - 32)))
     else none)
  else if p = 0x187 then
    let q := o / 8
    let cells := ((s.exp.frames.map (fun e => (e.2.copies.filter (fun c => !c.gone && c.dst == .chan (q / 8) && e.2.cls == q % 8)).length *
      xCells e.1 s))).sum
    some (if o % 8 = 0 then w32 (inflight q s % 256 + cells % 2 ^ 18 * 256) else w32 (look 0 s.exp.refused q))
  else if p = 0x18B then
    let y := unit (o / 8) s
    some (if o % 8 = 0 then w32 (y.st + y.slot % 256 * 4 + y.compare * 2 ^ 16) else w32 y.served)
  else none

/-- A write aimed at a bank that a copy of EXP_BANK names, or made during a bank copy, is discarded (R200). -/
def expBankBusy (r : WinRef) (s : State) : Bool :=
  (r.tab == tbMap || r.tab == tbCon || r.tab == tbOpen || r.tab == tbAlw || r.tab == tbGrp) &&
  (s.exp.copyBusy || bankNamed (r.idx / bankSize r.tab) s)

/-- EXP_FS_RD_SEQ accepts only values in [RD_SEQ, WR_SEQ] (R220). -/
def fsRdBad (v : Word) (s : State) : Bool :=
  let r := (rd pgExp 0x11C s).toNat
  decide ((s.exp.fsSeq + 2 ^ 32 - r) % 2 ^ 32 < (v.toNat + 2 ^ 32 - r) % 2 ^ 32)

/-- The queues' rate sum of a channel exceeds 75 percent of its port (R208, condition 0x06). -/
def allowBad (bank c : Nat) (s : State) : Bool :=
  chSpeed c s != 0 && macMbps (chSpeed c s) != 0 &&
  decide (macMbps (chSpeed c s) * 750 < ((List.range 8).map (fun k => tf tbAlw (alwIdx bank (8 * c + k)) 1 0 24 s * 64)).sum)

/-- A channel has been enabled: ALLOW_OVER (R208). -/
def expChannelEnabled (c : Nat) (s : State) : State :=
  if rb pgExp 0x008 0 s && allowBad (rf pgExp 0x100 0 1 s) c s then raise pgExp 13 (setExp (fun e => { e with allowOver := true }) s) else s

/-- The contracts and classes that the map and the source open table of a bank lead to. -/
def conUses (bank : Nat) (s : State) : List (Nat × Nat) :=
  ((mapValid bank s).map (fun i => (tf tbMap i 0 16 12 s, tf tbMap i 0 1 3 s))) ++
  (List.range 289).flatMap (fun src => (List.range 8).filterMap (fun k => (opened bank src k s).map (fun c => (c, k))))

/-- The local channels of a fabric destination port. -/
def portChans (d : Nat) (s : State) : List Nat :=
  match resPort d s with
  | .chan c => [c]
  | _ => []

/-- The local channel that a next hop gives (R202). -/
def hopChans (n : Nat) (s : State) : List Nat :=
  let w0 := tw tbNh n 0 s
  if bitOf w0 0 && !bitOf w0 3 && fld w0 1 2 == 0 then portChans (fld w0 16 16) s else []

/-- The local channels of a flow entry's next hop, which a FLOW contract can find (R178, R202). -/
def flowChans (e : FlowE) (s : State) : List Nat :=
  let w := e.data.getD 0 0
  if e.vrf == 0 && nfld w 21 3 == 0 && !nbit w 20 then hopChans (w % 2 ^ 20) s else []

/-- The channels of an express group: its mask, and its fabric destination ports that are local (R221). -/
def groupChans (i : Nat) (s : State) : List Nat :=
  (List.range 256).filter (fun c => tb tbGrp i (1 + c / 32) (c % 32) s) ++
  (List.range 4).flatMap (fun n => if tb tbGrp i 11 n s then portChans (tf tbGrp i (9 + n / 2) (n % 2 * 16) 16 s) s else [])

/-- The channels that a contract can reach: those of its destination, each with the other channel of its pair (R202, R238). -/
def conChans (i : Nat) (s : State) : List Nat :=
  let target := tf tbCon i 1 0 20 s
  let cs := match tf tbCon i 0 1 3 s with
    | 0 => [target % 256]
    | 1 => portChans (target % 65536) s
    | 2 => groupChans (i / 4096 * 4096 + target % 4096) s
    | 3 => s.ftb.flow.foldl (fun (a : List Nat) (e : Nat × FlowE) => (flowChans e.2 s).foldl add a) []
    | 4 => hopChans target s
    | _ => []
  cs.flatMap (fun c => match pairOf s.lock.gen c s with
    | some (v, _) => [v.chA, v.chB]
    | none => [c])

/-- A histogram's window closes before it opens (R90). -/
def histBad (h : Nat) (s : State) : Bool :=
  let st (i : Nat) : Nat := ofStampWords (histWord h i s) (histWord h (i + 1) s) (histWord h (i + 2) s)
  bitOf (histWord h 0 s) 0 && !(histWord h 7 s == 0 && histWord h 8 s == 0 && histWord h 9 s == 0) && decide (st 7 < st 4)

/-- The EXP page check of the bank that ACTIVE names (R208); R90 adds the histograms' windows, with a reason that no rule gives (log entry 240).
A closed queue is out of reach (log entry 21). -/
def expCheck (s : State) : Option Nat :=
  let bank := rf pgExp 0x100 0 1 s
  let cons := (List.range 4096).filter (fun c => tb tbCon (conIdx bank c) 0 0 s)
  let uses := conUses bank s
  let badLen (c : Nat) : Bool :=
    let i := conIdx bank c
    let m := conMaxlen i s
    decide (m < 64) || decide (16383 < m) || decide (tf tbCon i 3 0 24 s < m) ||
    uses.any (fun u => u.1 == c && (conChans i s).any (fun ch =>
      alwInflight (alwIdx bank (8 * ch + u.2)) s != 0 && decide (tf tbAlw (alwIdx bank (8 * ch + u.2)) 0 8 14 s < m)))
  let badGrp (c : Nat) : Bool :=
    let i := conIdx bank c
    tf tbCon i 0 1 3 s == 2 && (!tb tbGrp (bank * 4096 + tf tbCon i 1 0 12 s) 0 0 s ||
      uses.any (fun u => u.1 == c && (conChans i s).any (fun ch => alwInflight (alwIdx bank (8 * ch + u.2)) s == 0)))
  if 196608 < storeRsv bank s then some 0x01
  else if cons.any badLen then some 0x02
  else if cons.any (fun c => tf tbCon (conIdx bank c) 2 0 24 s == 0 || decide (5 ≤ tf tbCon (conIdx bank c) 0 1 3 s)) then some 0x03
  else if uses.any (fun u => !cons.contains u.1) then some 0x04
  else if cons.any badGrp then some 0x05
  else if (channels s).any (fun c => allowBad bank c s) then some 0x06
  else if s.fixed.ident.varH && (upto 1024 1024).any (fun q => alwInflight (alwIdx bank q) s != 0) then some 0x07
  else if s.exp.copyBusy then some 0x08
  else if (List.range 64).any (fun h => histBad h s) then some (Config.windowReason 0x180).toNat
  else none

end Sys2Proof.Machine
end

