-- ==== Sys2Proof/Machine/Fab.lean ====
section
/-! DEFINITION. The Porig fabric: lanes and links, floods, addresses, routes, barges received and sent, relaying, reorder contexts, trees (R305-R343). -/
namespace Sys2Proof.Machine

/-! ## Encoding (R309, R310) -/

/-- The lengths that a type may have (R310). -/
def barLenOk (ty len : Nat) : Bool :=
  match ty with
  | 0 => len == 0
  | 1 | 2 | 3 => decide (1 ≤ len) && decide (len ≤ 512)
  | 4 => decide (4 ≤ len) && decide (len ≤ 512) && len % 4 == 0
  | 8 => len == 64
  | 9 => len == 32
  | 10 => decide (12 ≤ len) && decide (len ≤ 504) && len % 12 == 0
  | 11 => decide (4 ≤ len) && decide (len ≤ 512)
  | _ => false

def barType (ty : Nat) : Bool := ty ≤ 4 || (decide (8 ≤ ty) && decide (ty ≤ 11))

/-- CRC-16 of a payload (R309). -/
def pchk (b : Bytes) : Nat := if b.isEmpty then 0xFFFF else crcF 16 0x1021 0xFFFF b

/-- A barge in blocks, with a credit report (R308, R309). -/
def barEncode (b : Barge) (crPool crCount : Nat) : Bytes :=
  let w0 := b.type % 16 * 2 ^ 28 + b.dest % 1024 * 2 ^ 18 + b.src % 1024 * 2 ^ 8 + b.hops % 4 * 2 ^ 6 + b2n b.sof * 32 + b2n b.eof * 16 + b.cls % 16
  let w1 := b.dfp % 65536 * 65536 + b.seq % 65536
  let w2 := b.pay.length % 1024 * 2 ^ 22 + b.colour % 4 * 2 ^ 20 + b2n b.ect * 2 ^ 19 + b2n b.bad * 2 ^ 18 + crPool % 16 * 2 ^ 12 + crCount % 4096
  let h := toBE 4 w0 ++ toBE 4 w1 ++ toBE 4 w2 ++ toBE 2 (pchk b.pay) ++ [0]
  h ++ [BitVec.ofNat 8 (crcF 8 0x07 0 h)] ++ b.pay ++ zeros ((b.pay.length + 15) / 16 * 16 - b.pay.length)

/-- The header's check is right. -/
def hcsOk (r : Bytes) : Bool := crcF 8 0x07 0 (sub r 0 15) == byteAt r 15

def barLen (r : Bytes) : Nat := beAt r 8 4 / 2 ^ 22

/-- The barge that bytes hold. -/
def barDecode (r : Bytes) : Barge :=
  let w0 := beAt r 0 4
  let w1 := beAt r 4 4
  let w2 := beAt r 8 4
  { type := nfld w0 28 4, dest := nfld w0 18 10, src := nfld w0 8 10, hops := nfld w0 6 2, sof := nbit w0 5, eof := nbit w0 4,
    cls := nfld w0 0 4, dfp := nfld w1 16 16, seq := nfld w1 0 16, colour := nfld w2 20 2, ect := nbit w2 19, bad := nbit w2 18,
    pay := sub r 16 (barLen r) }

/-! ## Control payloads (R317) -/

/-- Pool sizes that the device advertises, by CR_POOL (R313). -/
def poolSize (p : Nat) : Nat :=
  match p with
  | 0 => 128 | 1 => 512 | 2 => 256 | 3 => 256 | 4 => 2560 | 5 => 1024 | 6 => 512 | _ => 0

def helloPay (f : Nat) (s : State) : Bytes :=
  toBE 8 (fabSerial s) ++ toBE 8 (fabPartner s) ++ toBE 1 (fabFlags s) ++ toBE 1 f ++ toBE 2 (s.fab.addr.getD 0) ++
    (List.range 7).flatMap (fun p => toBE 2 (poolSize p)) ++ toBE 2 1 ++ zeros 28

def announcePay (s : State) : Bytes :=
  let pin := rb pgFab 0x100 4 s
  let a := if pin && s.fab.addr.isNone then rf pgFab 0x100 16 10 s else s.fab.addr.getD 0
  toBE 8 (fabSerial s) ++ toBE 8 (fabPartner s) ++ toBE 1 (fabFlags s) ++ zeros 1 ++ toBE 2 (a + b2n pin * 32768) ++ zeros 12

/-- A valid HELLO (R316, R317). -/
def helloOk (b : Barge) : Bool := b.type == 8 && b.pay.length == 64 && beAt b.pay 34 2 == 1

/-! ## Floods (R318) -/

/-- A link's control queue. -/
def ctlCount (k : Nat) (s : State) : Nat := ((joined k s).map (fun f => (fabLane f s).ctl.length)).sum

/-- A control barge is queued on a link: its lowest joined lane; discarded when the queue is full (R318). -/
def ctlOn (k : Nat) (b : Barge) (s : State) : State :=
  match joined k s with
  | [] => s
  | f :: _ =>
    if 64 ≤ ctlCount k s then
      ev pgFab 0x0115 1 (setFab (fun x => { x with ctlDrop := put 0 x.ctlDrop k (satAdd (look 0 x.ctlDrop k) 1 0xFFFF) }) s)
    else setFLane f (fun l => { l with ctl := l.ctl ++ [b] }) s

/-- A flooded barge leaves on every link with a joined lane but one. -/
def floodOn (b : Barge) (not : Option Nat) (s : State) : State :=
  (links s).foldl (fun a k => if not == some k then a else ctlOn k b a) s

/-- The parts of a payload list as flooded barges. -/
def floodParts (ty seq : Nat) (parts : List Bytes) (s : State) : State :=
  (parts.zipIdx).foldl (fun a e =>
    floodOn { type := ty, src := s.fab.addr.getD 0, dfp := (parts.length - 1) * 256 + e.2, seq := seq, pay := e.1 } none a)
    (setFab (fun f => { f with sent := ins f.sent ty s.tim.up }) s)

/-- A list in pieces of at most `n`. -/
def pieces (n : Nat) : Nat → List Nat → List (List Nat)
  | 0, _ => []
  | fuel + 1, l => if l.length ≤ n then [l] else l.take n :: pieces n fuel (l.drop n)

def sendAnnounce (s : State) : State :=
  let q := (s.fab.annSeq + 1) % 65536
  floodParts 9 q [announcePay s] (setFab (fun f => { f with annSeq := q }) s)

/-- Capacity of a link in lane equivalents of 106.25 Gb/s. -/
def linkCap (k : Nat) (s : State) : Nat := ((joined k s).map (fun f => if rb (licPage f) 0x300 1 s then 1 else 2)).sum

/-- The neighbour of a link: its address if valid, its SERIAL, and whether it is pair-facing. -/
def linkNbr (k : Nat) (s : State) : Option Nat × Nat × Bool :=
  match linkLanes k s with
  | [] => (none, 0, false)
  | f :: _ => ((fabLane f s).addr, (fabLane f s).nbr, (fabLane f s).paired)

/-- The entries of this device's LSA (R317). -/
def lsaEntries (s : State) : List Nat :=
  (links s).filterMap (fun k => match linkNbr k s with
    | (some a, _, pf) => some (a * 2 ^ 22 + min 512 (linkCap k s) * 2 ^ 12 + k * 16 + b2n pf * 8)
    | _ => none)

def sendLsa (s : State) : State :=
  match s.fab.addr with
  | none => s
  | some a =>
    let q := (s.fab.lsaSeq + 1) % 65536
    let parts := (pieces 127 9 (lsaEntries s)).map (fun l => toBE 2 a ++ toBE 2 l.length ++ l.flatMap (toBE 4))
    floodParts 11 q parts (setFab (fun f => { f with lsaSeq := q }) s)

/-- The assignment in force as ASSIGN parts, the master's entry first (R317, R318). -/
def sendAssign (s : State) : State :=
  let q := (s.fab.assignSeq + 1) % 65536
  let own := fabSerial s
  let ent (sr : Nat) : Bytes := match find? s.fab.assign sr with
    | some a => toBE 8 sr ++ toBE 2 (a + 32768) ++ zeros 2
    | none => toBE 8 sr ++ zeros 4
  let rest := (s.fab.devs.map (·.1)).filter (fun d => !(d == own))
  let parts := (pieces 41 40 rest).map (fun l => (own :: l).flatMap ent)
  floodParts 10 q parts (setFab (fun f => { f with assignSeq := q }) s)

/-- The key of an originator's floods. -/
def floodKey (ty orig : Nat) : Nat := ty * 2 ^ 64 + orig

/-- A flooded part is accepted: its sequence is newer, or it is another part of the last one (R318). -/
def floodNew (ty orig seq part : Nat) (s : State) : Bool :=
  match find? s.fab.floods (floodKey ty orig) with
  | none => true
  | some x =>
    let d := (seq + 65536 - x.seq) % 65536
    (decide (1 ≤ d) && decide (d ≤ 32767)) || (d == 0 && !has x.parts part)

/-- The first part of a newer flood. -/
def floodFirst (ty orig seq : Nat) (s : State) : Bool :=
  match find? s.fab.floods (floodKey ty orig) with
  | none => true
  | some x => x.seq != seq

def floodNote (ty orig seq part : Nat) (s : State) : State :=
  let parts := if floodFirst ty orig seq s then [] else (match find? s.fab.floods (floodKey ty orig) with
    | some x => x.parts
    | none => [])
  setFab (fun f => { f with floods := ins f.floods (floodKey ty orig) ⟨seq, add parts part, s.tim.up⟩ }) s

/-! ## Routes (R322, R323, R338, R339) -/

/-- Devices that the port table names, other than this one. -/
def portDevs (s : State) : List Nat :=
  s.regs.tbl.foldl (fun a e =>
    if e.1 / 2 ^ 30 = tbFPort && e.1 % 64 = 0 && bitOf e.2 0 && !(s.fab.addr == some (fld e.2 1 10)) then add a (fld e.2 1 10) else a) []

/-- The ports of a device (R339). -/
def portsOf (v : Nat) (s : State) : List Nat :=
  s.regs.tbl.filterMap (fun e =>
    if e.1 / 2 ^ 30 = tbFPort && e.1 % 64 = 0 && bitOf e.2 0 && fld e.2 1 10 == v then some (e.1 / 64 % 2 ^ 24) else none)

/-- Routes have changed: devices without a path are noted, and those that have one again are reachable (R339). -/
def routesNoted (s : State) : State :=
  (portDevs s).foldl (fun a v =>
    if (pathsTo v a).isEmpty then
      (if (find? a.fab.noPath v).isSome then a else setFab (fun f => { f with noPath := ins f.noPath v a.tim.up }) a)
    else
      let was := has a.fab.unreach v
      let a := setFab (fun f => { f with noPath := del f.noPath v, unreach := rem f.unreach v }) a
      if was then raise pgFab 11 (setBas (fun b => { b with unreach := b.unreach.filter (fun d => !has (portsOf v a) d) }) a) else a) s

/-- Adjacency: the neighbours that a device's LSA lists. -/
def lsaNbrs (v : Nat) (s : State) : List Nat := (look [] s.fab.lsas v).map (fun e => nfld e 22 10)

/-- The device paths to `v`, as first link and hops (R323). -/
def pathsHop1 (v : Nat) (s : State) : List (Nat × Nat) :=
  (links s).filterMap (fun k => if (linkNbr k s).1 == some v then some (k, 1) else none)

def pathsHop2 (v : Nat) (s : State) : List (Nat × Nat) :=
  (links s).filterMap (fun k => match (linkNbr k s).1 with
    | some x => if x != v && (lsaNbrs x s).contains v then some (k, 2) else none
    | none => none)

def pathsHop3 (v : Nat) (s : State) : List (Nat × Nat) :=
  (links s).flatMap (fun k => match (linkNbr k s).1 with
    | some x => if x = v then [] else
        (lsaNbrs x s).filterMap (fun y =>
          if y != v && y != x && !(s.fab.addr == some y) && (lsaNbrs y s).contains v then some (k, 3) else none)
    | none => [])

/-- The paths of R323 to `v`, ordered, at most 64, with their fewest hops. -/
def computePaths (v : Nat) (s : State) : List (Nat × Nat) × Nat :=
  let h1 := pathsHop1 v s
  let h2 := pathsHop2 v s
  let spray := rb pgFab 0x100 2 s
  let sortLink (l : List (Nat × Nat)) : List (Nat × Nat) := l.mergeSort (fun a b => decide (a.1 ≤ b.1))
  if !h1.isEmpty then ((sortLink h1 ++ (if spray then sortLink h2 else [])).take 64, 1)
  else if !h2.isEmpty then ((sortLink h2 ++ (if spray then sortLink (pathsHop3 v s) else [])).take 64, 2)
  else ((sortLink (pathsHop3 v s)).take 64, 3)

/-- The path entries of `v`: weights in proportion to the first link's capacity, doubled on the shortest paths, the largest
15 and none below 1 (R322, R323, log entry 41). -/
def pathWords (v : Nat) (s : State) : List Nat :=
  let (ps, m) := computePaths v s
  let raw := ps.map (fun p => linkCap p.1 s * (if p.2 = m then 2 else 1))
  let top := raw.foldl max 1
  (ps.zip raw).map (fun e => e.1.1 + e.1.2 * 256 + max 1 (e.2 * 15 / top) * 1024 + b2n (decide (m < e.1.2)) * 16384 + 32768)

/-- A route entry takes its paths. -/
def routePut (v : Nat) (ws : List Nat) (s : State) : State :=
  let s := tput tbRt v 0 (w32 ws.length) s
  (List.range 32).foldl (fun a i => tput tbRt v (4 + i) (w32 (ws.getD (2 * i) 0 + ws.getD (2 * i + 1) 0 * 65536)) a) s

/-- Every device that has a route entry, an LSA, or is a neighbour. -/
def routeDevs (s : State) : List Nat :=
  let a := s.regs.tbl.foldl (fun a e => if e.1 / 2 ^ 30 = tbRt then add a (e.1 / 64 % 2 ^ 24) else a) []
  let a := s.fab.lsas.foldl (fun a e => add (e.2.foldl (fun b x => add b (nfld x 22 10)) a) e.1) a
  let a := (links s).foldl (fun a k => match (linkNbr k s).1 with
    | some v => add a v
    | none => a) a
  a.filter (fun v => !(s.fab.addr == some v))

/-- ROUTE_COMPUTE (R323). -/
def routeCompute (s : State) : State :=
  if rb pgFab 0x100 1 s || !rb pgFab 0x008 0 s then s
  else
    let s := (routeDevs s).foldl (fun a v => routePut v (pathWords v s) a) s
    let s := setFab (fun f => { f with cur := [], routesValid := true, routeGen := (f.routeGen + 1) % 65536 }) s
    routesNoted (raise pgFab 10 (ev pgFab 0x011A 1 s))

/-- Every path through a link leaves the route table (R338). -/
def routesWithout (k : Nat) (s : State) : State :=
  let s := (routeDevs s).foldl (fun a v =>
    let n := min 64 (tf tbRt v 0 0 7 a)
    let ws := (List.range n).map (fun i => tf tbRt v (4 + i / 2) (i % 2 * 16) 16 a)
    if ws.any (fun w => nfld w 0 8 == k) then routePut v (ws.filter (fun w => nfld w 0 8 != k)) a else a) s
  routesNoted (setFab (fun f => { f with cur := [] }) s)

/-! ## Lanes and links (R316, R329) -/

/-- A lane changes state. -/
def flGo (f : Nat) (st : Nat) (s : State) : State := ev pgFab 0x0118 1 (setFLane f (fun l => { l with st := st }) s)

/-- Links changed: the LSA is flooded, and a link that is gone leaves the routes (R316, R318, R338). -/
def linkChanged (k : Nat) (was : Bool) (s : State) : State :=
  let is := !(linkLanes k s).isEmpty
  let s := if was && !is then routesWithout k s else s
  let s := if was != is then raise pgFab 9 (ev pgFab 0x0119 1 s) else s
  sendLsa s

/-- The open frames of a lane's receiver end (R327, R335). -/
def endOpenX (f : Nat) (s : State) : State :=
  match (fabLane f s).openX with
  | none => s
  | some (id, _) =>
    let s := setFLane f (fun l => { l with openX := none }) s
    if frmLive id s then
      ev pgFab 0x0116 1 (verdictBad id 7 (setFrm id (fun x => { x with ended := true, bad := true }) s))
    else s

def endOpenT (f : Nat) (s : State) : State :=
  match (fabLane f s).openT with
  | none => s
  | some (id, _, _) =>
    let s := setFLane f (fun l => { l with openT := none }) s
    ev pgFab 0x010F 1 (setFrm id (fun x => { x with ended := true, bad := true }) s)

/-- A lane leaves JOINED: its queued bulk barges return to the choice of R330. -/
def laneReturns (f : Nat) (s : State) : State :=
  let l := fabLane f s
  let back := l.bulk.map (fun b => { b with bad := true })
  setFab (fun x => { x with bulkOut := back ++ x.bulkOut })
    (setFLane f (fun l => { l with bulk := [], xq := [], tree := [], ctl := [], txOpenX := none, txOpenT := none }) s)

/-- A lane goes DOWN (R316). -/
def laneDown (f : Nat) (s : State) : State :=
  let l := fabLane f s
  let was := l.st = 2 || l.st = 3
  let s := if l.st = 2 then laneReturns f s else s
  let s := endOpenT f (endOpenX f s)
  let s := setFLane f (fun l => { hcsErr := l.hcsErr, timeouts := l.timeouts, lastTx := l.lastTx, st := l.st }) s
  let s := flGo f 0 s
  if was then sprayAgain (linkChanged l.link true s) else s

/-- A lane in JOINED is lost: DOWN, or HOLD toward a pair (R316). -/
def laneLost (f : Nat) (s : State) : State :=
  let l := fabLane f s
  match l.st with
  | 2 =>
    if l.paired then
      let s := laneReturns f s
      let s := ev pgFab 0x011C 1 (flGo f 3 (setFLane f (fun l => { l with holdAt := s.tim.up }) s))
      sprayAgain (linkChanged l.link true s)
    else laneDown f s
  | 1 => laneDown f s
  | _ => s

/-- EN of a lane entry. -/
def fabLaneEn (f : Nat) (s : State) : Bool := tb tbLane f 0 0 s && rb pgFab 0x008 0 s

/-- The LIC reports a lane UP (R316). -/
def fabLaneUp (f : Nat) (s : State) : State :=
  if fabLaneEn f s && (fabLane f s).st = 0 && (flane f s).st = 3 then flGo f 1 s else s

/-- FLANE_UP and FLANE_DOWN of an F-lane with what FAB makes of them (R100, R316). -/
def flaneUpFab (n : Nat) (locked : Bool) (s : State) : State := fabLaneUp n (flaneUpEffect n locked s)
def flaneDownFab (n what : Nat) (s : State) : State :=
  let was := (flane n s).st = 3
  let s := flaneDownEffect n what s
  if was then laneLost n s else s

/-- A lane entry has been written (R316). -/
def fabLaneWritten (f : Nat) (s : State) : State :=
  if fabLaneEn f s then fabLaneUp f s else if (fabLane f s).st = 0 then s else laneDown f s

/-- The link that a lane joins: that of the neighbour's SERIAL, or a new one (R316). -/
def linkFor (f serial : Nat) (s : State) : Nat :=
  match s.fab.lanes.find? (fun e => (e.2.st == 2 || e.2.st == 3) && e.2.nbr == serial) with
  | some e => e.2.link
  | none => if (linkLanes f s).isEmpty then f else ((List.range 256).find? (fun k => (linkLanes k s).isEmpty)).getD f

/-- A valid HELLO on a lane (R316, R314). -/
def helloReceived (f : Nat) (b : Barge) (s : State) : State :=
  let l := fabLane f s
  let serial := beAt b.pay 0 8
  let flags := byteAt b.pay 16
  let credit : Tab Nat := (List.range 7).map (fun p => (p, beAt b.pay (20 + 2 * p) 2))
  let note (l : FabLane) : FabLane := { l with
    helloAt := s.tim.up, paired := nbit flags 1, far := byteAt b.pay 17, nbr := serial,
    addr := if nbit flags 0 then some (beAt b.pay 18 2 % 1024) else none }
  let join (k : Nat) (s : State) : State :=
    let had := (links s).length
    let was := !(linkLanes k s).isEmpty
    let s := setFLane f (fun l => { note l with
      link := k, credit := credit.filter (fun e => e.2 != 0), lastCr := [], freed := [], told := [] }) s
    let s := linkChanged k was (flGo f 2 s)
    let s := if had = 0 then sendAnnounce s else s
    sprayAgain s
  match l.st with
  | 1 => join (linkFor f serial s) s
  | 2 =>
    if serial = l.nbr then
      let s := setFLane f note s
      if l.addr = (fabLane f s).addr then s else sendLsa s
    else s
  | 3 => if serial = l.nbr && (flane f s).st = 3 then join l.link s else s
  | _ => s

/-! ## Addresses (R319, R320) -/

/-- The known devices that may be master, this one among them; the lowest SERIAL is (R319). -/
def masterSerial (s : State) : Option Nat :=
  let own := if rb pgFab 0x100 3 s then [fabSerial s] else []
  let l := own ++ (s.fab.devs.filter (fun e => nbit e.2.flags 3)).map (·.1)
  l.foldl (fun a x => match a with
    | none => some x
    | some y => some (min x y)) none

def masterNoted (s : State) : State :=
  let m := masterSerial s
  setFab (fun f => { f with master := m, isMaster := m == some (fabSerial s) && rb pgFab 0x100 3 s }) s

/-- The device takes or loses an address (R319). -/
def setAddr (a : Option Nat) (s : State) : State :=
  if s.fab.addr = a then s
  else routesNoted (sendLsa (raise pgFab 12 (setFab (fun f => { f with addr := a }) s)))

/-- ADDR_CONFLICT takes a value. -/
def setConflict (c : Bool) (s : State) : State :=
  let s' := setFab (fun f => { f with conflict := c }) s
  if c && !s.fab.conflict then raise pgFab 15 s' else s'

/-- The device's address meets the announcements of other devices (R320). -/
def conflictJudge (s : State) : State :=
  if s.fab.addr.isSome then setConflict (s.fab.devs.any (fun e => nbit e.2.flags 0 && s.fab.addr == some e.2.addr)) s else s

/-- The device starts, or a lock has changed FAB_CFG: a static address is taken (R320). -/
def fabConfigured (s : State) : State :=
  let s := if rb pgFab 0x100 0 s && rb pgFab 0x008 0 s then setAddr (some (rf pgFab 0x100 16 10 s)) s else s
  let s := masterNoted (conflictJudge s)
  (List.range 256).foldl (fun a f => if tb tbLane f 0 0 a || (fabLane f a).st != 0 then fabLaneWritten f a else a) s

/-- Addresses in use. -/
def addrsUsed (t : Tab Nat) : List Nat := t.map (·.2)

/-- One step of R319 over devices in ascending SERIAL: each takes the address that `want` gives it, if it is free. -/
def assignStep (want : Nat → Option Nat) (l : List Nat) (t : Tab Nat) : Tab Nat :=
  l.foldl (fun t sr =>
    if (find? t sr).isSome then t
    else match want sr with
      | some a => if (addrsUsed t).contains a || decide (1024 ≤ a) then t else ins t sr a
      | none => t) t

/-- The lowest free address (R319). -/
def assignLowest (l : List Nat) (t : Tab Nat) : Tab Nat :=
  l.foldl (fun t sr =>
    if (find? t sr).isSome then t
    else match (List.range 1024).find? (fun a => !(addrsUsed t).contains a) with
      | some a => ins t sr a
      | none => t) t

/-- The master's preference for a SERIAL (page 0x1B6). -/
def prefOf (sr : Nat) (s : State) : Option Nat :=
  (List.range 1024).findSome? (fun i =>
    if tb tbPref i 2 31 s && (tw tbPref i 0 s).toNat + (tw tbPref i 1 s).toNat * 2 ^ 32 == sr then some (tf tbPref i 2 0 10 s) else none)

/-- The assignment that the master makes (R319). -/
def assignAll (s : State) : Tab Nat :=
  let own := fabSerial s
  let selfDev : FabDev := ⟨fabPartner s, fabFlags s,
    if rb pgFab 0x100 4 s && s.fab.addr.isNone then rf pgFab 0x100 16 10 s else s.fab.addr.getD 0, rb pgFab 0x100 4 s⟩
  let devs := ins s.fab.devs own selfDev
  let l := devs.map (·.1)
  let holds (sr : Nat) : Option Nat := match find? devs sr with
    | some d => if nbit d.flags 0 then some d.addr else find? s.fab.assign sr
    | none => none
  let t := assignStep holds l []
  let t := assignStep (fun sr => prefOf sr s) l t
  let pins := l.filter (fun sr => match find? devs sr with | some d => d.pin | none => false)
  let t := assignStep (fun sr => (find? devs sr).map (·.addr)) pins t
  assignLowest (l.filter (fun sr => !pins.contains sr)) t

/-- The assignment says what this device's address is (R319, R320). -/
def assignApplied (s : State) : State :=
  if rb pgFab 0x100 0 s then s
  else match find? s.fab.assign (fabSerial s) with
    | some a => conflictJudge (setAddr (some a) s)
    | none => if rb pgFab 0x100 4 s then setConflict true s else s

/-- No new ANNOUNCE for SETTLE x 10 ms. -/
def fabSettled (s : State) : Bool := decide (s.fab.settledAt + rf pgFab 0x104 8 8 s * 10000000 * 2 ^ 32 ≤ s.tim.up)

/-- MASTER_ASSIGN: the master assigns once no new ANNOUNCE has come for SETTLE, and to every device announced later (R319). -/
def masterAssign (s : State) : State :=
  let s := masterNoted s
  if !s.fab.isMaster || !(s.fab.settled || fabSettled s) || !rb pgFab 0x008 0 s then s
  else
    let t := assignAll s
    let s := setFab (fun f => { f with settled := true, assign := t }) s
    assignApplied (sendAssign s)

/-! ## Receiving: floods and ACK (R318, R319, R333) -/

def announceReceived (k : Nat) (b : Barge) (s : State) : State :=
  let sr := beAt b.pay 0 8
  if sr = fabSerial s || !floodNew 9 sr b.seq 0 s then s
  else
    let a := beAt b.pay 18 2
    let new := (find? s.fab.devs sr).isNone
    let s := setFab (fun f => { f with
      devs := ins f.devs sr ⟨beAt b.pay 8 8, byteAt b.pay 16, a % 1024, nbit a 15⟩,
      settledAt := if new then s.tim.up else f.settledAt, settled := f.settled || fabSettled s }) (floodNote 9 sr b.seq 0 s)
    floodOn b (some k) (conflictJudge (masterNoted s))

def assignReceived (k : Nat) (b : Barge) (s : State) : State :=
  let m := beAt b.pay 0 8
  let part := b.dfp % 256
  if m = fabSerial s || !floodNew 10 m b.seq part s then s
  else
    let first := floodFirst 10 m b.seq s
    let ents := (List.range (b.pay.length / 12)).filterMap (fun i =>
      let a := beAt b.pay (12 * i + 8) 2
      if nbit a 15 then some (beAt b.pay (12 * i) 8, a % 1024) else none)
    let s := setFab (fun f => { f with assign := ents.foldl (fun t e => ins t e.1 e.2) (if first then [] else f.assign) }) (floodNote 10 m b.seq part s)
    let listed := (List.range (b.pay.length / 12)).any (fun i => beAt b.pay (12 * i) 8 == fabSerial s)
    floodOn b (some k) (if listed then assignApplied s else s)

def lsaReceived (k : Nat) (b : Barge) (s : State) : State :=
  let a := beAt b.pay 0 2 % 1024
  let part := b.dfp % 256
  if s.fab.addr = some a || !floodNew 11 a b.seq part s then s
  else
    let first := floodFirst 11 a b.seq s
    let n := min (beAt b.pay 2 2) ((b.pay.length - 4) / 4)
    let es := (List.range n).map (fun i => beAt b.pay (4 + 4 * i) 4)
    let s := setFab (fun f => { f with lsas := ins f.lsas a ((if first then [] else look [] f.lsas a) ++ es) }) (floodNote 11 a b.seq part s)
    floodOn b (some k) s

/-- ACK entries move ACKED of this device's streams on (R331, R333). -/
def ackReceived (b : Barge) (s : State) : State :=
  let s := (List.range (b.pay.length / 4)).foldl (fun a i =>
    let e := beAt b.pay (4 * i) 4
    let n := streamNo b.src (nfld e 19 3) (nfld e 16 3)
    let x := fabStream n a
    let d := (e % 65536 + 65536 - x.acked) % 65536
    if d < 32768 then setFab (fun f => { f with streams := put {} f.streams n { x with acked := e % 65536 } }) a else a) s
  sprayAgain s

/-! ## Reorder contexts (R332, R334) -/

def fctx (c : Nat) (s : State) : Ctx := look {} s.fab.ctx c
def setCtx (c : Nat) (f : Ctx → Ctx) (s : State) : State := setFab (fun x => { x with ctx := put {} x.ctx c (f (fctx c s)) }) s

/-- Reorder store slots in use. -/
def storeUsed (s : State) : Nat := (s.fab.ctx.map (fun e => e.2.held.length)).sum

/-- Source number of frames from the fabric: none of R140's. -/
def srcFab : Nat := 511

/-- A barge for this device as a lane receives it: the first of a frame carries the frame's reference instant and its generation (R47, R48). -/
def fabStamp (b : Barge) (s : State) : Barge :=
  if b.sof && (b.type == 3 || s.fab.addr == some b.dest) then
    { b with own := some { stamp := nowStamp s, gen := genOf (nowStamp s) s } }
  else b

/-- A frame enters the device from the fabric, with the instant at which its first barge came (R47). -/
def fabFrame (b : Barge) (s : State) : Nat × State :=
  let o := b.own.getD { stamp := nowStamp s, gen := genOf (nowStamp s) s }
  (s.lic.nextFrame, newFrm { src := srcFab, bytes := b.pay, stamp := o.stamp, gen := o.gen, ended := b.eof } s)

/-- A barge is passed to the basin's fabric requester (R332). -/
def ctxPass (c : Nat) (b : Barge) (s : State) : State :=
  let endCur (s : State) : State := match (fctx c s).cur with
    | some id => setFrm id (fun x => { x with ended := true, bad := true }) s
    | none => s
  if b.sof then
    let s := endCur s
    let (id, s) := fabFrame b s
    let x : BDesc := { req := .fabric, dest := .dport b.dfp, cls := b.cls % 8, colour := b.colour, ect := b.ect, src := srcFab, localOnly := true }
    let s := setBas (fun a => { a with desc := ins a.desc id { x with pool := reqPool x (frm id s).gen s } }) s
    setCtx c (fun x => { x with cur := if b.eof then none else some id }) s
  else match (fctx c s).cur with
    | none => s
    | some id =>
      let s := setFrm id (fun x => { x with bytes := x.bytes ++ b.pay, ended := b.eof }) s
      if b.eof then setCtx c (fun x => { x with cur := none }) s else s

/-- Held barges that are next pass in order (R332). -/
def ctxDrainLoop (c : Nat) : Nat → State → State
  | 0, s => s
  | n + 1, s =>
    let x := fctx c s
    match x.held.find? (fun b => b.seq == x.next) with
    | none => s
    | some b =>
      ctxDrainLoop c n (ctxPass c b (setCtx c (fun x => { x with
        next := (x.next + 1) % 65536, held := x.held.filter (fun y => y.seq != b.seq) }) s))

def ctxDrain (c : Nat) (s : State) : State :=
  let s := ctxDrainLoop c ((fctx c s).held.length + 1) s
  setCtx c (fun x => { x with timer := if x.held.isEmpty then none else some s.tim.up }) s

/-- NEXT of a context has moved on from `was`: the advance is to be acknowledged (R333). -/
def ctxAdvanced (c : Nat) (was : Ctx) (s : State) : State :=
  setCtx c (fun x => { x with advAt := s.tim.up, advFrom := if was.next = was.acked then s.tim.up else x.advFrom }) s

/-- What the reorder rules make of a barge: taken, or it waits for a store slot (R332, R334). -/
def ctxJudge (c : Nat) (b : Barge) (s : State) : Bool × State :=
  let x := fctx c s
  let d := (b.seq + 65536 - x.next) % 65536
  let lost (e : Nat) (s : State) : State := ev pgFab e 1 (setCtx c (fun x => { x with late := satAdd x.late 1 0xFFFFFFFF }) s)
  if d = 0 then
    (true, ctxAdvanced c x (ctxDrain c (ctxPass c b (setCtx c (fun x => { x with next := (x.next + 1) % 65536 }) s))))
  else if d < 4096 then
    if x.held.any (fun y => y.seq == b.seq) then (true, s)
    else if 131072 ≤ storeUsed s then (false, raise pgFab 14 s)
    else (true, ev pgFab 0x010B 1 (setCtx c (fun x => { x with held := x.held ++ [b], timer := some (x.timer.getD s.tim.up) }) s))
  else (true, lost (if 32768 ≤ d then 0x010D else 0x010C) s)

/-- The reorder context of a barge (R329). -/
def ctxOf (b : Barge) (s : State) : Nat :=
  streamNo b.src (match portDev b.dfp s with | some (_, g) => g | none => 0) (b.cls % 8)

/-- Held barges behind a gap that do not start a frame are discarded (R332). -/
def ctxSkip (c : Nat) : Nat → State → State
  | 0, s => s
  | n + 1, s =>
    let x := fctx c s
    match x.held.find? (fun b => b.seq == x.next) with
    | none => s
    | some b => if b.sof then s else ctxSkip c n (setCtx c (fun x => { x with
        next := (x.next + 1) % 65536, held := x.held.filter (fun y => y.seq != b.seq) }) s)

/-- The gap rule (R332). -/
def gapRule (c : Nat) (s : State) : State :=
  let x := fctx c s
  match x.timer with
  | none => s
  | some t =>
    if s.tim.up < t + 20000 * 2 ^ 32 then s
    else
      let s := ev pgFab 0x010E 1 (bump pgFab 0x120 0 32 1 (setFab (fun f => { f with gapLast := c % 65536 + x.next * 65536 }) s))
      let s := match x.cur with
        | some id => raise pgFab 13 (ev pgFab 0x010F 1 (setFrm id (fun y => { y with ended := true, bad := true }) s))
        | none => s
      let s := setCtx c (fun x => { x with cur := none, next := (x.next + 1) % 65536, gaps := satAdd x.gaps 1 0xFFFFFFFF }) s
      ctxAdvanced c x (ctxDrain c (ctxSkip c (x.held.length + 1) s))

/-! ## Relaying (R324-R326) -/

/-- The qualifying paths of a relayed barge. -/
def relayPaths (b : Barge) (s : State) : List Path := (pathsTo b.dest s).filter (fun p => decide (p.hops ≤ b.hops + 1))

/-- The flow of a relayed express barge, for the hold of R224. -/
def relayFlow (h : Nat) : Nat := 2 ^ 20 + h

/-- The hash of R325 at a relay. -/
def relayHash (b : Barge) (k : Nat) (s : State) : Nat :=
  crc32cSeed (rd pgExp 0x108 s).toNat (toBE 2 b.src ++ toBE 2 b.dest ++ toBE 2 b.dfp ++ toBE 1 b.cls ++ toBE 1 k)

/-- An express barge to be relayed from input lane `f`, waiting since `since`: whether it moved (R325, R326). -/
def relayExpress (f since : Nat) (b : Barge) (s : State) : Bool × State :=
  let k := (fabLane f s).link
  let h := relayHash b k s
  let r := (relayPaths b s).filter (fun p => !p.noExp)
  match r[h % 65536 * r.length / 65536]? with
  | none => (true, s)
  | some p =>
    match laneByHash h p.link s with
    | none => (false, s)
    | some o =>
      let old := s.exp.pins.find? (fun x => x.hash == h && x.dev == b.dest && x.contract == relayFlow h)
      let moved := match old with
        | some x => x.link != p.link || x.lane != o
        | none => false
      let oldBusy := match old with
        | some x => (linkLanes x.link s).any (fun g => (fabLane g s).xq.any (·.con == relayFlow h))
        | none => false
      if moved && b.sof && oldBusy && decide (s.tim.up < since + 2000 * 2 ^ 32) then
        (false, if since = s.tim.up then ev pgExp 0x0113 1 s else s)
      else if 24 ≤ (fabLane o s).xq.length then
        (false, if since = s.tim.up then setFab (fun x => { x with linkNote := put 0 x.linkNote k (satAdd (look 0 x.linkNote k) 1 0xFFFF) }) s else s)
      else
        let keep := s.exp.pins.filter (fun x => !(x.hash == h && x.dev == b.dest && x.contract == relayFlow h))
        let s := setExp (fun e => { e with pins := ⟨h, b.dest, relayFlow h, p.link, o, none⟩ :: keep }) s
        let y := { b with hops := p.hops - 1, con := relayFlow h, fid := 2 ^ 32 + f }
        (true, ev pgFab 0x0106 1 (setFLane o (fun l => { l with xq := l.xq ++ [y] }) s))

/-- A bulk barge to be relayed: whether it moved (R324, R330). -/
def relayBulk (f : Nat) (b : Barge) (s : State) : Bool × State :=
  let (ok, s) := sprayOne none { b with fid := 2 ^ 32 + f } s
  (ok, if ok then ev pgFab 0x0106 1 s else s)

/-- An ACK barge takes the first qualifying path (R324). -/
def relayAck (b : Barge) (s : State) : Bool × State :=
  match (relayPaths b s).head? with
  | none => (true, s)
  | some p => (true, ev pgFab 0x0106 1 (ctlOn p.link { b with hops := p.hops - 1 } s))

/-! ## Trees (R335) -/

/-- The lane of a tree's barges on a link. -/
def treeLane (root tree k : Nat) (s : State) : Option Nat :=
  laneByHash (crc32c (toBE 2 root ++ toBE 2 tree)) k s

/-- Links of a tree entry. -/
def treeLinks (t : Nat) (s : State) : List Nat := (List.range 256).filter (fun k => tb tbTree t (2 + k / 32) (k % 32) s)

/-- Barges of a tree leave on each of its links but one. -/
def treeSend (t : Nat) (bs : List Barge) (not : Option Nat) (s : State) : State :=
  let root := tf tbTree t 0 2 10 s
  (treeLinks t s).foldl (fun a k =>
    if not == some k then a
    else match treeLane root t k a with
      | some o => (setFLane o (fun l => { l with tree := l.tree ++ bs }) a)
      | none => a) s

/-- Links that carry copies of a tree from this device. -/
def treeCopies (t : Nat) (not : Option Nat) (s : State) : Nat :=
  ((treeLinks t s).filter (fun k => !(not == some k) && (treeLane (tf tbTree t 0 2 10 s) t k s).isSome)).length

/-- The copies that the basin handed to the trees leave as barges (R335). -/
def takeTrees (s : State) : State :=
  let l := s.bas.trees
  l.foldl (fun a e =>
    let f := frm e.2 a
    let cls := match find? a.bas.frames e.2 with | some x => x.cls | none => 0
    let a' := if pdelayStops f.src (parseOf f a).ptp a then a
      else if !tb tbTree e.1 0 0 a || !fabData a then ev pgFab 0x0109 1 a
      else
        let h : Barge := { type := 3, src := a.fab.addr.getD 0, hops := 2, cls := cls, dfp := e.1, colour := 0,
                           ect := ectOf (parseOf f a), fid := e.2, own := some ⟨f.stamp, f.gen, f.src, true, 0⟩ }
        ev pgFab 0x011B (treeCopies e.1 none a) (treeSend e.1 (bargesOf h (stripped f a)) none a)
    unref e.2 a') (setBas (fun b => { b with trees := [] }) s)

/-- A TREE barge received (R335). -/
def treeReceived (f : Nat) (b : Barge) (s : State) : State :=
  let t := b.dfp % 4096
  let k := (fabLane f s).link
  if !tb tbTree t 0 0 s then ev pgFab 0x0109 1 (endOpenT f s)
  else
    let s := if b.hops = 0 then s
      else
        let s := treeSend t [{ b with hops := b.hops - 1, fid := 2 ^ 33 + f, own := none }] (some k) s
        if b.sof then ev pgFab 0x011B (treeCopies t (some k) s) s else s
    if !tb tbTree t 0 1 s then s
    else if b.sof then
      let s := endOpenT f s
      let (id, s) := fabFrame b s
      let x : BDesc := { req := .fabric, dest := .mcast (tf tbTree t 1 0 16 s), cls := b.cls % 8, colour := b.colour, ect := b.ect,
                         src := srcFab, localOnly := true }
      let s := setBas (fun a => { a with desc := ins a.desc id { x with pool := reqPool x (frm id s).gen s } }) s
      if b.eof then s else setFLane f (fun l => { l with openT := some (id, s.tim.up, t) }) s
    else match (fabLane f s).openT with
      | none => s
      | some (id, _, t) =>
        let s := setFrm id (fun x => { x with bytes := x.bytes ++ b.pay, ended := b.eof }) s
        setFLane f (fun l => { l with openT := if b.eof then none else some (id, s.tim.up, t) }) s

/-! ## Receiving data (R327, R332) -/

/-- An EXPRESS barge for this device (R327). -/
def expressReceived (f : Nat) (b : Barge) (s : State) : State :=
  let s := ev pgFab 0x0105 1 s
  if b.sof then
    let s := endOpenX f s
    let (id, s) := fabFrame b s
    let s := expFromFabric id b.dfp (b.cls % 8) s
    if b.eof then (if b.bad then ev pgFab 0x0116 1 (verdictBad id 7 (setFrm id (fun x => { x with bad := true }) s)) else s)
    else setFLane f (fun l => { l with openX := some (id, s.tim.up) }) s
  else match (fabLane f s).openX with
    | none => s
    | some (id, _) =>
      let s := setFrm id (fun x => { x with bytes := x.bytes ++ b.pay, ended := b.eof }) s
      if b.eof then
        let s := setFLane f (fun l => { l with openX := none }) s
        if b.bad then ev pgFab 0x0116 1 (verdictBad id 7 (setFrm id (fun x => { x with bad := true }) s)) else s
      else setFLane f (fun l => { l with openX := some (id, s.tim.up) }) s

/-- A data, tree or ACK barge in the input buffer of a lane: whether it has left the buffer. -/
def barHandle (f since : Nat) (b : Barge) (s : State) : Bool × State :=
  if !fabData s then (true, s)
  else
    let mine := s.fab.addr == some b.dest
    match b.type with
    | 1 =>
      if mine then
        (let s := if since = s.tim.up then ev pgFab 0x0104 1 s else s
         ctxJudge (ctxOf b s) b s)
      else relayBulk f b s
    | 2 => if mine then (true, expressReceived f b s) else relayExpress f since b s
    | 3 => (true, treeReceived f b s)
    | 4 => if mine then (true, ackReceived b s) else relayAck b s
    | _ => (true, s)

/-- The receiver frees a barge's blocks (R313). -/
def freeBlocks (f : Nat) (b : Barge) (s : State) : State :=
  match b.pool with
  | none => s
  | some p => setFLane f (fun l => { l with freed := put 0 l.freed p ((look 0 l.freed p + b.blocks) % 4096) }) s

/-- Barges that waited in a lane's buffer are tried in order; one that still waits holds those of its pool behind it. -/
def unstickLane (f : Nat) (s : State) : State :=
  let l := (fabLane f s).stuck
  let (keep, s) := l.foldl (fun (a : List (Barge × Nat) × State) e =>
    if a.1.any (fun x => x.1.pool == e.1.pool) then (a.1 ++ [e], a.2)
    else
      let (ok, s) := barHandle f e.2 e.1 a.2
      if ok then (a.1, freeBlocks f e.1 s) else (a.1 ++ [e], s)) ([], setFLane f (fun x => { x with stuck := [] }) s)
  setFLane f (fun x => { x with stuck := keep ++ x.stuck }) s

/-- Every lane with waiting barges tries them again. -/
def fabRetry (s : State) : State :=
  ((s.fab.lanes.filter (fun e => !e.2.stuck.isEmpty)).map (·.1)).foldl (fun a f => unstickLane f a) s

/-- A barge enters a lane's input buffer. -/
def barArrive (f : Nat) (b : Barge) (s : State) : State :=
  if (fabLane f s).stuck.any (fun x => x.1.pool == b.pool) then setFLane f (fun l => { l with stuck := l.stuck ++ [(b, s.tim.up)] }) s
  else
    let (ok, s) := barHandle f s.tim.up b s
    if ok then freeBlocks f b s else setFLane f (fun l => { l with stuck := l.stuck ++ [(b, s.tim.up)] }) s

/-- The first failing check of R311, 0 for none. -/
def barCheck (cw : Bool) (r : Bytes) (s : State) : Nat :=
  let b := barDecode r
  if cw then 7
  else if !hcsOk r then 1
  else if !barType b.type then 3
  else if !barLenOk b.type (barLen r) || b.pay.length < barLen r then 4
  else if pchk b.pay != beAt r 12 2 then 2
  else if b.hops = 3 then 5
  else if (b.type = 1 || b.type = 2 || b.type = 4) && !(s.fab.addr == some b.dest) && (relayPaths b s).isEmpty then 5
  else 0

/-- A barge is discarded under R311. -/
def barBad (f cause : Nat) (b : Barge) (s : State) : State :=
  let s := setFab (fun x => { x with rxBadLast := cause + f % 256 * 16 + 2 ^ 31 }) (bump pgFab 0x128 0 32 1 s)
  let s := ev pgFab (if cause = 7 || cause = 1 then 0x0107 else if cause = 2 then 0x0108 else 0x0109) 1 s
  let s := if cause = 1 then setFLane f (fun l => { l with hcsErr := satAdd l.hcsErr 1 0xFFFF }) s else s
  let s := if cause = 7 || cause = 1 || cause = 4 then ev pgFab 0x010A 1 (setFLane f (fun l => { l with hunt := true }) s) else s
  let known := cause = 2 || cause = 4 || cause = 5
  let s := if known && b.type = 2 then endOpenX f s
    else if known && b.type = 3 then endOpenT f s
    else s
  raise pgFab 16 s

/-- A credit report (R314). -/
def creditReport (f : Nat) (r : Bytes) (s : State) : State :=
  let w2 := beAt r 8 4
  let p := nfld w2 12 4
  let n := nfld w2 0 12
  if p ≤ 6 && (fabLane f s).st = 2 then
    sprayAgain (setFLane f (fun l => { l with
      credit := put 0 l.credit p (look 0 l.credit p + (n + 4096 - look 0 l.lastCr p) % 4096), lastCr := put 0 l.lastCr p n }) s)
  else s

/-- A block boundary at which bytes hold a header with a right HCS and a LEN within range (R311). -/
def headerAt (r : Bytes) : Bool :=
  let b := barDecode r
  decide (16 ≤ r.length) && hcsOk r && (if barType b.type then barLenOk b.type (barLen r) else decide (barLen r ≤ 512))

/-- The delineation hunt over the blocks received: from the first boundary with a header whose length points to another one (R311); `ok`
and `len` read a header. -/
def huntFind (ok : Bytes → Bool) (len : Bytes → Nat) : Nat → Bytes → Option Bytes
  | 0, _ => none
  | n + 1, r =>
    if r.length < 16 then none
    else if ok r && ok (r.drop (16 + (len r + 15) / 16 * 16)) then some r
    else huntFind ok len n (r.drop 16)

/-- A barge that starts where the receiver has delineation is checked and handled (R311). -/
def barJudge (f : Nat) (cw : Bool) (r : Bytes) (s : State) : State :=
  let st := (fabLane f s).st
  let b := barDecode r
  let c := barCheck cw r s
  let s := setFLane f (fun l => { l with hunt := false }) s
  if c ≠ 0 then (if st = 2 then fabRetry (barBad f c b s) else s)
  else
    let s := creditReport f r s
    let k := (fabLane f s).link
    if b.type = 8 then (if helloOk b then fabRetry (helloReceived f b s) else s)
    else if st ≠ 2 then s
    else match b.type with
      | 9 => freeBlocks f b (announceReceived k b s)
      | 10 => freeBlocks f b (assignReceived k b s)
      | 11 => freeBlocks f b (lsaReceived k b s)
      | 0 => s
      | _ => fabRetry (barArrive f (fabStamp b s) s)

/-- The hunt goes on over the blocks `r`: the barge that ends it is handled. -/
def huntOn (f : Nat) (r : Bytes) (s : State) : State :=
  match huntFind headerAt barLen (r.length / 16 + 1) r with
  | none => s
  | some r => barJudge f false r s

/-- BARGE_RECEIVE on lane `f` (R311); `cw` when a block lies in an uncorrectable codeword. In a delineation hunt the bytes are blocks to
test, and a barge that starts a hunt leaves the blocks after its first to it. -/
def bargeReceive (f : Nat) (cw : Bool) (r : Bytes) (s : State) : State :=
  if (fabLane f s).st = 0 || 256 ≤ f || !rb pgFab 0x008 0 s then s
  else if (fabLane f s).hunt then (if cw then s else huntOn f r s)
  else
    let s := barJudge f cw r s
    if (fabLane f s).hunt && !cw then huntOn f (r.drop 16) s else s

def execBargeReceive (t f : Nat) (cw : Bool) (r : Bytes) (s : State) : Res := onService (fun s => bargeReceive f cw r (advance t s)) s

/-! ## Sending (R312, R313) -/

/-- Credit covers a barge. -/
def credOk (f : Nat) (b : Barge) (s : State) : Bool :=
  match b.pool with
  | none => true
  | some p => decide (b.blocks ≤ look 0 (fabLane f s).credit p)

/-- The first barge of a queue that credit lets go: of the frame that is open, or else the first of its pool (R312, R314). -/
def firstOf (f : Nat) (open_ : Option Nat) (l : List Barge) (s : State) : Option Barge :=
  match open_ with
  | none => l.find? (fun b => credOk f b s && l.find? (fun x => x.pool == b.pool) == some b)
  | some i => (l.find? (fun b => b.fid == i)).filter (fun b => credOk f b s)

/-- A list without the first barge equal to one. -/
def dropOne (b : Barge) : List Barge → List Barge
  | [] => []
  | x :: r => if x = b then r else x :: dropOne b r

/-- The next pool whose count changed since it was last carried, in turn (R313). -/
def crPick (l : FabLane) : Nat × Nat :=
  match ((List.range 7).map (fun i => (l.tellNext + i) % 7)).find? (fun p => look 0 l.freed p != look 0 l.told p) with
  | some p => (p, look 0 l.freed p)
  | none => (15, 0)

/-- A barge leaves on a lane (R309, R314). -/
def barPut (f : Nat) (b : Barge) (s : State) : State :=
  let l := fabLane f s
  let (p, n) := crPick l
  setFLane f (fun l => { l with
    lastTx := barEncode b p n, lastSend := s.tim.up,
    told := if p < 7 then put 0 l.told p n else l.told, tellNext := if p < 7 then (p + 1) % 7 else l.tellNext,
    credit := match b.pool with
      | some q => put 0 l.credit q (look 0 l.credit q - b.blocks)
      | none => l.credit }) s

/-- BARGE_SEND on lane `f`: the first available of R312. -/
def bargeSend (f : Nat) (s : State) : State :=
  let s := if s.bas.trees.isEmpty then s else takeTrees s
  let l := fabLane f s
  if l.st = 0 || !rb pgFab 0x008 0 s then s
  else
    let data := fabData s && l.st != 3
    match (firstOf f l.txOpenX l.xq s).filter (fun _ => data) with
    | some b => ev pgFab 0x0101 1 (barPut f b (setFLane f (fun l => { l with
        xq := dropOne b l.xq, txOpenX := if b.eof then none else some b.fid }) s))
    | none =>
      match l.ctl.find? (fun b => credOk f b s && (b.type != 4 || data)) with
      | some b => ev pgFab 0x0103 1 (barPut f b (setFLane f (fun l => { l with ctl := dropOne b l.ctl }) s))
      | none =>
        let bulk := (firstOf f none l.bulk s).filter (fun _ => data)
        let tree := (firstOf f l.txOpenT l.tree s).filter (fun _ => data)
        let sendB (b : Barge) : State := ev pgFab 0x0100 1 (barPut f b (setFLane f (fun l => { l with bulk := dropOne b l.bulk, treeTurn := true }) s))
        let sendT (b : Barge) : State := ev pgFab 0x0102 1 (barPut f b (setFLane f (fun l => { l with
          tree := dropOne b l.tree, treeTurn := false, txOpenT := if b.eof then none else some b.fid }) s))
        match bulk, tree with
        | some b, some t => if l.treeTurn then sendT t else sendB b
        | some b, none => sendB b
        | none, some t => sendT t
        | none, none => barPut f { type := 0 } s

def execBargeSend (t f : Nat) (s : State) : Res := onService (fun s => fabRetry (sprayAgain (bargeSend f (advance t s)))) s

/-! ## Timers -/

/-- HELLO_US in 2^-32 ns. -/
def helloUs (s : State) : Nat := rf pgFab 0x104 0 8 s * 1000 * 2 ^ 32

/-- HELLO_US have passed since the lane's last HELLO (R316). -/
def helloDue (f : Nat) (s : State) : Bool :=
  match (fabLane f s).helloSent with
  | none => true
  | some t => decide (t + helloUs s ≤ s.tim.up)

/-- HELLO_SEND (R316). -/
def helloSend (f : Nat) (s : State) : State :=
  if (fabLane f s).st != 0 && helloDue f s then
    setFLane f (fun l => { l with
      helloSent := some s.tim.up, ctl := l.ctl ++ [{ type := 8, src := s.fab.addr.getD 0, pay := helloPay f s }] }) s
  else s

/-- HELLO_TIMEOUT (R316). -/
def helloTimeout (f : Nat) (s : State) : State :=
  if (fabLane f s).st = 2 && decide ((fabLane f s).helloAt + 3 * helloUs s ≤ s.tim.up) then
    fabRetry (laneLost f (setFLane f (fun l => { l with timeouts := satAdd l.timeouts 1 0xFFFF }) s))
  else s

/-- PAIR_HOLD_EXPIRY (R316). -/
def pairHoldExpiry (f : Nat) (s : State) : State :=
  if (fabLane f s).st = 3 && decide ((fabLane f s).holdAt + rf pgFab 0x104 24 8 s * 10000 * 2 ^ 32 ≤ s.tim.up) then laneDown f s else s

/-- The refresh interval of a type has passed since this device last sent it (R318). -/
def floodDue (ty : Nat) (s : State) : Bool :=
  match find? s.fab.sent ty with
  | none => true
  | some t => decide (t + (if ty = 9 && s.fab.addr.isNone then 10000000 else 100000000) * 2 ^ 32 ≤ s.tim.up)

/-- FLOOD_REFRESH of a type: 9 ANNOUNCE, 10 ASSIGN, 11 LSA (R318). -/
def floodRefresh (ty : Nat) (s : State) : State :=
  if !floodDue ty s then s
  else match ty with
  | 9 => sendAnnounce s
  | 10 => if s.fab.isMaster then sendAssign s else s
  | 11 => sendLsa s
  | _ => s

/-- FLOOD_FORGET of an originator's floods of a type, unrefreshed for 350 ms (R318). -/
def floodForget (ty orig : Nat) (s : State) : State :=
  match find? s.fab.floods (floodKey ty orig) with
  | none => s
  | some x =>
    if s.tim.up < x.seen + 350000000 * 2 ^ 32 then s
    else
      let s := setFab (fun f => { f with floods := del f.floods (floodKey ty orig) }) s
      match ty with
      | 9 => conflictJudge (masterNoted (setFab (fun f => { f with devs := del f.devs orig }) s))
      | 10 => setFab (fun f => { f with assign := [] }) s
      | _ => setFab (fun f => { f with lsas := del f.lsas orig }) s

/-- EXPRESS_FRAME_TIMEOUT and TREE_FRAME_TIMEOUT: 1 microsecond without the next barge (R327, R335). -/
def expressTimeout (f : Nat) (s : State) : State :=
  match (fabLane f s).openX with
  | some (_, t) => if t + 1000 * 2 ^ 32 ≤ s.tim.up then endOpenX f s else s
  | none => s
def treeTimeout (f : Nat) (s : State) : State :=
  match (fabLane f s).openT with
  | some (_, t, _) => if t + 1000 * 2 ^ 32 ≤ s.tim.up then endOpenT f s else s
  | none => s

/-- An entry of context `x` is to be sent: NEXT has moved on 512, an advance is 1 microsecond old, or the last entry is to be repeated (R333). -/
def ackDue (x : Ctx) (s : State) : Bool :=
  let d := (x.next + 65536 - x.acked) % 65536
  if d = 0 then decide (x.ackAt + 10000 * 2 ^ 32 ≤ s.tim.up) && x.advAt != 0 && decide (s.tim.up ≤ x.advAt + 100000 * 2 ^ 32)
  else decide (512 ≤ d) || decide (x.advFrom + 1000 * 2 ^ 32 ≤ s.tim.up)

/-- ACK_SEND for context `c`: its entry, with those of the same source that have advanced (R333). -/
def ackSend (c : Nat) (s : State) : State :=
  let u := c / 64
  let l := (s.fab.ctx.filter (fun e => e.1 / 64 == u && (e.1 == c || e.2.next != e.2.acked))).map (·.1)
  match (pathsTo u s).head?, s.fab.addr with
  | some p, some a =>
    if l.isEmpty || !fabData s || !ackDue (fctx c s) s then s
    else
      let pay := (l.take 128).flatMap (fun e => toBE 4 ((fctx e s).next + e % 8 * 2 ^ 16 + e / 8 % 8 * 2 ^ 19))
      let s := l.foldl (fun a e => setCtx e (fun x => { x with acked := x.next, ackAt := s.tim.up }) a) s
      ev pgFab 0x0117 1 (ctlOn p.link { type := 4, dest := u, src := a, hops := p.hops - 1, pay := pay } s)
  | _, _ => s

/-- UNREACH_TIMEOUT: device `v` has had no valid path for UNREACH_MS (R339, R273). -/
def unreachTimeout (v : Nat) (s : State) : State :=
  match find? s.fab.noPath v with
  | none => s
  | some t =>
    if has s.fab.unreach v || decide (s.tim.up < t + rf pgFab 0x104 16 8 s * 1000000 * 2 ^ 32) then s
    else
      let s := raise pgFab 11 (ev pgFab 0x011D 1 (setFab (fun f => { f with unreach := add f.unreach v }) s))
      let ds := portsOf v s
      let s := setBas (fun b => { b with unreach := ds.foldl (fun a d => add a d) b.unreach }) s
      let qs := (s.bas.q.filter (fun e => decide (e.1 < 524288) && has ds (e.1 / 8))).map (·.1)
      let (n, s) := flushQueues qs s
      syncQueues qs (setBas (fun b => { b with flushes := b.flushes ++ [⟨false, n⟩] }) s)

def execHelloSend (t f : Nat) (s : State) : Res := onLive (fun s => helloSend f (advance t s)) s
def execHelloTimeout (t f : Nat) (s : State) : Res := onLive (fun s => helloTimeout f (advance t s)) s
def execPairHoldExpiry (t f : Nat) (s : State) : Res := onLive (fun s => fabRetry (pairHoldExpiry f (advance t s))) s
def execFloodRefresh (t ty : Nat) (s : State) : Res := onLive (fun s => floodRefresh ty (advance t s)) s
def execFloodForget (t ty orig : Nat) (s : State) : Res := onLive (fun s => floodForget ty orig (advance t s)) s
def execMasterAssign (t : Nat) (s : State) : Res := onLive (fun s => masterAssign (advance t s)) s
def execRouteCompute (t : Nat) (s : State) : Res := onLive (fun s => fabRetry (sprayAgain (routeCompute (advance t s)))) s
def execExpressFrameTimeout (t f : Nat) (s : State) : Res := onService (fun s => expressTimeout f (advance t s)) s
def execTreeFrameTimeout (t f : Nat) (s : State) : Res := onService (fun s => treeTimeout f (advance t s)) s
def execGapRule (t c : Nat) (s : State) : Res := onService (fun s => fabRetry (gapRule c (advance t s))) s
def execAckSend (t c : Nat) (s : State) : Res := onService (fun s => ackSend c (advance t s)) s
def execUnreachTimeout (t v : Nat) (s : State) : Res := onLive (fun s => unreachTimeout v (advance t s)) s

/-! ## Readiness, registers and windows (R321, R342) -/

/-- FAB is ready (R321). -/
def fabReady (s : State) : Bool :=
  s.fab.addr.isSome && fabSettled s && s.fab.routesValid &&
  s.fab.devs.all (fun e => !nbit e.2.flags 0 || (find? s.fab.lsas e.2.addr).isSome)

def fabRo (off : Nat) (s : State) : Option Word :=
  let f := s.fab
  if off = 0x108 then
    some (w32 (f.addr.getD 0 + b2n f.addr.isSome * 2 ^ 10 + b2n f.isMaster * 2 ^ 11 + b2n f.conflict * 2 ^ 12 + b2n (fabSettled s) * 2 ^ 13 +
      b2n f.routesValid * 2 ^ 14 + ((f.devs.filter (fun e => nbit e.2.flags 0)).length + b2n f.addr.isSome) * 2 ^ 16))
  else if off = 0x10C then some (w32 (f.master.getD 0))
  else if off = 0x110 then some (w32 (f.master.getD 0 / 2 ^ 32))
  else if off = 0x114 then some (w32 (b2n (fabPaired s) + b2n (s.pair.role == .active) * 2))
  else if off = 0x118 then some (w32 (storeUsed s))
  else if off = 0x11C then some (w32 f.gapLast)
  else if off = 0x124 then some (w32 f.rxBadLast)
  else if off = 0x12C then some (w32 f.routeGen)
  else if off = 0x130 then some (w32 f.lsaSeq)
  else none

def fabWin (p off : Nat) (s : State) : Option WinRef :=
  if off < 0x4000 || 0x8000 ≤ off then none
  else
    let o := off - 0x4000
    match p with
    | 0x1B1 =>
      if o < 0x1000 then some ⟨tbLane, o / 16, o % 16 / 4, 0x4000, o / 16, o % 16 / 4, if o % 16 / 4 = 0 then 1 else 0, false, false, false⟩
      else if 0x2000 ≤ o then some ⟨0, o, 0, 0x6000, 0, 0, 0, false, false, false⟩
      else none
    | 0x1B2 =>
      let d := rf 0x1B2 0x100 12 4 s * 4096 + o / 4
      some ⟨tbFPort, d, 0, 0x4000, d, 0, 0x3FFF, false, false, false⟩
    | 0x1B3 =>
      let v := rf 0x1B3 0x100 6 4 s * 64 + o / 256
      let w := o % 256 / 4
      some ⟨tbRt, v, w, 0x4000, v, w, if w = 0 then 0x7F else if 4 ≤ w && w < 36 then 0xFFFFFFFF else 0, false, true, false⟩
    | 0x1B4 =>
      let t := rf 0x1B4 0x100 8 4 s * 256 + o / 64
      let w := o % 64 / 4
      some ⟨tbTree, t, w, 0x4000, t, w, if w = 0 then 0xFFF else if w = 1 then 0xFFFF else if w < 10 then 0xFFFFFFFF else 0, false, true, false⟩
    | 0x1B5 => some ⟨0, o, 0, 0x4000, 0, 0, 0, false, false, false⟩
    | 0x1B6 =>
      let w := o % 16 / 4
      some ⟨tbPref, o / 16, w, 0x4000, o / 16, w, if w < 2 then 0xFFFFFFFF else if w = 2 then 0x800003FF else 0, false, true, false⟩
    | 0x1B7 => some ⟨0, o, 0, 0x4000, 0, 0, 0, false, false, false⟩
    | 0x1B8 => some ⟨0, o, 0, 0x4000, 0, 0, 0, false, false, false⟩
    | _ => none

/-- The words of those windows that the engines own. -/
def fabWinRo (p off : Nat) (r : WinRef) (s : State) : Option Word :=
  let o := off - 0x4000
  match p with
  | 0x1B1 =>
    if r.tab = tbLane then
      let l := fabLane r.idx s
      let sum (a n : Nat) : Nat := ((upto a n).map (fun q => look 0 l.credit q)).sum
      (match r.word with
       | 0 => some (w32 (tf tbLane r.idx 0 0 1 s + l.st * 2 + b2n l.hunt * 16 + l.link * 32))
       | 1 => some (w32 (sum 4 3 % 8192 + sum 1 3 % 2048 * 2 ^ 13 + sum 0 1 % 256 * 2 ^ 24))
       | 2 => some (w32 l.far)
       | _ => some (w32 (l.hcsErr + l.timeouts * 65536)))
    else
      let k := (o - 0x2000) / 32
      let (a, sr, pf) := linkNbr k s
      (match o % 32 / 4 with
       | 0 => some (w32 (b2n (!(linkLanes k s).isEmpty) + b2n pf * 2 + b2n ((linkLanes k s).any (fun f => (fabLane f s).st == 3)) * 4 +
           (joined k s).length * 8 + a.getD 0 * 2 ^ 12 + b2n a.isSome * 2 ^ 22))
       | 1 => some (w32 sr)
       | 2 => some (w32 (sr / 2 ^ 32))
       | 3 => some (w32 (look 0 s.fab.linkNote k + look 0 s.fab.ctlDrop k * 65536))
       | _ => some 0)
  | 0x1B3 =>
    if r.word = 0 then some (w32 (tf tbRt r.idx 0 0 7 s + b2n (has s.fab.unreach r.idx) * 128))
    else if r.word = 1 then some (w32 (expRoutes r.idx s).length)
    else none
  | 0x1B5 =>
    let a := o / 16
    let d := s.fab.devs.find? (fun e => nbit e.2.flags 0 && e.2.addr == a)
    (match d with
     | none => some 0
     | some (sr, x) => (match o % 16 / 4 with
       | 0 => some (w32 (1 + b2n (nbit x.flags 1) * 2 + b2n (!(pathsTo a s).isEmpty) * 4 + b2n (nbit x.flags 4) * 8))
       | 1 => some (w32 sr)
       | 2 => some (w32 (sr / 2 ^ 32))
       | _ => some (w32 (match find? s.fab.floods (floodKey 11 a) with | some y => y.seq | none => 0))))
  | 0x1B7 =>
    let c := rf 0x1B7 0x100 10 6 s * 1024 + o / 16
    let x := fctx c s
    (match o % 16 / 4 with
     | 0 => some (w32 (x.next + x.held.length % 8192 * 65536 + b2n x.timer.isSome * 2 ^ 31))
     | 1 => some (w32 x.acked)
     | 2 => some (w32 x.gaps)
     | _ => some (w32 x.late))
  | 0x1B8 =>
    let x := fabStream (rf 0x1B8 0x100 10 6 s * 1024 + o / 16) s
    (match o % 16 / 4 with
     | 0 => some (w32 (x.next + x.acked * 65536))
     | 1 => some (w32 x.wait)
     | _ => some 0)
  | _ => none

/-- Route entries take window writes only with ROUTE_MODE = 1 (R323). -/
def fabRefuses (r : WinRef) (s : State) : Bool := r.tab == tbRt && !rb pgFab 0x100 1 s

/-- A FAB table entry has been committed. -/
def fabCommitted (r : WinRef) (s : State) : State :=
  if r.tab = tbLane then fabLaneWritten r.idx s
  else if r.tab = tbRt then
    fabRetry (sprayAgain (routesNoted (setFab (fun f => { f with cur := [], routesValid := true }) s)))
  else if r.tab = tbFPort then routesNoted s
  else s

/-- Page check of page 0x1B0 (R342). -/
def fabCheck (s : State) : Option Nat :=
  let h := rf pgFab 0x104 0 8 s
  let enLink (k : Nat) : Bool := tb tbLane k 0 0 s || (linkLanes k s).any (fun f => tb tbLane f 0 0 s)
  let badPath (v : Nat) : Bool := (List.range (min 64 (tf tbRt v 0 0 7 s))).any (fun i =>
    let w := tf tbRt v (4 + i / 2) (i % 2 * 16) 16 s
    nbit w 15 && (nfld w 8 2 == 0 || !enLink (nfld w 0 8)))
  if h < 2 || 100 < h || rf pgFab 0x104 8 8 s = 0 || rf pgFab 0x104 16 8 s = 0 || rf pgFab 0x104 24 8 s = 0 then some 0x01
  else if s.fixed.ident.varH && (upto 128 128).any (fun f => tb tbLane f 0 0 s) then some 0x02
  else if rb pgFab 0x100 1 s && (routeDevs s).any badPath then some 0x03
  else if rb pgFab 0x100 0 s && rb pgFab 0x100 4 s then some 0x04
  else none

end Sys2Proof.Machine
end

