-- ==== Sys2Proof/Machine/Mem.lean ====
section
/-! DEFINITION. The HBM controllers: training, requests, scheduling, hazards, ECC, freezes, scrub and diagnostic reads (R344-R360). -/
namespace Sys2Proof.Machine

def setMem (f : Mem → Mem) (s : State) : State := { s with mem := f s.mem }
def setCtl (c : Nat) (f : MemCtl → MemCtl) (s : State) : State :=
  setMem (fun m => { m with ctl := put {} m.ctl c (f (memCtl c s)) }) s

/-- The pages of controller `c` and of the whole unit. -/
def memPage (c : Nat) : Nat := 0x1C0 + c
def pgMem : Nat := 0x1CC

/-- An event of a controller: its page counts it, and page 0x1CC counts the sum (R360). -/
def memEv (c num n : Nat) (s : State) : State := ev pgMem num n (ev (memPage c) num n s)

/-! ## The address map (R345, R346) -/

/-- Base of a region, in units of 4 GiB, and its size in GiB (R345). -/
def rgnBase (n : Nat) (s : State) : Nat :=
  let h := s.fixed.ident.varH
  match n with
  | 0 => 0
  | 1 => if h then 0x15 else 0x30
  | 2 => if h then 0x16 else 0x31
  | 3 => if h then 0x18 else 0x33
  | _ => if h then 0x1A else 0x35
def rgnSize (n : Nat) (s : State) : Nat :=
  match n with
  | 0 => if s.fixed.ident.varH then 84 else 192
  | 1 => 4
  | 2 => 8
  | 3 => 8
  | _ => 4

/-- Local units of a controller. -/
def luCount : Nat := 9437184

/-- Controller and local unit of a unit (R346). -/
def unitCtl (u : Nat) (s : State) : Nat := u % memCount s
def unitLocal (u : Nat) (s : State) : Nat := u / memCount s

/-- The unit of a controller's local unit. -/
def unitOf (c lu : Nat) (s : State) : Nat := lu * memCount s + c

/-- Channel and bank of a local unit as one key, and its row (R346). -/
def luBank (lu : Nat) : Nat := lu % 8 * 48 + lu / 8 % 48
def luRow (lu : Nat) : Nat := lu / 8 / 48

/-- The region of a local unit (R345). -/
def luRegion (c lu : Nat) (s : State) : Nat :=
  let a := unitOf c lu s * 2048 / 2 ^ 32
  if a < rgnBase 1 s then 0 else if a < rgnBase 2 s then 1 else if a < rgnBase 3 s then 2 else if a < rgnBase 4 s then 3 else 4

/-- The granule number of a granule of a local unit. -/
def granAt (c lu g : Nat) (s : State) : Nat := unitOf c lu s * 32 + g

/-- A granule as the HBM holds it. -/
def cell (i : Nat) (s : State) : Bytes := look (zeros 64) s.mem.cells i
def setCell (i : Nat) (b : Bytes) (s : State) : State :=
  setMem (fun m => { m with cells := put (zeros 64) m.cells i b }) s

/-- The HBM's contents are in canonical form: granules rising, and none listed that holds the zeros of the fill (R347). -/
def Memory.wf (s : State) : Bool := Tab.wf (zeros 64) s.mem.cells

/-- The region that a requester's accesses go to, by its code, and whether it reads (`w` false) or writes there (R345, R350). -/
def reqRegion (req : Nat) (w : Bool) : Option Nat :=
  match req with
  | 0 => if w then some 0 else none
  | 1 => if w then none else some 0
  | 2 => some 1
  | 3 => some 2
  | 4 => some 3
  | 5 => some 4
  | _ => none

/-- A request names whole granules of one unit that its requester reaches (R345, R346, R350). -/
def memReqOk (req : Nat) (w : Bool) (addr n : Nat) (s : State) : Bool :=
  addr % 64 == 0 && decide (1 ≤ n) && decide (addr / 64 % 32 + n ≤ 32) &&
  decide (unitLocal (addr / 2048) s < luCount - 512) &&
  reqRegion req w == some (luRegion (unitCtl (addr / 2048) s) (unitLocal (addr / 2048) s) s)

/-! ## Training (R347-R349) -/

/-- Every present controller is READY, or has frozen since. -/
def memAllReady (s : State) : Bool := (List.range (memCount s)).all (fun c => (memCtl c s).st == 3)

/-- The step and byte lane at which training fails: as the command names it, or a sweep whose window is under 24 taps (R347). -/
def trainFails (fail : Option (Nat × Nat)) (rwin wwin lane : Nat) : Option (Nat × Nat) :=
  match fail with
  | some e => some e
  | none => if rwin < 24 then some (4, lane) else if wwin < 24 then some (5, lane) else none

/-- TRAINING_DONE: a controller ends its training; `fail` names the step and byte lane that failed (R347, R348, R268). -/
def trainingDone (c : Nat) (fail : Option (Nat × Nat)) (rwin wwin lane repaired : Nat) (s : State) : State :=
  if memCount s ≤ c || ((memCtl c s).st != 1 && (memCtl c s).st != 2) then s
  else
    let fail := trainFails fail (rwin % 256) (wwin % 256) lane
    let s := setCtl c (fun x => { x with rwin := rwin % 256, wwin := wwin % 256, lane := lane % 64, repaired := repaired % 256 }) s
    match fail with
    | some (step, ln) =>
      logDev (memPage c) 0x7F 0x0C03 (step % 256 + ln % 64 * 256) c
        (raise (memPage c) 11 (setCtl c (fun x => { x with st := 5 }) s))
    | none =>
      let s := setMem (fun m => { m with cells := m.cells.filter (fun e => !(unitCtl (e.1 / 32) s == c)) }) s
      let s := setCtl c (fun x => { x with st := 3 }) s
      if memAllReady s && !s.bas.memReady then raise pgMem 9 (setBas (fun b => { b with memReady := true, creditAt := tmCycle s }) s)
      else s

def execTrainingDone (t c : Nat) (fail : Option (Nat × Nat)) (rwin wwin lane repaired : Nat) (s : State) : Res :=
  onLive (fun s => trainingDone c fail rwin wwin lane repaired (advance t s)) s

/-- RETRAIN, honoured in TRAIN_FAIL only (R348). -/
def memRetrain (c : Nat) (s : State) : State := setCtl c (fun x => { x with st := 1 }) s

/-- DRIFT_CHECK: centres moved, and the narrowest windows found, with their byte lane (R349). -/
def driftCheck (c moves rwin wwin lane : Nat) (s : State) : State :=
  if (memCtl c s).st != 3 then s
  else
    let s := memEv c 0x010F moves (setCtl c (fun x => { x with rwin := rwin % 256, wwin := wwin % 256, lane := lane % 64 }) s)
    if rwin < 16 || wwin < 16 then raise (memPage c) 11 s else s

def execDriftCheck (t c moves rwin wwin lane : Nat) (s : State) : Res :=
  onLive (fun s => driftCheck c moves rwin wwin lane (advance t s)) s

/-! ## Requests and hazards (R350, R353, R354) -/

/-- The lowest free slot of a queue. -/
def freeSlot {α : Type} (m : Tab α) : Nat → Nat → Option Nat
  | 0, _ => none
  | n + 1, i => if (find? m i).isSome then freeSlot m n (i + 1) else some i

/-- The controller serves requests: READY and enabled. -/
def memServes (c : Nat) (s : State) : Bool := (memCtl c s).st == 3 && rb (memPage c) 0x008 0 s

/-- The youngest queued write that covers a granule (R353). -/
def coverOf (x : MemCtl) (lu g : Nat) : Option MemWrite :=
  x.writes.foldl (fun a e =>
    let w := e.2
    if w.lu = lu && decide (w.first ≤ g) && decide (g < w.first + w.data.length) then
      (match a with | some b => if b.order < w.order then some w else a | none => some w)
    else a) none

/-- MEM_READ_REQUEST: a controller accepts a read, taking the granules that queued writes cover, or its requester waits
(R353, R354). -/
def memRead (req addr n : Nat) (s : State) : State :=
  let c := unitCtl (addr / 2048) s
  let x := memCtl c s
  if !memReqOk req false addr n s || !memServes c s then s
  else match freeSlot x.reads 1024 0 with
    | none => s
    | some i =>
      let lu := unitLocal (addr / 2048) s
      let first := addr / 64 % 32
      let got := (upto first n).filterMap (fun g => (coverOf x lu g).map (fun w => (g, w.data.getD (g - w.first) (zeros 64))))
      let r : MemRead := ⟨req, lu, first, n, s.tim.up, x.order, false, got, got.map (·.1), []⟩
      let s := setCtl c (fun y => { y with reads := ins y.reads i r, order := y.order + 1 }) s
      memEv c 0x0104 got.length (memEv c 0x0100 1 s)

/-- A write to a granule replaces that granule's data in every queued, unissued write that covers it (R353). -/
def mergeWrite (lu g : Nat) (b : Bytes) (w : MemWrite) : MemWrite :=
  if w.lu = lu && decide (w.first ≤ g) && decide (g < w.first + w.data.length) then { w with data := w.data.set (g - w.first) b }
  else w

/-- Granules of a write request, 64 bytes each. -/
def granules (b : Bytes) : List Bytes :=
  (List.range (b.length / 64)).map (fun i => sub b (64 * i) 64)

/-- A write drain mode starts at 384 queued writes and ends at 128 (R350). -/
def drainJudge (c : Nat) (s : State) : State :=
  setCtl c (fun x => { x with drain := if 384 ≤ x.writes.length then true else if x.writes.length ≤ 128 then false else x.drain }) s

/-- A write waits for an older, unissued read of the same granule (R353). -/
def writeHeld (x : MemCtl) (w : MemWrite) : Bool :=
  x.reads.any (fun e => !e.2.issued && e.2.lu == w.lu && decide (e.2.order < w.order) &&
    decide (e.2.first < w.first + w.data.length) && decide (w.first < e.2.first + e.2.n))

/-- The granules of a write enter the queue of a controller with a free entry, or replace queued ones whole (R353, R354). -/
def memQueueWrite (c req lu first : Nat) (gs : List Bytes) (s : State) : State :=
  let x := memCtl c s
  let covered := (upto first gs.length).all (fun g => (coverOf x lu g).isSome)
  let idx := (List.range gs.length)
  let mergeAll (w : MemWrite) : MemWrite := idx.foldl (fun a i => mergeWrite lu (first + i) (gs.getD i []) a) w
  let note (r : MemRead) : MemRead :=
    if r.lu = lu then { r with newer := r.newer ++ (upto first gs.length).filter (fun g => decide (r.first ≤ g) && decide (g < r.first + r.n)) }
    else r
  let touch (s : State) : State := setCtl c (fun y => { y with
    writes := y.writes.map (fun e => (e.1, mergeAll e.2)), reads := y.reads.map (fun e => (e.1, note e.2)) }) s
  if covered then memEv c 0x0101 1 (touch s)
  else match freeSlot x.writes 512 0 with
    | none => s
    | some i =>
      let w : MemWrite := ⟨req, lu, first, gs, s.tim.up, x.order⟩
      let s := if writeHeld x w then memEv c 0x0105 1 s else s
      drainJudge c (memEv c 0x0101 1 (setCtl c (fun y => { y with writes := ins y.writes i w, order := y.order + 1 }) (touch s)))

/-- MEM_WRITE_REQUEST: a controller accepts a write into its queue, or its requester waits (R353, R354). -/
def memWrite (req addr : Nat) (b : Bytes) (s : State) : State :=
  let c := unitCtl (addr / 2048) s
  let gs := granules b
  if !memReqOk req true addr gs.length s || !memServes c s then s
  else memQueueWrite c req (unitLocal (addr / 2048) s) (addr / 64 % 32) gs s

def execMemReadRequest (t req addr n : Nat) (s : State) : Res := onLive (fun s => memRead req addr n (advance t s)) s
def execMemWriteRequest (t req addr : Nat) (b : Bytes) (s : State) : Res := onLive (fun s => memWrite req addr b (advance t s)) s

/-! ## Scheduling (R350, R352) -/

/-- The class of a read: basin dequeue, then ARC and statistics, then the rest (R350). -/
def readClass (req : Nat) : Nat := if req = 1 then 0 else if req = 2 || req = 3 || req = 4 then 1 else 2

/-- The slot of the least key among entries. -/
def leastBy {α : Type} (m : Tab α) (ok : α → Bool) (key : α → Nat) : Option Nat :=
  (m.foldl (fun a e => if ok e.2 then
      (match a with | some (_, k) => if key e.2 < k then some (e.1, key e.2) else a | none => some (e.1, key e.2)) else a) none).map (·.1)

/-- A read issues: its granules that no queued write covered come from the HBM, and its row stays open. -/
def issueRead (c i : Nat) (s : State) : State :=
  match find? (memCtl c s).reads i with
  | none => s
  | some r =>
    let gs := (upto r.first r.n).filter (fun g => !has r.fwd g)
    let data := gs.foldl (fun a g => ins a g (cell (granAt c r.lu g s) s)) r.data
    memEv c 0x0102 gs.length (setCtl c (fun x => { x with
      reads := ins x.reads i { r with issued := true, data := data }, rows := ins x.rows (luBank r.lu) (luRow r.lu) }) s)

/-- A write issues: the HBM takes its granules and its entry is free. -/
def issueWrite (c i : Nat) (s : State) : State :=
  match find? (memCtl c s).writes i with
  | none => s
  | some w =>
    let s := (List.range w.data.length).foldl (fun a k => setCell (granAt c w.lu (w.first + k) s) (w.data.getD k []) a) s
    drainJudge c (memEv c 0x0103 w.data.length (setCtl c (fun x => { x with
      writes := del x.writes i, rows := ins x.rows (luBank w.lu) (luRow w.lu) }) s))

/-- COMMAND_ISSUE: the next request by the order of R350; refreshes have their own command. -/
def commandIssue (c : Nat) (s : State) : State :=
  let x := memCtl c s
  if x.st != 3 then s
  else
    let old (at_ : Nat) : Bool := decide (at_ + 400 * 2 ^ 32 < s.tim.up)
    let ro := leastBy x.reads (fun r => !r.issued && old r.at_) (·.order)
    let wo := leastBy x.writes (fun w => old w.at_ && !writeHeld x w) (·.order)
    let aged : Option (Bool × Nat) := match ro, wo with
      | some i, some j =>
        (match find? x.reads i, find? x.writes j with
         | some r, some w => if r.order < w.order then some (false, i) else some (true, j)
         | _, _ => none)
      | some i, none => some (false, i)
      | none, some j => some (true, j)
      | none, none => none
    match aged with
    | some (w, i) => memEv c 0x0108 1 (if w then issueWrite c i s else issueRead c i s)
    | none =>
      let wn := leastBy x.writes (fun w => !writeHeld x w) (·.order)
      let hit (r : MemRead) : Nat := if find? x.rows (luBank r.lu) = some (luRow r.lu) then 0 else 1
      let rn := leastBy x.reads (fun r => !r.issued) (fun r => (hit r * 3 + readClass r.req) * 2 ^ 64 + r.order)
      match (if x.drain then wn else none), rn, wn with
      | some i, _, _ => issueWrite c i s
      | none, some i, _ => issueRead c i s
      | none, none, some i => issueWrite c i s
      | none, none, none => s

def execCommandIssue (t c : Nat) (s : State) : Res := onLive (fun s => commandIssue c (advance t s)) s

/-- REFRESH: a bank's refresh falls due; it is postponed, at most 8 intervals, while requests to the bank are queued,
and is issued otherwise, with those postponed before it. The sensor's reading comes with it (R352). -/
def memRefresh (c bank temp : Nat) (s : State) : State :=
  let x := memCtl c s
  if (x.st != 3 && x.st != 4) || 384 ≤ bank then s
  else
    let s := setCtl c (fun y => { y with temp := temp % 256, hot := decide (85 ≤ temp % 256) }) s
    let busy := x.reads.any (fun e => !e.2.issued && luBank e.2.lu == bank) || x.writes.any (fun e => luBank e.2.lu == bank)
    let owed := look 0 x.owed bank
    if busy && decide (owed < 8) then memEv c 0x010A 1 (setCtl c (fun y => { y with owed := put 0 y.owed bank (owed + 1) }) s)
    else memEv c 0x0109 (owed + 1) (setCtl c (fun y => { y with owed := put 0 y.owed bank 0, rows := del y.rows bank }) s)

def execRefresh (t c bank temp : Nat) (s : State) : Res := onLive (fun s => memRefresh c bank temp (advance t s)) s

/-! ## ECC and errors (R355-R358) -/

/-- The layout of a burst record: MEM_C_CE_LAST (R355). -/
def burstWord (lu g pc : Nat) : Nat := lu % 2 ^ 24 + g % 32 * 2 ^ 24 + pc % 2 * 2 ^ 29 + 2 ^ 31

/-- A corrected burst is counted; beyond CE_THR in one TAI second it raises CE_THRESH once (R355). -/
def memCorrected (c lu g pc : Nat) (s : State) : State :=
  let sec := stSec (nowStamp s)
  let x := memCtl c s
  let n := (if x.ceSec = sec then x.ceIn else 0) + 1
  let s := memEv c 0x010B 1 (bump (memPage c) 0x10C 0 32 1
    (setCtl c (fun y => { y with ceLast := burstWord lu g pc, ceIn := n, ceSec := sec }) s))
  if n = rf pgMem 0x100 8 16 s + 1 then raise (memPage c) 9 s else s

/-- The device triggers a takeover cause (R403); the pair logic acts on it at FAULT_DECLARED. -/
def pairTrigger (cause : Nat) (s : State) : State :=
  { s with pair := { s.pair with trig := Sys2Proof.Machine.add s.pair.trig cause } }

/-- A controller freezes on an uncorrectable burst, and the device with it (R357). -/
def memFreeze (c req : Nat) (s : State) : State :=
  let x := memCtl c s
  let s := setCtl c (fun y => { y with st := 4, frzAt := nowStamp s, diagBusy := false }) s
  let s := raise pgMem 10 (raise (memPage c) 12 s)
  let s := setBas (fun b => { b with credit := 0 }) s
  pairTrigger 0x01 (logDev (memPage c) 0x7F 0x0C01 x.ueLast
    (c + req % 8 * 16 + b2n (req == 6) * 128 + x.ueSyn % 65536 * 65536) s)

/-- The queue and entry of the frame that a dequeue read of deep berth `d` is for: one whose reads have begun, or else the first with a
part there. -/
def readsDeep (d : Nat) (s : State) : Option (Nat × QEnt) :=
  let l := s.bas.q.flatMap (fun e => (e.2.filter (fun x => has x.deep d)).map (fun x => (e.1, x)))
  match l.find? (fun e => e.2.read) with
  | some e => some e
  | none => l.head?

/-- The frame that a dequeue read of deep berth `d` is for ends bad and is dropped (R358, R263). -/
def deepBad (d : Nat) (s : State) : State :=
  match readsDeep d s with
  | none => s
  | some (q, x) =>
    let s := setFrm x.id (fun f => { f with bad := true }) s
    syncQueues [q] (releaseEnt x (ev pgBas 0x010D 1 (setQ q ((queue q s).filter (fun y => y.id != x.id)) s)))

/-- A unit of the packet buffer retires: its deep berth is never freed (R358). -/
def memRetire (c lu : Nat) (s : State) : State :=
  let d := unitOf c lu s
  let s := setMem (fun m => { m with retired := Sys2Proof.Machine.add m.retired d }) s
  let s := setBas (fun b => { b with deepUsed := Sys2Proof.Machine.add b.deepUsed d }) s
  logDev (memPage c) 0x7F 0x0C02 d c (memEv c 0x0112 1 s)

/-- An uncorrectable burst of a read: the controller freezes, or the unit retires (R357, R358). Whether the read still
returns. -/
def memUncorrectable (c : Nat) (r : MemRead) (g pc syn : Nat) (s : State) : Bool × State :=
  let s := setCtl c (fun y => { y with
    ueLast := burstWord r.lu g pc
    ueSyn := syn % 65536 + r.req % 8 * 65536 + b2n (r.req == 6) * 2 ^ 19 }) s
  let s := memEv c 0x010C 1 (raise (memPage c) 10 s)
  let poison := rb pgMem 0x100 0 s && !s.lock.paired && luRegion c r.lu s == 0 &&
    (decide (s.mem.retired.length < 1024) || has s.mem.retired (unitOf c r.lu s))
  if poison then
    let s := if has s.mem.retired (unitOf c r.lu s) then s else memRetire c r.lu s
    (true, if r.req = 1 then deepBad (unitOf c r.lu s) s else s)
  else (false, memFreeze c r.req s)

/-- READ_RETURN: the oldest read of a requester, once issued, returns checked: corrected bursts as granule and
pseudo-channel, and an uncorrectable one with its syndrome (R351, R353, R355). A scrubbed unit with a corrected error is
written back, except where a later write entered the queue (R356). -/
def readReturn (c req : Nat) (ce : List (Nat × Nat)) (ue : Option (Nat × Nat × Nat)) (s : State) : State :=
  let x := memCtl c s
  match leastBy x.reads (fun r => r.req == req) (·.order) with
  | none => s
  | some i =>
    match find? x.reads i with
    | none => s
    | some r =>
      let mine (g : Nat) : Bool := decide (r.first ≤ g) && decide (g < r.first + r.n) && !has r.fwd g
      let ce := ce.filter (fun e => mine e.1)
      let wb := (upto r.first r.n).filter (fun g => ce.any (fun e => e.1 == g))
      if x.st != 3 || !r.issued || (req == 6 && !wb.isEmpty && decide (480 < x.writes.length)) then s
      else
        let s := ce.foldl (fun a e => memCorrected c r.lu e.1 e.2 a) s
        let (back, s) := match ue with
          | some (g, pc, syn) => if mine g then memUncorrectable c r g pc syn s else (true, s)
          | none => (true, s)
        if !back then s
        else
          let s := setCtl c (fun y => { y with reads := del y.reads i }) s
          let s := setMem (fun m => { m with out := (req, r.lu, r.first, r.data.map (·.2)) }) s
          if req = 6 then
            let s := memEv c 0x010E ((wb.filter (fun g => has r.newer g)).length) s
            (wb.filter (fun g => !has r.newer g)).foldl (fun a g => memQueueWrite c 6 r.lu g [look (zeros 64) r.data g] a) s
          else s

def execReadReturn (t c req : Nat) (ce : List (Nat × Nat)) (ue : Option (Nat × Nat × Nat)) (s : State) : Res :=
  onLive (fun s => readReturn c req ce ue (advance t s)) s

/-- PATROL_SCRUB: the scrub's next unit is read (R356). It stops on every controller while one is frozen (R357). -/
def patrolScrub (c : Nat) (s : State) : State :=
  let x := memCtl c s
  if !rb pgMem 0x108 0 s || x.st != 3 || memFrozen s then s
  else match freeSlot x.reads 1024 0 with
    | none => s
    | some i =>
      let got := (upto 0 32).filterMap (fun g => (coverOf x x.scrub g).map (fun w => (g, w.data.getD (g - w.first) (zeros 64))))
      let r : MemRead := ⟨6, x.scrub, 0, 32, s.tim.up, x.order, false, got, got.map (·.1), []⟩
      memEv c 0x010D 1 (memEv c 0x0104 got.length (memEv c 0x0100 1
        (setCtl c (fun y => { y with reads := ins y.reads i r, order := y.order + 1, scrub := (y.scrub + 1) % luCount }) s)))

def execPatrolScrub (t c : Nat) (s : State) : Res := onLive (fun s => patrolScrub c (advance t s)) s

/-! ## Diagnostic reads (R359) -/

/-- A diagnostic read is served: FROZEN, or READY with the page disabled. -/
def memDiagOk (c : Nat) (s : State) : Bool :=
  memFrozenAt c s || ((memCtl c s).st == 3 && !rb (memPage c) 0x008 0 s)

/-- MEM_C_DIAG_CMD.READ. -/
def memDiagGo (c : Nat) (raw : Bool) (s : State) : State :=
  setCtl c (fun x => { x with diagBusy := true, diagDone := false, diagRaw := raw, diagReq := (rd (memPage c) 0x130 s).toNat }) s

/-- DIAG_READ_DONE: the granule arrives with the outcome of its check; `err` is the pattern of the bits in error, which a
raw or uncorrectable read shows (R359). -/
def diagReadDone (c ecc syn : Nat) (err : Bytes) (s : State) : State :=
  let x := memCtl c s
  if !x.diagBusy then s
  else
    let lu := x.diagReq % 2 ^ 24
    let g := x.diagReq / 2 ^ 24 % 32
    let b := cell (granAt c lu g s) s
    let shown := if x.diagRaw || 2 ≤ ecc then (List.range 64).map (fun i => b.getD i 0 ^^^ err.getD i 0) else b
    setCtl c (fun y => { y with
      diagBusy := false
      diagDone := true
      diagEcc := min ecc 2
      diagSyn := if ecc = 0 then 0 else syn % 65536
      diagData := shown
      diagChk := (Config.hbmCheck (beNat (b.take 32)), Config.hbmCheck (beNat (b.drop 32))) }) s

def execDiagReadDone (t c ecc syn : Nat) (err : Bytes) (s : State) : Res := onLive (fun s => diagReadDone c ecc syn err (advance t s)) s

/-! ## Registers of pages 0x1C0-0x1CC -/

/-- Age of a request in units of 10 ns, saturating. -/
def memAge (at_ : Nat) (s : State) : Nat := min ((s.tim.up - at_) / (10 * 2 ^ 32)) (2 ^ 25 - 1)

/-- MEM_STAT (R357). -/
def memStat (s : State) : Nat :=
  let l := List.range (memCount s)
  (l.map (fun c => b2n ((memCtl c s).st == 3) * 2 ^ c + b2n (memFrozenAt c s) * 2 ^ (12 + c))).sum +
    b2n (memAllReady s) * 2 ^ 24 + b2n (memFrozen s) * 2 ^ 25

/-- Read-only registers of a controller page. -/
def memCtlRo (c off : Nat) (s : State) : Option Word :=
  let x := memCtl c s
  if off = 0x104 then some (w32 (x.st + b2n x.hot * 8 + x.temp * 256))
  else if off = 0x108 then some (w32 (x.rwin + x.wwin * 256 + x.lane * 65536 + x.repaired * 2 ^ 24))
  else if off = 0x110 then some (w32 x.ceLast)
  else if off = 0x114 then some (w32 x.ueLast)
  else if off = 0x118 then some (w32 x.ueSyn)
  else if off = 0x11C then some (w32 (x.reads.length + x.writes.length * 2048 + b2n x.drain * 2 ^ 21))
  else if off = 0x120 then some (stampA x.frzAt)
  else if off = 0x124 then some (stampB x.frzAt)
  else if off = 0x128 then some (stampC x.frzAt)
  else if off = 0x12C then some (w32 x.scrub)
  else if off = 0x138 then some (w32 (b2n x.diagBusy + b2n x.diagDone * 2 + x.diagEcc * 4 + x.diagSyn * 65536))
  else none

/-- Read-only words of the windows of a controller page: the diagnostic data and the queues. -/
def memCtlWin (c off : Nat) (s : State) : Option Word :=
  let x := memCtl c s
  let gran (first req : Nat) (lu : Nat) : Word := w32 (lu % 2 ^ 24 + first * 2 ^ 24 + req % 8 * 2 ^ 29)
  if 0x4000 ≤ off && off < 0x4040 then some (w32 (leNat (sub x.diagData (off - 0x4000) 4)))
  else if off = 0x4040 then some (w32 x.diagChk.1)
  else if off = 0x4044 then some (w32 x.diagChk.2)
  else if 0x5000 ≤ off && off < 0x6000 then
    some (match find? x.writes ((off - 0x5000) / 8) with
      | none => 0
      | some w => if off % 8 = 0 then gran w.first w.req w.lu
        else w32 (w.data.length - 1 + memAge w.at_ s * 32 + b2n (writeHeld x w) * 2 ^ 30 + 2 ^ 31))
  else if 0x6000 ≤ off && off < 0x8000 then
    some (match find? x.reads ((off - 0x6000) / 8) with
      | none => 0
      | some r => if off % 8 = 0 then gran r.first r.req r.lu
        else w32 (r.n - 1 + memAge r.at_ s * 32 + b2n r.issued * 2 ^ 30 + 2 ^ 31))
  else none

/-- Read-only registers of the MEM pages. -/
def memRo (p off : Nat) (s : State) : Option Word :=
  if p = pgMem then
    if off = 0x104 then some (w32 (memStat s))
    else if off = 0x10C then some (w32 s.mem.retired.length)
    else if 0x110 ≤ off && off < 0x160 then
      let n := (off - 0x110) / 16
      if off % 16 = 0 then some 0
      else if off % 16 = 4 then some (w32 (rgnBase n s))
      else if off % 16 = 8 then some (w32 (rgnSize n s))
      else some 0
    else none
  else if off < 0x4000 then memCtlRo (p - 0x1C0) off s
  else memCtlWin (p - 0x1C0) off s

/-- Writes that a controller refuses with WR_IGNORED (R348, R359). -/
def memRefuses (p off : Nat) (v : Word) (s : State) : Bool :=
  p != pgMem && ((off == 0x100 && bitOf v 0 && (memCtl (p - 0x1C0) s).st != 5) ||
    (off == 0x134 && bitOf v 0 && (!memDiagOk (p - 0x1C0) s || (memCtl (p - 0x1C0) s).diagBusy)))

/-- What a write of a MEM register starts. -/
def memWrote (p off : Nat) (v : Word) (s : State) : State :=
  if p = pgMem then s
  else if off = 0x100 then (if bitOf v 0 then memRetrain (p - 0x1C0) s else s)
  else if off = 0x134 then (if bitOf v 0 then memDiagGo (p - 0x1C0) (bitOf v 1) s else s)
  else s

/-- A clear of PG_CTL.EN that is ignored: a controller in READY or FROZEN (R348). -/
def memKeepsEn (p : Nat) (s : State) : Bool :=
  decide (0x1C0 ≤ p) && decide (p < 0x1CC) && ((memCtl (p - 0x1C0) s).st == 3 || (memCtl (p - 0x1C0) s).st == 4)

end Sys2Proof.Machine
end

