-- ==== Sys2Proof/Machine/Arc.lean ====
section
/-! DEFINITION. Capture and archive: capture points, extents, the transfer protocol, retrieval and replay (R361-R389). -/
namespace Sys2Proof.Machine

def setArc (f : Arc → Arc) (s : State) : State := { s with arc := f s.arc }

/-- The archive's control page, and its tables of points and targets. -/
def pgArc : Nat := 0x1D0
def tbPt : Nat := 70
def tbTgt : Nat := 71

/-- The block is enabled. -/
def arcOn (s : State) : Bool := rb pgArc 0x008 0 s

/-! ## HBM contents (R345, R369) -/

/-- Bytes written at an HBM address. -/
def hbmPut : Nat → Nat → Bytes → State → State
  | 0, _, _, s => s
  | n + 1, a, b, s =>
    if b.isEmpty then s
    else
      let k := 64 - a % 64
      hbmPut n (a + k) (b.drop k) (setCell (a / 64) (splice (cell (a / 64) s) (a % 64) (b.take k)) s)

def hbmWrite (a : Nat) (b : Bytes) (s : State) : State := hbmPut (b.length / 64 + 2) a b s

/-- Bytes read at an HBM address. -/
def hbmRead (a n : Nat) (s : State) : Bytes :=
  sub ((upto (a / 64) (n / 64 + 2)).flatMap (fun i => cell i s)) (a % 64) n

/-- The address of a staging slot, and of an index entry (R369, R373). -/
def slotBase (i : Nat) (s : State) : Nat := rgnBase 1 s * 2 ^ 32 + 0x01000000 * i
def idxBase (e : Nat) (s : State) : Nat := rgnBase 2 s * 2 ^ 32 + 16 * e

/-! ## Capture points (R361-R366) -/

def capPt (p : Nat) (s : State) : CapPt := look {} s.arc.pts p
def setPt (p : Nat) (f : CapPt → CapPt) (s : State) : State := setArc (fun a => { a with pts := put {} a.pts p (f (capPt p s)) }) s

/-- The point exists on this variant (R361). -/
def ptLive (p : Nat) (s : State) : Bool := !(s.fixed.ident.varH && decide (256 ≤ p))

/-- The stamp of words W<w>-W<w+2> of a point entry. -/
def ptStamp (p w : Nat) (s : State) : Nat := ofStampWords (tw tbPt p w s) (tw tbPt p (w + 1) s) (tw tbPt p (w + 2) s)

/-- The reference instant lies in [START, STOP) (R90, R364). -/
def ptOpen (p stamp : Nat) (s : State) : Bool :=
  let a := ptStamp p 4 s
  let b := ptStamp p 7 s
  decide (a ≤ stamp) && (b == 0 || decide (stamp < b))

/-- What a tap knows of a frame at its end (R362, R366). -/
structure CapIn where
  stamp : Nat
  /-- Class in the encoding of R160: B0-B7 are 0-7, E0-E7 8-15; none when unclassed. -/
  cls : Option Nat := none
  bad : Bool := false
  falseStart : Bool := false
  preempted : Bool := false
  gen : Nat := 0
  /-- The bytes seen, DA to FCS, and the frame's length. -/
  bytes : Bytes
  len : Nat

/-- Length with the padding to 16 bytes. -/
def pad16 (n : Nat) : Nat := (n + 15) / 16 * 16

/-- The record of R366. -/
def capRecord (p seq lost : Nat) (full : Bool) (cap : Bytes) (c : CapIn) : Bytes :=
  let w3 := p % 512 + c.cls.getD 0 % 16 * 2 ^ 9 + b2n full * 2 ^ 13 + b2n c.bad * 2 ^ 14 + b2n c.falseStart * 2 ^ 15 +
    b2n c.preempted * 2 ^ 16 + b2n c.cls.isNone * 2 ^ 17 + c.gen % 2 * 2 ^ 18
  let w4 := min c.len 16383 + cap.length % 16384 * 65536
  let h := [(stampA c.stamp).toNat, (stampB c.stamp).toNat, (stampC c.stamp).toNat, w3, w4, seq, lost].flatMap (toLE 4)
  h ++ toLE 4 (crc32c (h ++ cap)) ++ cap ++ zeros (pad16 cap.length - cap.length)

/-- The scale of a point's bucket: one byte (R365). -/
def capScale : Nat := 8000 * 65536

/-- A capture point sees a frame at its end: a record enters channel C, or is lost at the point (R363-R366). -/
def capture (p : Nat) (c : CapIn) (s : State) : State :=
  let w0 := tw tbPt p 0 s
  let full := match c.cls with | some k => bitOf w0 (16 + k) | none => false
  let snap := tf tbPt p 1 0 14 s
  if !bitOf w0 0 || !ptLive p s || decide (512 ≤ p) || (!full && snap == 0) || !ptOpen p c.stamp s then s
  else
    let x := capPt p s
    let cap := if full then c.bytes else c.bytes.take snap
    let size := 32 + pad16 cap.length
    let debt := x.debt - (c.stamp - x.at_) * tf tbPt p 2 0 19 s
    let level := tf tbPt p 3 0 24 s * capScale - debt
    let at_ := max x.at_ c.stamp
    let seq := (x.seq + 1) % 2 ^ 32
    if level < size * capScale then
      captureLost 0x114 0x0102 (setPt p (fun y => { y with
        debt := debt, at_ := at_, seq := seq, lostRate := satAdd y.lostRate 1 0xFFFFFFFF, lostSince := satAdd y.lostSince 1 0xFFFFFFFF }) s)
    else
      let b := capRecord p x.seq x.lostSince full cap c
      let s := setPt p (fun y => { y with debt := debt + size * capScale, at_ := at_, seq := seq, lostSince := 0 }) s
      let id := s.lic.nextFrame
      let s := newFrm { bytes := b, stamp := c.stamp, gen := c.gen } s
      let s := setArc (fun a => { a with epochs := ins a.epochs id (epochOf c.stamp s) }) s
      setBas (fun a => { a with desc := ins a.desc id { req := .capture, dest := .drop, cls := 0 } }) s

/-- A receive record is completed once the frame's end, class and verdict are known (R362). -/
def tapTry (id : Nat) (s : State) : State :=
  match find? s.arc.taps id with
  | none => s
  | some x =>
    match x.fin with
    | none => s
    | some (b, len, bad, frags) =>
      if !x.done then s
      else
        capture (2 * x.chan)
          { stamp := x.stamp, cls := x.cls, bad := bad || x.bad, preempted := frags, gen := x.gen, bytes := b, len := len }
          (setArc (fun a => { a with taps := del a.taps id }) s)

/-- Every receive record that can be completed is. -/
def tapSettle (s : State) : State := s.arc.taps.foldl (fun a e => tapTry e.1 a) s

/-! ## Extents (R369-R373) -/

def extent (i : Nat) (s : State) : Extent := look {} s.arc.slots i
def setExt (i : Nat) (f : Extent → Extent) (s : State) : State := setArc (fun a => { a with slots := put {} a.slots i (f (extent i s)) }) s

/-- The filling slot (R370). -/
def filling (s : State) : Option Nat := (s.arc.slots.find? (fun e => e.2.st == 1)).map (·.1)

/-- Extents in staging. -/
def staged (s : State) : Nat := (s.arc.slots.filter (fun e => e.2.st != 0)).length

/-- The index entry of an extent is written (R373). -/
def idxWrite (slot st : Nat) (s : State) : State :=
  let e := extent slot s
  hbmWrite (idxBase e.ext s) (toLE 8 e.first ++ toLE 4 ((e.last - e.first) % 2 ^ 20) ++
    toLE 4 (e.target % 64 + st * 64 + e.attempt % 65536 * 256 + slot % 256 * 2 ^ 24)) s

/-- The directory bytes of an extent (R371). -/
def dirBytes (e : Extent) : Bytes :=
  e.marks.flatMap (fun m => toLE 4 ((m.epoch - e.first) % 2 ^ 20 + m.point % 512 * 2 ^ 20) ++ toLE 4 (m.off % 2 ^ 20))

/-- The header of an extent (R369). -/
def extHeader (e : Extent) (s : State) : Bytes :=
  toLE 8 (fabSerial s) ++ [e.ext, e.used].flatMap (toLE 4) ++ toLE 8 e.first ++
    [(e.last - e.first) % 2 ^ 20, e.records, e.marks.length, s.arc.lostAll - e.lost0, 0, 0, 0, 0, 0, 0].flatMap (toLE 4)

/-- The filling extent closes (R370). -/
def closeExtent (s : State) : State :=
  match filling s with
  | none => s
  | some i =>
    let e := extent i s
    let base := slotBase i s
    let lo := (base + 0xFF0000) / 64
    let s := hbmWrite base (extHeader e s) s
    let s := setMem (fun m => { m with cells := m.cells.filter (fun c => decide (c.1 < lo) || decide (lo + 1024 ≤ c.1)) }) s
    let s := hbmWrite (base + 0xFF0000) (dirBytes e) s
    let s := setExt i (fun x => { x with st := 2 }) s
    let s := setArc (fun a => { a with marks := ins a.marks e.ext e.marks }) s
    ev pgArc 0x0106 1 (idxWrite i 1 s)

/-- A slot opens a new extent (R372); none is free: nothing. -/
def openExtent (s : State) : Option Nat × State :=
  match (List.range 256).find? (fun i => (extent i s).st == 0) with
  | none => (none, s)
  | some i =>
    let n := rf pgArc 0x10C 0 29 s
    let s := wf pgArc 0x10C 0 29 (n + 1) s
    let o := s.arc.order
    let s := setArc (fun a => { a with order := o + 1 }) s
    let s := setExt i (fun _ => { st := 1, ext := n, lost0 := s.arc.lostAll, order := o }) s
    (some i, if staged s = 256 then raise pgArc 11 s else s)

/-- The record has room in the filling extent (R370). -/
def extRoom (e : Extent) (len : Nat) (newMark : Bool) : Bool :=
  decide (e.used + len ≤ 0xFF0000) && !(newMark && decide (8192 ≤ e.marks.length))

/-- A record is written into a slot (R369, R371). -/
def putRecord (i p n : Nat) (b : Bytes) (s : State) : State :=
  let e := extent i s
  let newMark := !e.marks.any (fun m => m.epoch == n && m.point == p)
  let s := hbmWrite (slotBase i s + e.used) b s
  let s := setExt i (fun x => { x with
    used := x.used + b.length
    first := if x.records = 0 then n else min x.first n
    last := if x.records = 0 then n else max x.last n
    records := x.records + 1
    firstAt := if x.records = 0 then s.tim.up else x.firstAt
    marks := if newMark then x.marks ++ [⟨n, p, e.used / 16⟩] else x.marks }) s
  let s := if newMark then ev pgArc 0x0112 1 s else s
  ev pgArc 0x0101 b.length (ev pgArc 0x0100 1 s)

/-- The capture point of a record on its way to staging. -/
def recPoint (id : Nat) (s : State) : Nat := leNat (sub (frm id s).bytes 12 4) % 512

/-- An earlier frame of capture point `p` than one of stamp `t` has its record still on the way, or is still in progress (R368). -/
def recAhead (p t : Nat) (s : State) : Bool :=
  let c := p / 2
  let before (u : Nat) : Bool := decide (u < t)
  s.bas.desc.any (fun e => e.2.req == .capture && recPoint e.1 s == p && before (frm e.1 s).stamp) ||
  (if p % 2 = 0 then
    s.arc.taps.any (fun e => e.2.chan == c && before e.2.stamp) || (port c s).ctx.any (fun r => before r.f.stamp)
  else (port c s).susp.any (fun x => before x.stamp))

/-- RECORD_STAGE: a record with its berths is copied into the filling extent, and its berths are freed; it waits while an earlier one of its
point is to come (R367-R372). -/
def recordStage (id : Nat) (s : State) : State :=
  match find? s.bas.desc id with
  | none => s
  | some x =>
    let b := (frm id s).bytes
    if x.req ≠ .capture || decide (256 * x.berths.length < b.length) || recAhead (recPoint id s) (frm id s).stamp s then s
    else
      let p := recPoint id s
      let n := look 0 s.arc.epochs id
      let s := dropArriving id (setArc (fun a => { a with epochs := del a.epochs id }) s)
      if !memAllReady s || !arcOn s then captureLost 0x11C 0x0104 s
      else
        let s := match filling s with
          | some i =>
            let e := extent i s
            if extRoom e b.length (!e.marks.any (fun m => m.epoch == n && m.point == p)) then s else closeExtent s
          | none => s
        let (i, s) := match filling s with
          | some i => (some i, s)
          | none => openExtent s
        match i with
        | none => captureLost 0x11C 0x0104 s
        | some i => putRecord i p n b s

/-- CLOSE_MS have passed since the first record of the filling extent (R370); values above 60,000 act as 60,000. -/
def closeDue (s : State) : Bool :=
  match filling s with
  | none => false
  | some i => decide ((extent i s).firstAt + min 60000 (rf pgArc 0x100 12 16 s) * 1000000 * 2 ^ 32 ≤ s.tim.up)

/-- CLOSE_MS_TIMEOUT (R370). -/
def closeMsTimeout (s : State) : State := if closeDue s then closeExtent s else s

def execRecordStage (t id : Nat) (s : State) : Res := onLive (fun s => recordStage id (advance t s)) s
def execCloseMsTimeout (t : Nat) (s : State) : Res := onLive (fun s => closeMsTimeout (advance t s)) s

/-- A slot is freed, unless a replay holds it (R372, R385). -/
def freeExtent (i : Nat) (s : State) : State :=
  let busy := match s.arc.rpl with | some r => r.slot == i | none => false
  setExt i (fun x => if busy then { x with st := 5 } else { x with st := 0 }) s

/-- DROP_STAGED frees the CLOSED extents, marking them LOST (R372). -/
def dropStaged (s : State) : State :=
  ((s.arc.slots.map (·.1)).filter (fun i => (extent i s).st == 2)).foldl (fun a i => freeExtent i (idxWrite i 3 a)) s

/-! ## Targets (R380, R381) -/

def target (t : Nat) (s : State) : Target := look {} s.arc.targets t
def setTarget (t : Nat) (f : Target → Target) (s : State) : State :=
  setArc (fun a => { a with targets := put {} a.targets t (f (target t s)) }) s

/-- An extent goes back to CLOSED to be assigned again (R381). -/
def returnExtent (i : Nat) (s : State) : State := ev pgArc 0x010E 1 (setExt i (fun x => { x with st := 2, todo := [] }) s)

/-- Slots with an extent in flight to a target. -/
def inFlight (t : Nat) (s : State) : List Nat :=
  (s.arc.slots.filter (fun e => (e.2.st == 3 || e.2.st == 4) && e.2.target == t)).map (·.1)

/-- A target changes state; one that leaves UP gives back its extents (R380, R381). -/
def targetGo (t st : Nat) (s : State) : State :=
  let was := (target t s).st
  if was = st then s
  else
    let s := raise pgArc 10 (setTarget t (fun x => { x with st := st }) s)
    let s := if st = 4 then ev pgArc 0x010D 1 (setTarget t (fun x => { x with failures := satAdd x.failures 1 0xFFFF }) s) else s
    if was = 2 then (inFlight t s).foldl (fun a i => returnExtent i a) s else s

/-- The next UP target in turn with room for an extent (R381). -/
def nextTarget (s : State) : Option Nat :=
  ((upto (s.arc.lastTarget + 1) 64).map (· % 64)).find? (fun t =>
    tb tbTgt t 0 0 s && (target t s).st == 2 && decide ((inFlight t s).length < max 1 (tf tbTgt t 0 4 4 s)))

/-- SEG in bytes (R377). -/
def segBytes (s : State) : Nat := 1024 * 2 ^ rf pgArc 0x100 10 2 s

/-- The segments of an extent, ascending (R377). -/
def segList (e : Extent) (s : State) : List Nat :=
  let g := segBytes s
  List.range ((e.used + g - 1) / g) ++ upto (0xFF0000 / g) (65536 / g)

/-- The bytes of a segment. -/
def segData (i k : Nat) (s : State) : Bytes :=
  let g := segBytes s
  let e := extent i s
  let n := if k * g < 0xFF0000 then min g (e.used - k * g) else g
  hbmRead (slotBase i s + k * g) n s

/-- EXTENT_ASSIGN: the oldest CLOSED extent goes to the next UP target (R372, R381). -/
def extentAssign (s : State) : State :=
  if !arcOn s then s
  else match leastBy s.arc.slots (fun e => e.st == 2) (·.order), nextTarget s with
    | some i, some t =>
      let s := setExt i (fun x => { x with
        st := 3, attempt := x.attempt + 1, target := t, todo := segList x s, resend := false, tries := 0, sends := 1 }) s
      idxWrite i 1 (setArc (fun a => { a with lastTarget := t }) s)
    | _, _ => s

def execExtentAssign (t : Nat) (s : State) : Res := onLive (fun s => extentAssign (advance t s)) s

/-! ## ATP (R374-R379) -/

/-- The ones' complement sum of 16-bit words. -/
def sum16 (b : Bytes) : Nat :=
  (List.range ((b.length + 1) / 2)).foldl (fun a i => a + byteAt b (2 * i) * 256 + byteAt b (2 * i + 1)) 0

/-- The internet checksum. -/
def inetSum (n : Nat) : Nat :=
  let f (x : Nat) : Nat := x % 65536 + x / 65536
  65535 - f (f (f n))

/-- The ATP header (R375). -/
def atpHeader (ty t ext attempt seg len crc : Nat) (s : State) : Bytes :=
  toBE 2 0x4154 ++ [0x01, BitVec.ofNat 8 ty] ++ toBE 8 (fabSerial s) ++ toBE 4 (ext % 2 ^ 29) ++ toBE 2 attempt ++ toBE 2 seg ++
    toBE 2 len ++ toBE 2 0 ++ toBE 4 crc ++ [BitVec.ofNat 8 (t % 64), 0, 0, 0]

/-- The frame toward a target: its template with lengths and checksums filled in (R374). -/
def atpFrame (t : Nat) (msg : Bytes) (s : State) : Bytes :=
  let len := tf tbTgt t 1 0 8 s
  let ip := tf tbTgt t 1 8 8 s
  let tp := ((List.range 24).flatMap (fun k => toLE 4 (tw tbTgt t (8 + k) s).toNat)).take len
  let udp := 8 + msg.length
  let tp := splice (splice tp (len - 4) (toBE 2 udp)) (len - 2) [0, 0]
  let b :=
    if tb tbTgt t 1 16 s then
      let tp := splice tp (ip + 4) (toBE 2 (len - ip - 40 + msg.length))
      let c := inetSum (sum16 (sub tp (ip + 8) 32) + udp + 17 + sum16 (sub tp (len - 8) 8) + sum16 msg)
      splice tp (len - 2) (toBE 2 (if c = 0 then 0xFFFF else c)) ++ msg
    else
      let tp := splice (splice tp (ip + 2) (toBE 2 (len - ip + msg.length))) (ip + 10) [0, 0]
      splice tp (ip + 10) (toBE 2 (inetSum (sum16 (sub tp ip (len - 8 - ip))))) ++ msg
  b ++ fcsOf b

/-- A frame toward a target is queued where the destination map leads; it takes no berth and passes no weir (R374). -/
def atpQueue (t : Nat) (seg : Bool) (msg : Bytes) (s : State) : Option State :=
  match queueOf (.dport (tf tbTgt t 0 8 16 s)) (tf tbTgt t 0 24 3 s) false s with
  | none => none
  | some q =>
    let b := atpFrame t msg s
    let id := s.lic.nextFrame
    let s := setQ q (queue q s ++ [{ id := id, len := b.length }]) (newFrm { bytes := b, stamp := nowStamp s, gen := s.lock.gen } s)
    some (if seg then setArc (fun a => { a with segs := ins a.segs id t }) s else s)

/-- Segments of a target that wait in the basin; those that have left are forgotten. -/
def segsPrune (s : State) : State :=
  setArc (fun a => { a with segs := a.segs.filter (fun e => s.bas.q.any (fun q => q.2.any (fun x => x.id == e.1))) }) s
def segsQueued (t : Nat) (s : State) : Nat := (s.arc.segs.filter (fun e => e.2 == t)).length

/-- COMMIT (R376, R377). -/
def sendCommit (i : Nat) (s : State) : State :=
  let e := extent i s
  let l := segList e s
  let crc := crc32c (l.flatMap (fun k => segData i k s))
  let msg := atpHeader 0x02 e.target e.ext e.attempt l.length 20 crc s ++ hbmRead (idxBase e.ext s) 16 s ++ toBE 4 e.used
  match atpQueue e.target false msg s with
  | none => s
  | some s => setExt i (fun x => { x with st := 4, todo := [], tries := x.tries + 1, commitAt := s.tim.up }) s

/-- SEGMENT_QUEUE: the next segment of an extent, and after the last the COMMIT (R372, R376, R377, R382). -/
def segmentQueue (i : Nat) (s : State) : State :=
  let s := segsPrune s
  let e := extent i s
  if e.st != 3 || !arcOn s then s
  else match e.todo with
    | [] => sendCommit i s
    | k :: r =>
      if 64 ≤ segsQueued e.target s then s
      else
        let d := segData i k s
        match atpQueue e.target true (atpHeader 0x01 e.target e.ext e.attempt k d.length (crc32c d) s ++ d) s with
        | none => s
        | some s =>
          let s := ev pgArc 0x0108 1 (setExt i (fun x => { x with todo := r }) s)
          let s := if e.resend then ev pgArc 0x0109 1 (setTarget e.target (fun x => { x with resent := satAdd x.resent 1 0xFFFF }) s) else s
          if r.isEmpty then sendCommit i s else s

def execSegmentQueue (t i : Nat) (s : State) : Res := onLive (fun s => segmentQueue i (advance t s)) s

/-- The punt queue that ARC drains (R374). -/
def ackQueue (s : State) : Nat := puntQ (rf pgArc 0x100 0 9 s)

/-- The UDP payload of a frame. -/
def udpPayload (b : Bytes) (s : State) : Bytes :=
  let p := parseOf { bytes := b, gen := s.lock.gen } s
  match p.l4 with
  | some _ => (frameData b).drop (p.l4Off + 8)
  | none => []

/-- The reply at the head of the punt queue, and the state without it (R374). -/
def atpTake (s : State) : Option (Bytes × State) :=
  if !arcOn s then none
  else match dequeue (ackQueue s) s with
    | none => none
    | some (id, _, a) => some (udpPayload (frm id a).bytes a, dropFrm id a)

/-- TYPE of a reply with MAGIC, VERSION, SERIAL and a reserved word that are right (R375, R379). -/
def atpType (m : Bytes) (s : State) : Option Nat :=
  if decide (32 ≤ m.length) && beAt m 0 2 == 0x4154 && byteAt m 2 == 1 && beAt m 4 8 == fabSerial s then some (byteAt m 3) else none

/-- The slot in SENDING or COMMITTING that a reply matches (R379). -/
def atpMatch (m : Bytes) (s : State) : Option Nat :=
  (s.arc.slots.find? (fun e => (e.2.st == 3 || e.2.st == 4) && e.2.ext == beAt m 12 4 && e.2.attempt % 65536 == beAt m 16 2 &&
    e.2.target == byteAt m 28)).map (·.1)

/-- A reply of one type is taken from the punt queue; one of another valid type stays for its own command, and one that is
no reply, or matches no extent, is discarded (R379). -/
def atpReply (ty : Nat) (f : Nat → Bytes → State → State) (s : State) : State :=
  match atpTake s with
  | none => s
  | some (m, a) =>
    match atpType m a with
    | some k =>
      if k = ty then (match atpMatch m a with | some i => f i m a | none => ev pgArc 0x010F 1 a)
      else if k = 0x81 || k = 0x82 || k = 0x83 || k = 0x84 then s
      else ev pgArc 0x010F 1 a
    | none => ev pgArc 0x010F 1 a

/-- ATP_ACK (R372). -/
def ackTaken (i : Nat) (_ : Bytes) (s : State) : State :=
  let e := extent i s
  if e.st != 4 then s
  else ev pgArc 0x0107 1 (freeExtent i (setTarget e.target (fun x => { x with archived := (x.archived + 1) % 2 ^ 32 }) (idxWrite i 2 s)))

/-- MISSING: only the listed segments are sent again (R372). -/
def missingTaken (i : Nat) (m : Bytes) (s : State) : State :=
  let e := extent i s
  let s := ev pgArc 0x010B 1 s
  if e.st != 4 then s
  else
    let bit (k : Nat) : Bool := nbit (byteAt m (32 + k / 8)) (7 - k % 8)
    setExt i (fun x => { x with st := 3, todo := (segList e s).filter bit, resend := true, tries := 0 }) s

/-- RETRY_MAX (page 0x1D0). -/
def retryMax (s : State) : Nat := rf pgArc 0x104 8 4 s

/-- REFUSED: FULL, CRC_BAD or BUSY (R372). -/
def refusedTaken (i : Nat) (m : Bytes) (s : State) : State :=
  let e := extent i s
  let s := ev pgArc 0x010C 1 s
  match beAt m 22 2 with
  | 1 => targetGo e.target 3 s
  | 2 =>
    if e.st != 4 then s
    else if e.sends < retryMax s then
      idxWrite i 1 (setExt i (fun x => { x with
        st := 3, attempt := x.attempt + 1, todo := segList x s, resend := true, tries := 0, sends := x.sends + 1 }) s)
    else targetGo e.target 4 s
  | 3 => returnExtent i s
  | _ => s

/-- ACK_TIMEOUT: no reply to a COMMIT (R372). -/
def ackTimeout (i : Nat) (s : State) : State :=
  let e := extent i s
  if e.st != 4 || decide (s.tim.up < e.commitAt + rf pgArc 0x104 0 8 s * 1000000 * 2 ^ 32) then s
  else if e.tries < retryMax s then ev pgArc 0x010A 1 (sendCommit i s)
  else targetGo e.target 4 s

def execAtpAck (t : Nat) (s : State) : Res := onLive (fun s => atpReply 0x81 ackTaken (advance t s)) s
def execAtpMissing (t : Nat) (s : State) : Res := onLive (fun s => atpReply 0x82 missingTaken (advance t s)) s
def execAtpRefused (t : Nat) (s : State) : Res := onLive (fun s => atpReply 0x83 refusedTaken (advance t s)) s
def execAckTimeout (t i : Nat) (s : State) : Res := onLive (fun s => ackTimeout i (advance t s)) s

/-- One target is probed; PROBE_MISS probes unanswered in a row fail an UP target (R379, R380). -/
def probeOne (t : Nat) (s : State) : State :=
  let x := target t s
  let n := if x.waiting then x.missed + 1 else 0
  let s := setTarget t (fun y => { y with missed := n }) s
  let s := if x.st = 2 && x.waiting && decide (rf pgArc 0x104 12 4 s ≤ n) then targetGo t 4 s else s
  match atpQueue t false (atpHeader 0x03 t 0 0 0 0 0 s) s with
  | none => s
  | some s => setTarget t (fun y => { y with waiting := true }) s

/-- PROBE_MS have passed since the last probes (R379). -/
def probeDue (s : State) : Bool :=
  match s.arc.probeAt with
  | none => true
  | some t => decide (t + rf pgArc 0x104 16 16 s * 1000000 * 2 ^ 32 ≤ s.tim.up)

/-- PROBE of every enabled target, every PROBE_MS (R379). -/
def atpProbe (s : State) : State :=
  if !arcOn s || !probeDue s then s
  else
    let s := setArc (fun a => { a with probeAt := some s.tim.up }) s
    ((List.range 64).filter (fun t => tb tbTgt t 0 0 s)).foldl (fun a t => probeOne t a) s

def execAtpProbe (t : Nat) (s : State) : Res := onLive (fun s => atpProbe (advance t s)) s

/-- PROBE_ACK: a target answers with what it can still take (R380). -/
def probeAck (s : State) : State :=
  match atpTake s with
  | none => s
  | some (m, a) =>
    match atpType m a with
    | some k =>
      if k = 0x84 then
        let t := byteAt m 28
        if 64 ≤ t || !tb tbTgt t 0 0 a || m.length < 40 then ev pgArc 0x010F 1 a
        else
          let a := setTarget t (fun x => { x with waiting := false, missed := 0 }) a
          targetGo t (if beAt m 32 8 = 0 then 3 else 2) a
      else if k = 0x81 || k = 0x82 || k = 0x83 then s
      else ev pgArc 0x010F 1 a
    | none => ev pgArc 0x010F 1 a

def execProbeAck (t : Nat) (s : State) : Res := onLive (fun s => probeAck (advance t s)) s

/-! ## Retrieval and replay (R383-R385) -/

/-- The range [RET_START, RET_STOP) of the retrieval registers (R90). -/
def retStart (s : State) : Nat := ofStampWords (rd pgArc 0x130 s) (rd pgArc 0x134 s) (rd pgArc 0x138 s)
def retStop (s : State) : Nat := ofStampWords (rd pgArc 0x13C s) (rd pgArc 0x140 s) (rd pgArc 0x144 s)
def inRet (t : Nat) (s : State) : Bool := decide (retStart s ≤ t) && decide (t < retStop s)

/-- The epoch of an instant of the range, which may lie ahead of now (R87). -/
def retEpoch (t : Nat) (s : State) : Nat := if nowStamp s < t then t / epochU else epochOf t s

/-- Index entries written, in ascending extent order. -/
def idxEntries (s : State) : List (Nat × Bytes) :=
  let lo := rgnBase 2 s * 2 ^ 26
  (s.mem.cells.filter (fun c => decide (lo ≤ c.1) && decide (c.1 < lo + 2 ^ 27))).flatMap (fun c =>
    (List.range 4).map (fun k => ((c.1 - lo) * 4 + k, sub c.2 (16 * k) 16)))

/-- The result of a lookup for one index entry, when it is one (R383). -/
def retOne (e : Nat) (b : Bytes) (s : State) : Option (RetRes × Bool) :=
  let w3 := leNat (sub b 12 4)
  let st := nfld w3 6 2
  let first := leNat (sub b 0 8)
  let last := first + leNat (sub b 8 4) % 2 ^ 20
  let from_ := retEpoch (retStart s) s
  let hit := decide (from_ ≤ last) && decide (retStart s < retStop s) && decide (first ≤ retEpoch (retStop s - 1) s)
  let p := rf pgArc 0x148 0 9 s
  let all := rb pgArc 0x148 9 s
  let ms := (look [] s.arc.marks e).filter (fun m => all || m.point == p)
  if st = 0 || !hit || ms.isEmpty then none
  else match ms.find? (fun m => decide (from_ ≤ m.epoch)) with
    | some m => some (⟨e, w3 % 64, st, w3 / 2 ^ 24, m.off⟩, true)
    | none => some (⟨e, w3 % 64, st, w3 / 2 ^ 24, 0⟩, false)

/-- ARC_RET_CMD.GO and CONTINUE (R383). -/
def retGo (s : State) : State :=
  setArc (fun a => { a with retBusy := true, retDone := false, retMore := false, retFrom := 0, results := [] }) s
def retContinue (s : State) : State :=
  if !s.arc.retMore then s else setArc (fun a => { a with retBusy := true, retDone := false, retMore := false, results := [] }) s

/-- RETRIEVAL_DONE: the lookup's next results, at most 64. An extent without a mark at or after RET_START has no offset
that the manual states: it takes a free value (log entry 11). -/
def retDone (s : State) : State :=
  if !s.arc.retBusy then s
  else
    let hits := ((idxEntries s).filter (fun e => decide (s.arc.retFrom ≤ e.1))).filterMap (fun e => retOne e.1 e.2 s)
    let (res, s) := (hits.take 64).foldl (fun (a : List RetRes × State) h =>
      if h.2 then (a.1 ++ [h.1], a.2)
      else
        let (v, s) := drawFree a.2
        (a.1 ++ [{ h.1 with off := v % 2 ^ 20 }], s)) ([], s)
    let more := decide (64 < hits.length)
    let s := setArc (fun a => { a with
      retBusy := false, retDone := true, retMore := more, results := res,
      retFrom := (match res.getLast? with | some r => r.ext + 1 | none => a.retFrom) }) s
    raise pgArc 12 (ev pgArc 0x0113 1 s)

def execRetrievalDone (t : Nat) (s : State) : Res := onLive (fun s => retDone (advance t s)) s

/-- ARC_RPL_CMD.GO and STOP (R385). -/
def rplRefused (s : State) : Bool := (extent (rf pgArc 0x160 0 8 s) s).st == 1 || s.arc.rpl.isSome
def rplGo (s : State) : State :=
  setArc (fun a => { a with rpl := some ⟨rf pgArc 0x160 0 8 s, rf pgArc 0x160 8 9 s, rf pgArc 0x160 17 8 s, 64, 0⟩, rplSent := 0 }) s
def rplEnd (s : State) : State :=
  match s.arc.rpl with
  | none => s
  | some r =>
    let s := setArc (fun a => { a with rpl := none }) s
    raise pgArc 13 (if (extent r.slot s).st = 5 then setExt r.slot (fun x => { x with st := 0 }) s else s)

/-- The first record at or after an offset that a replay sends: its offset and its frame (R385). -/
def rplNext (r : Replay) (s : State) : Nat → Nat → Option (Nat × Bytes)
  | 0, _ => none
  | n + 1, off =>
    let e := extent r.slot s
    if e.st = 0 || e.used ≤ off then none
    else
      let h := hbmRead (slotBase r.slot s + off) 32 s
      let w3 := leNat (sub h 12 4)
      let cap := nfld (leNat (sub h 16 4)) 16 14
      let t := ofStampWords (w32 (leNat (sub h 0 4))) (w32 (leNat (sub h 4 4))) (w32 (leNat (sub h 8 4)))
      if w3 % 512 = r.point && nbit w3 13 && !nbit w3 14 && !nbit w3 15 && inRet t s then
        some (off, hbmRead (slotBase r.slot s + off + 32) cap s)
      else rplNext r s n (off + 32 + pad16 cap)

/-- REPLAY_FRAME: the next record's frame is granted against the channel's B7 staging credit, at no more than RPL_RATE; with
no record left the replay ends (R284, R385). -/
def replayFrame (s : State) : State :=
  match s.arc.rpl with
  | none => s
  | some r =>
    match rplNext r s 1048576 r.off with
    | none => rplEnd s
    | some (off, b) =>
      let rate := rf pgArc 0x164 0 19 s
      if rate = 0 || s.pair.egressHold || decide (nowStamp s < r.nextAt) || decide (credit r.chan 7 s < b.length) then s
      else
        let id := s.lic.nextFrame
        let s := newFrm { bytes := b, stamp := nowStamp s, gen := s.lock.gen } s
        let s := setPcr (fun p => { p with
          creditUsed := put 0 p.creditUsed (8 * r.chan + 7) (look 0 p.creditUsed (8 * r.chan + 7) + b.length)
          out := ins p.out id (egressQ r.chan 0 7) }) s
        let s := setPort r.chan (fun p => { p with stage := put [] p.stage 7 (look [] p.stage 7 ++ [id]) }) s
        let nextAt := max (nowStamp s) r.nextAt + b.length * capScale / rate
        ev pgArc 0x0114 1 (setArc (fun a => { a with
          rpl := some { r with off := off + 32 + pad16 b.length, nextAt := nextAt }, rplSent := satAdd a.rplSent 1 0xFFFFFF }) s)

def execReplayFrame (t : Nat) (s : State) : Res := onService (fun s => replayFrame (advance t s)) s

/-! ## Registers and windows of pages 0x1D0-0x1D4 -/

/-- The oldest extent not archived: of those in staging, or the next number (page 0x1D0). -/
def extOldest (s : State) : Nat :=
  match leastBy s.arc.slots (fun e => e.st != 0 && e.st != 5) (·.order) with
  | some i => (extent i s).ext
  | none => rf pgArc 0x10C 0 29 s

/-- Result words (page 0x1D0). -/
def resWord (i w : Nat) (s : State) : Word :=
  match s.arc.results[i]? with
  | none => 0
  | some r => match w with
    | 0 => w32 r.ext
    | 1 => w32 (r.target + r.st * 64 + r.slot * 256)
    | 2 => w32 r.off
    | _ => 0

def arcRo (p off : Nat) (s : State) : Option Word :=
  if p = pgArc then
    if off = 0x108 then some (w32 (b2n (memAllReady s) + staged s * 2 + b2n (staged s == 256) * 1024))
    else if off = 0x110 then some (w32 (extOldest s))
    else if off = 0x150 then
      some (w32 (b2n s.arc.retBusy + b2n s.arc.retDone * 2 + s.arc.results.length * 4 + b2n s.arc.retMore * 512))
    else if off = 0x16C then some (w32 (b2n s.arc.rpl.isSome + s.arc.rplSent * 256))
    else if 0x4000 ≤ off && off < 0x4400 then some (resWord ((off - 0x4000) / 16) (off % 16 / 4) s)
    else none
  else if p = 0x1D3 && decide (0x4000 ≤ off) && decide (off < 0x8000) then
    let e := rf 0x1D3 0x100 10 19 s * 1024 + (off - 0x4000) / 16
    some (w32 (leNat (hbmRead (idxBase e s + off % 16) 4 s)))
  else if p = 0x1D4 && decide (0x4000 ≤ off) && decide (off < 0x8000) then
    let a := slotBase (rf 0x1D4 0x100 0 8 s) s + rf 0x1D4 0x100 8 10 s * 16384 + (off - 0x4000)
    some (w32 (leNat (hbmRead a 4 s)))
  else none

/-- Writable bits of a point's and of a target's word. -/
def ptMask (w : Nat) : Nat :=
  match w with
  | 0 => 0xFFFF0001 | 1 => 0x3FFF | 2 => 0x7FFFF | 3 => 0xFFFFFF
  | 4 => 0xFFFFFFFF | 5 => 0xFFFFFFFF | 6 => 0xFFFFFFFF | 7 => 0xFFFFFFFF | 8 => 0xFFFFFFFF | 9 => 0xFFFFFFFF | _ => 0
def tgtMask (w : Nat) : Nat :=
  match w with
  | 0 => 0x07FFFFF1 | 1 => 0x1FFFF | 2 => 0 | 3 => 0 | 4 => 0 | 5 => 0 | 6 => 0 | 7 => 0 | _ => 0xFFFFFFFF

def arcWin (p off : Nat) (s : State) : Option WinRef :=
  if off < 0x4000 || 0x8000 ≤ off then none
  else
    let o := off - 0x4000
    if p = 0x1D1 then
      let i := rf 0x1D1 0x100 8 1 s * 256 + o / 64
      some ⟨tbPt, i, o % 64 / 4, 0x4000, i, o % 64 / 4, ptMask (o % 64 / 4), false, true, !ptLive i s⟩
    else if p = 0x1D2 && decide (o < 8192) then
      some ⟨tbTgt, o / 128, o % 128 / 4, 0x4000, o / 128, o % 128 / 4, tgtMask (o % 128 / 4), false, true, false⟩
    else none

def arcWinRo (r : WinRef) (s : State) : Option Word :=
  if r.tab = tbPt then
    (match r.word with
     | 10 => some (w32 (capPt r.idx s).seq)
     | 11 => some (w32 (capPt r.idx s).lostRate)
     | _ => none)
  else if r.tab = tbTgt then
    let x := target r.idx s
    (match r.word with
     | 0 => some (setFld (tw tbTgt r.idx 0 s) 1 3 x.st)
     | 2 => some (w32 x.archived)
     | 3 => some (w32 (x.failures + x.resent * 65536))
     | _ => none)
  else none

/-- A committed target entry: EN set starts PROBING, EN cleared is DOWN (R380). -/
def arcCommitted (r : WinRef) (s : State) : State :=
  if r.tab = tbTgt then
    (if tb tbTgt r.idx 0 0 s then (if (target r.idx s).st = 0 then targetGo r.idx 1 s else s)
     else targetGo r.idx 0 (setTarget r.idx (fun x => { x with waiting := false, missed := 0 }) s))
  else s

/-- Writes that ARC refuses with WR_IGNORED (R385, page 0x1D0). -/
def arcRefuses (p off : Nat) (v : Word) (s : State) : Bool :=
  p == pgArc && ((off == 0x168 && bitOf v 0 && rplRefused s) || (off == 0x124 && bitOf v 0 && arcOn s))

/-- What a write of an ARC register starts. -/
def arcWrote (p off : Nat) (v : Word) (s : State) : State :=
  if p != pgArc then s
  else if off = 0x124 then
    let s := if bitOf v 0 && !arcOn s then dropStaged s else s
    if bitOf v 1 then closeExtent s else s
  else if off = 0x14C then
    let s := if bitOf v 0 then retGo s else s
    if bitOf v 1 then retContinue s else s
  else if off = 0x168 then
    let s := if bitOf v 0 && !rplRefused s then rplGo s else s
    if bitOf v 1 then rplEnd s else s
  else s

/-- PG_CTL.EN of page 0x1D0 is cleared: the filling extent closes (R370). -/
def arcDisabled (p : Nat) (s : State) : State := if p = pgArc then closeExtent s else s

/-- The retrieval range holds an invalid stamp, or closes before it opens: the page check refuses it, with a reason that the manual does not
give (R69, R90). -/
def retBad (s : State) : Bool :=
  !stampAValid (rd pgArc 0x130 s) || !stampAValid (rd pgArc 0x13C s) || decide (retStop s < retStart s)

/-- Page check of pages 0x1D0-0x1D2 (R388). -/
def arcCheck (s : State) : Option Nat :=
  let ts := (List.range 64).filter (fun t => tb tbTgt t 0 0 s)
  let len (t : Nat) : Nat := tf tbTgt t 1 0 8 s
  if ts.any (fun t => decide (len t < 42) || decide (96 < len t) || decide (len t < tf tbTgt t 1 8 8 s + 20)) then some 0x01
  else if ts.any (fun t => !tb tbDst (tf tbTgt t 0 8 16 s) 0 0 s) then some 0x02
  else if ts.any (fun t => decide (9600 < len t + 32 + segBytes s + 4)) then some 0x03
  else if s.fixed.ident.varH && (upto 256 256).any (fun p => tb tbPt p 0 0 s) then some 0x04
  else if (List.range 512).any (fun p => ptStamp p 7 s != 0 && decide (ptStamp p 7 s ≤ ptStamp p 4 s)) then some 0x05
  else if retBad s then some (Config.windowReason 0x1D0).toNat
  else none

/-- Sum of RATE over enabled points in Mb/s, for check 7 of R45 (R365). -/
def captureRate (s : State) : Nat :=
  ((List.range 512).map (fun p => if tb tbPt p 0 0 s then tf tbPt p 2 0 19 s else 0)).sum

end Sys2Proof.Machine
end

