-- ==== Sys2Proof/Machine/LicPort.lean ====
section
/-! DEFINITION. The port state machine, verification, and what a port drops as it stops being up for traffic (R97, R98, R104, R112, R521, R522). -/
namespace Sys2Proof.Machine

/-! ## The port state machine (R97, R98, R104, R112) -/

/-- The MAC sends a verify mPacket (R104). -/
def sendVerify (c : Nat) (s : State) : State :=
  ev (licPage c) 0x010D 1 (setPort c (fun p => { p with verify := 2, tries := p.tries + 1 }) s)

/-- Verification starts as the port enters UP, or as a lock changes LIC_PREEMPT_CFG (R104, R521). -/
def verifyStart (c : Nat) (s : State) : State :=
  let cfg := rd (licPage c) 0x108 s
  let s := setPort c (fun p => { p with verify := 0, active := false, tries := 0 }) s
  if !bitOf cfg 0 then s
  else if bitOf cfg 1 then setPort c (fun p => { p with active := true }) s
  else sendVerify c s

/-- A port that is not UP has no verification; what LIC_PREEMPT_STAT then shows follows from the configuration (R104). -/
def verifyIdle (c : Nat) (s : State) : State := setPort c (fun p => { p with active := false, tries := 0, verify := 0 }) s

/-- Bytes of the frame in transmission that have left by now: those of closed fragments, and those whose time has passed since
the fragment's first bit (log entry 15). -/
def txGone (c : Nat) (x : TxF) (s : State) : Nat :=
  if x.closed then x.done else x.done + (txStamp c (nowStamp s) s - x.fragAt) * x.mbps / (8000 * 65536)

/-- The bytes of the frame in transmission: an express copy's as far as they have arrived, or the frame as staged. -/
def txBytes (x : TxF) (s : State) : Bytes :=
  let f := frm x.id s
  if x.cls < 8 then
    (match find? s.exp.frames x.id with
     | some y => (match y.copies[x.copy]? with
       | some c => if f.ended then copyBytes y c f s else frameData (copyBytes y c { f with bytes := f.bytes ++ zeros 4 } s)
       | none => f.bytes)
     | none => f.bytes)
  else f.bytes

/-- The class of a frame in transmission in the encoding of R160; none for a MAC control frame. -/
def txCls (x : TxF) : Option Nat := if x.cls < 16 then some ((x.cls + 8) % 16) else none

/-- A frame in transmission has left the MAC, whole or dropped: its credit is on its way back and the frame is gone (R203, R284). -/
def txDone (c : Nat) (x : TxF) (s : State) : State :=
  if x.cls < 8 then copyDone x.id x.copy s
  else
    let s := if (find? s.pcr.out x.id).isSome then
        setPcr (fun p => { p with out := del p.out x.id, ret := p.ret ++ [(8 * c + x.cls - 8, x.len)] }) s
      else s
    dropFrm x.id s

/-- A frame in transmission or suspended is ended as its port stops being up for traffic (R98). -/
def txCut (c : Nat) (x : TxF) (s : State) : State :=
  let g := (frm x.id s).gen
  let sent := (txBytes x s).take (txGone c x s)
  let b := if x.closed then sent else sent ++ (fcsOf sent).map (fun y => ~~~ y)
  let s := capture (2 * c + 1)
    { stamp := x.stamp, cls := txCls x, bad := true, preempted := x.done != 0, gen := g, bytes := b, len := b.length } s
  let s := ev (licPage c) 0x0118 1 (txDone c x s)
  if x.closed then s else setPort c (fun p => { p with last := some ⟨b, .inverted, x.stamp, x.start, nlaneOut c s⟩ }) s

/-- A frame in reception is ended as its port stops being up for traffic: marked bad, and recorded unclassed; one that began while the port
was not up for traffic is only recorded (R522). -/
def rxCut (c : Nat) (r : RxF) (frags : Bool) (s : State) : State :=
  if r.off then
    capture (2 * c) { stamp := r.stamp, bad := true, preempted := frags, gen := r.gen, bytes := r.bytes, len := r.len } s
  else
    let s := match r.id with
      | none => s
      | some i =>
        setArc (fun a => { a with taps := del a.taps i })
          (learnFrameEnd i true (redEnd i r.gen [] true (frmCounted i r.bytes.length (setFrm i (fun f =>
            if f.ended then f else { f with bad := true, ended := true }) s))).2)
    ev (licPage c) 0x0118 1 (capture (2 * c)
      { stamp := r.stamp, bad := true, preempted := frags, gen := r.gen, bytes := r.bytes, len := r.len } s)

/-- What a port ends when it stops being up for traffic: the frame in transmission or suspended, and those in reception
(R98, R522). -/
def portFramesEnd (c : Nat) (s : State) : State :=
  let p := port c s
  let opt (o : Option TxF) (s : State) : State := match o with
    | some x => txCut c x s
    | none => s
  let s := opt p.susp (opt p.tx s)
  let s := match p.rx with
    | some r => if r.off then s else rxCut c r false s
    | none => s
  let s := match p.ctx with
    | some x => rxCut c x.f true s
    | none => s
  setPort c (fun p => { p with
    tx := none, susp := none, ctx := none, rx := p.rx.filter (·.off), now := if (p.rx.filter (·.off)).isSome then p.now else .junk }) s

/-- The notice that a port has left UP reaches the FTB and the basin, which flush what their entries ask for (R190, R272). -/
def portDownNotice (c : Nat) (s : State) : State :=
  let s := if tb tbPort c 0 29 s then { s with ftb := { s.ftb with downFlush := Sys2Proof.Machine.add s.ftb.downFlush c } } else s
  if rb 0x190 (0x1000 + 4 * c) 0 s && !s.bas.downPend.contains c then { s with bas := { s.bas with downPend := s.bas.downPend ++ [c] } } else s

/-- One port state change: counted, reported, and acted on when traffic stops or starts (R98, R112). -/
def portNotice (c : Nat) (was : Bool) (s : State) : State :=
  let s := raise (licPage c) 9 (ev (licPage c) 0x0117 1 (bump (licPage c) 0x120 0 16 1 s))
  if was && !chUp c s then portDownNotice c (portFramesEnd c s) else s

/-- The port moves to a state (R97). -/
def portGo (c : Nat) (st : PortState) (s : State) : State :=
  let was := chUp c s
  let s := setPort c (fun p => { p with st := st }) s
  let s := if st = .up then verifyStart c s else verifyIdle c s
  portNotice c was s

/-- Every lane of the port shows SIGNAL, CDR_LOCK and ADAPT_DONE. -/
def lanesReady (c : Nat) (s : State) : Bool :=
  (upto c (chLanes c s)).all (fun n => (nlane n s).signal && (nlane n s).cdr && (nlane n s).adapt)

/-- A lane of the port lacks SIGNAL or CDR_LOCK. -/
def laneMissing (c : Nat) (s : State) : Bool :=
  (upto c (chLanes c s)).any (fun n => !(nlane n s).signal || !(nlane n s).cdr)

/-- The port's locks are gone. -/
def locksGone (p : Port) : Port := { p with blockLock := false, amLock := false, fecLock := false, anDone := false, anPause := false }

/-- The port enters ACQUIRE, without its locks (R97). -/
def portAcquire (c : Nat) (s : State) : State := portGo c .acquire (setPort c locksGone s)

/-- ALIGN and LOCAL_FAULT end at once when a lane has no SIGNAL or CDR_LOCK, also one lost before they were entered (R97). -/
def portSettle (c : Nat) (s : State) : State :=
  if ((port c s).st = .align || (port c s).st = .localFault) && laneMissing c s then portAcquire c s else s

/-- ACQUIRE ends once the lanes are ready and, with AN37_EN, auto-negotiation has completed (R97). -/
def tryAlign (c : Nat) (s : State) : State :=
  if (port c s).st = .acquire && lanesReady c s && (!rb (licPage c) 0x100 8 s || (port c s).anDone) then
    portGo c .align s
  else s

/-- A port's lanes power down, but those that another enabled port now has (R97, R521). -/
def lanesOff (c : Nat) (s : State) : State :=
  let s := (upto c (port c s).lanes).foldl (fun a n => if laneTaken c n a then a else setNl n (fun _ => {}) a) s
  setPort c (fun p => { p with lanes := 0 }) s

/-- A port's lanes power up and adapt, and its calibration is loaded for its row and FEC (R73, R97). -/
def lanesOn (c : Nat) (s : State) : State :=
  let f := rf (licPage c) 0x100 6 2 s
  let row := chSpeed c s * 4 + rf (licPage c) 0x100 4 2 s
  let s := tput tbCal c 1 (w32 (Config.txFixed row f)) (tput tbCal c 0 (w32 (Config.rxFixed row f)) s)
  let s := (upto c (chLanes c s)).foldl (fun a n => setNl n (fun _ => { powered := true }) a) s
  setPort c (fun p => { p with lanes := chLanes c s }) s

/-- The port is DISABLED and its lanes power down (R97). -/
def portOff (c : Nat) (s : State) : State :=
  let s := portGo c .disabled s
  lanesOff c (setPort c (fun p => { locksGone p with lfRx := false, rfRx := false, hold := [], linkPaused := false }) s)

/-- EN is set after the page check: the port's lanes power up and it acquires (R97). -/
def licEnable (c : Nat) (s : State) : State := if chSpeed c s = 0 then s else portAcquire c (lanesOn c s)

/-- EN is cleared (R97). -/
def licDisable (c : Nat) (s : State) : State := if (port c s).st = .disabled then s else portOff c s

/-- A lane control change makes the lane adapt again and returns the port that uses it to ACQUIRE (R113). -/
def nlaneChanged (n : Nat) (s : State) : State :=
  match laneOwner n s with
  | none => s
  | some c => portAcquire c (setNl n (fun _ => { powered := true }) s)

/-- A change of SEND_RF while the port is in UP changes whether it is up for traffic (R112). -/
def sendRfChanged (c : Nat) (old new : Word) (s : State) : State :=
  if bitOf old 16 != bitOf new 16 && (port c s).st = .up then portNotice c (!bitOf old 16) s else s

/-- What a write of a LIC register starts (R112, R113). -/
def licWrote (c off : Nat) (old new : Word) (s : State) : State :=
  if off = 0x118 then sendRfChanged c old new s
  else if off = 0x200 && (old &&& 0x78) != (new &&& 0x78) then nlaneChanged c s
  else if off = 0x300 && (old &&& 0x7B) != (new &&& 0x7B) then flaneStart c s
  else if off = 0x400 && (old &&& 0x79) != (new &&& 0x79) then blaneStart c s
  else s

/-- A lock has changed a LIC page at T (R521): a new LIC_PORT_CFG powers the old lanes down and the new ones up. -/
def licLocked (c : Nat) (oldPort oldPre : Word) (s : State) : State :=
  if !rb (licPage c) 0x08 0 s then s
  else if oldPort != rd (licPage c) 0x100 s then
    (if chSpeed c s = 0 then licDisable c s else portAcquire c (lanesOn c (lanesOff c s)))
  else if oldPre != rd (licPage c) 0x108 s && (port c s).st = .up then verifyStart c s
  else s

/-! ## Meanings -/

/-- The PCS of the port has alignment markers (R95): RS-FEC codeword markers or those of a multi-lane PCS. -/
def hasMarkers (c : Nat) (s : State) : Bool := rf (licPage c) 0x100 6 2 s != 0

/-- The locks that a port reports in ALIGN: bit 0 block, bit 1 alignment markers, bit 2 FEC. A lane of the wrong polarity keeps them all
away (R113); without FEC, FEC_LOCK follows BLOCK_LOCK, and what AM_LOCK reads without markers is open (log entry 220). -/
def locksSet (c locks : Nat) (s : State) : State :=
  let ok := (upto c (chLanes c s)).all (fun n => polOk 0 n s)
  let b := ok && nbit locks 0
  setPort c (fun p => { p with
    blockLock := b
    amLock := if hasMarkers c s then ok && nbit locks 1 else b && Config.amWithoutMarkers
    fecLock := if hasMarkers c s then ok && nbit locks 2 else b }) s

/-- LANES_READY (R97): every lane of the port shows SIGNAL, CDR_LOCK and ADAPT_DONE; `locks` are those that the PCS and FEC have found. -/
def execLanesReady (t c locks : Nat) : State → Res := onLive fun s =>
  let s := advance t s
  if (port c s).st = .disabled then s
  else
    let s := (upto c (chLanes c s)).foldl (fun a n => if (nlane n a).powered then setNl n adapted a else a) s
    let s := tryAlign c s
    if (port c s).st = .align then locksSet c locks s else s

/-- AN37_COMPLETE (R97): Clause 37 completes on a 1000BASE-X port with AN37_EN. -/
def execAn37Complete (t c : Nat) (pause : Bool) : State → Res := onLive fun s =>
  let s := advance t s
  if chSpeed c s = 1 && rb (licPage c) 0x100 8 s && (port c s).st != .disabled then
    tryAlign c (setPort c (fun p => { p with anDone := true, anPause := pause }) s)
  else s

/-- ADAPT_TIMEOUT (R97): adaptation that did not complete in its limit starts again. -/
def execAdaptTimeout (t c : Nat) : State → Res := onLive fun s =>
  let s := advance t s
  if (port c s).st = .acquire && (upto c (chLanes c s)).any (fun n => !(nlane n s).adapt) then
    ev (licPage c) 0x011A 1 s
  else s

/-- PORT_UP (R97): lock held for UP_HOLD, with a skew of `skew` ns across the lanes that deskew can take up, moves the port from ALIGN to
UP; more than 180 ns keeps it in ALIGN (R99). -/
def execPortUp (t c skew : Nat) : State → Res := onLive fun s =>
  let s := advance t s
  if (port c s).st = .align then
    let s := locksSet c 7 s
    if (port c s).blockLock && decide (skew ≤ 180) then
      portGo c .up (setPort c (fun p => { p with lfRx := false, rfRx := false }) s)
    else s
  else s

/-- LANE_LOSS (R97): a lane of the port loses SIGNAL or CDR_LOCK, and with it the port's locks: the local fault condition. -/
def execLaneLoss (t n : Nat) (signal : Bool) : State → Res := onLive fun s =>
  let s := advance t s
  let s := setNl n (laneLose (if signal then 0 else 1)) s
  match laneOwner n s with
  | none => s
  | some c => portSettle c (setPort c (fun p => { p with blockLock := false, amLock := false, fecLock := false }) s)

/-- The lock that a local fault condition has lost: 0 block lock, 1 alignment-marker lock, 2 FEC lock; any other code is the high error
indication, which leaves the locks (R97). -/
def lockLost (cause : Nat) (p : Port) : Port :=
  match cause with
  | 0 => { p with blockLock := false }
  | 1 => { p with amLock := false }
  | 2 => { p with fecLock := false }
  | _ => p

/-- LOCAL_FAULT (R97): a local fault condition held for DOWN_HOLD; in REMOTE_FAULT it acts at once. -/
def localFaultEffect (c cause : Nat) (s : State) : State :=
  if (port c s).st = .up || (port c s).st = .remoteFault then
    portSettle c (portGo c .localFault (setPort c (fun p => lockLost cause { p with lfRx := true }) s))
  else s

/-- REMOTE_FAULT (R97): remote fault received for DOWN_HOLD. -/
def remoteFaultEffect (c : Nat) (s : State) : State :=
  if (port c s).st = .up then portGo c .remoteFault (setPort c (fun p => { p with rfRx := true }) s) else s

/-- LOCAL_FAULT_CLEAR (R97): the condition clears, with the locks found again, and the port returns to ALIGN. -/
def execLocalFaultClear (t c : Nat) : State → Res := onLive fun s =>
  let s := advance t s
  if (port c s).st = .localFault then
    portSettle c (portGo c .align (locksSet c 7 (setPort c (fun p => { p with lfRx := false }) s)))
  else s

/-- REMOTE_FAULT_CLEAR (R97): remote fault absent for 128 blocks. -/
def execRemoteFaultClear (t c : Nat) : State → Res := onLive fun s =>
  let s := advance t s
  if (port c s).st = .remoteFault then portSettle c (portGo c .align (setPort c (fun p => { p with rfRx := false }) s)) else s

/-- PAUSE_EXPIRY (R108): a class's pause time has run out. -/
def execPauseExpiry (t c k : Nat) : State → Res := onLive fun s =>
  let s := advance t s
  match find? (port c s).hold k with
  | none => s
  | some e =>
    if e ≤ nowStamp s then
      setPort c (fun p => { p with hold := del p.hold k, linkPaused := p.linkPaused && !(del p.hold k).isEmpty }) s
    else s

/-- VERIFY_TIMEOUT (R104): verifyTime passes without a respond mPacket. -/
def execVerifyTimeout (t c : Nat) : State → Res := onLive fun s =>
  let s := advance t s
  if (port c s).verify = 2 && (port c s).st = .up then
    if (port c s).tries < 3 then sendVerify c s
    else raise (licPage c) 11 (setPort c (fun p => { p with verify := 4, active := false }) s)
  else s

end Sys2Proof.Machine
end

