-- ==== Sys2Proof/Machine/EpochRec.lean ====
section
/-! DEFINITION. The epoch record and the full copy of paired operation: sections, their bytes, building and applying (R401, R402, R408). -/
namespace Sys2Proof.Machine

def setPair (f : Pair → Pair) (s : State) : State := { s with pair := f s.pair }

/-! ## Layout. R401 names the fields and sizes of the entries; their order and widths in bytes are log entry 50. -/

/-- Widths in bytes of the fields of a section's entries. -/
def secFields (ty : Nat) : List Nat :=
  match ty with
  | 0x01 => [8, 8, 4, 4, 8, 4, 4]
  | 0x02 => [4, 8, 4, 8, 8]
  | 0x03 => [1, 2, 6, 4]
  | 0x04 => [4, 6, 6]
  | 0x05 => [2, 6]
  | 0x06 => [1, 1, 6, 2, 4, 1, 1]
  | 0x07 => [2, 2]
  | 0x08 => [2, 2, 2, 2, 8, 8]
  | 0x09 => [2, 6]
  | 0x0A => [2, 2, 2, 2, 4, 4]
  | 0x0B => [1, 1, 1, 1, 4, 2, 4, 1]
  | 0x0F => [4]
  | 0x10 => [2, 6, 4, 1, 1]
  | 0x11 => [1, 2, 4, 4, 4, 4, 4, 4, 4, 4, 4, 4, 4, 4, 4, 4, 1, 1]
  | _ => []

/-- Entry bytes of a section (R401); 0x10 and 0x11 are the MAC and flow sections of the full copy. -/
def secSize (ty : Nat) : Nat :=
  match ty with
  | 0x01 => 64 | 0x02 => 32 | 0x03 => 16 | 0x04 => 16 | 0x05 => 8 | 0x06 => 24 | 0x07 => 4 | 0x08 => 24 | 0x09 => 8
  | 0x0A => 16 | 0x0B => 16 | 0x0F => 8 | 0x10 => 16 | 0x11 => 64 | _ => 0

/-- The bytes of an entry. -/
def entryBytes (ty : Nat) (e : List Nat) : Bytes :=
  let b := ((secFields ty).zip e).flatMap (fun x => toBE x.1 x.2)
  b ++ zeros (secSize ty - b.length)

/-- The fields of an entry. -/
def entryFields : List Nat → Bytes → List Nat
  | [], _ => []
  | w :: r, b => beNat (b.take w) :: entryFields r (b.drop w)

/-- A section: its header and its entries (R401). -/
def secBytes (ty : Nat) (es : List (List Nat)) : Bytes :=
  toBE 4 (ty * 2 ^ 24 + es.length) ++ toBE 4 (secSize ty) ++ es.flatMap (entryBytes ty)

/-- Sections of a record between HEADER and END, those that hold entries. -/
def bodyBytes (r : EpochRec) : Bytes := r.flatMap (fun e => if e.2.isEmpty then [] else secBytes e.1 e.2)

/-- Sections with their END and its CRC (R401). -/
def closeRec (b : Bytes) : Bytes := b ++ toBE 4 (0x0F * 2 ^ 24 + 1) ++ toBE 4 8 ++ toBE 4 (crc32c b) ++ zeros 4

/-- Entries read from bytes. -/
def readEntries (ty : Nat) : Nat → Bytes → List (List Nat)
  | 0, _ => []
  | n + 1, b => entryFields (secFields ty) b :: readEntries ty n (b.drop (secSize ty))

/-- Sections read from bytes up to END; none when a section does not fit or its size is not that of R401. -/
def readSecs : Nat → Bytes → EpochRec → Option EpochRec
  | 0, _, _ => none
  | n + 1, b, r =>
    let ty := byteAt b 0
    let k := beAt b 1 3
    let sz := beAt b 4 4 % 65536
    if b.length < 8 || sz != secSize ty || sz = 0 || decide (b.length < 8 + k * sz) then none
    else if ty = 0x0F then some r
    else readSecs n (b.drop (8 + k * sz)) (ins r ty (readEntries ty k (b.drop 8)))

/-- A record or copy part with a good END CRC. -/
def decodeRec (b : Bytes) : Option EpochRec :=
  if b.length < 16 || crc32c (b.take (b.length - 16)) != beAt b (b.length - 8) 4 then none else readSecs 64 b []

/-! ## Building (R401, R408) -/

/-- Levels travel in units of 2^-16 byte (log entry 50). -/
def lvlOut (v : Int) : Int := v * 65536 / (secU : Int)
def lvlIn (v : Int) : Int := v * (secU : Int) / 65536

/-- The epoch of the reference instant of the oldest bulk frame queued; the epoch in force when none is. -/
def oldestEpoch (s : State) : Nat :=
  (s.bas.q.flatMap (fun e => e.2)).foldl (fun a x => min a (epochOf (frm x.id s).stamp s)) (epochNow s)

def recTime (s : State) : List (List Nat) :=
  [[((timRo pgTim 0x10C s).getD 0).toNat, unsgn s.tim.acc 64, (rd pgTim 0x110 s).toNat,
    unsgn s.tim.lastOfs 64, unsgn (adjMean s) 64]]

/-- The learn operations of the epoch do not fit a LEARN section (R401). -/
def learnOver (s : State) : Bool := decide (65536 < s.ftb.deltas.length)

/-- LEARN: the operations of the epoch; what does not fit becomes one FLUSH for each port involved (R401). -/
def recLearn (s : State) : List (List Nat) :=
  let l := s.ftb.deltas
  if !learnOver s then l.map (fun d => [d.type, d.fid, d.mac, d.dest])
  else
    let keep := 65536 - (l.map (·.dest)).eraseDups.length
    (l.take keep).map (fun d => [d.type, d.fid, d.mac, d.dest]) ++ ((l.drop keep).map (·.dest)).eraseDups.map (fun d => [5, 0, 0, d])

def recPolicer (since : Nat) (s : State) : List (List Nat) :=
  (s.pcr.pol.filter (fun e => decide (since ≤ e.2.2.2))).map (fun e => [e.1, unsgn (lvlOut e.2.1) 48, unsgn (lvlOut e.2.2.1) 48])

def recContract (s : State) : List (List Nat) := s.exp.level.map (fun e => [e.1, unsgn (lvlOut e.2.1) 48])

/-- KIND of a node: proxy, static, fresh. -/
def nodeKind (n : Node) : Nat := b2n n.proxy + b2n n.static * 2 + b2n n.fresh * 4

def recNode (since : Nat) (s : State) : List (List Nat) :=
  (s.exp.nodes.filter (fun e => decide (since ≤ e.2.seen) || decide (since ≤ e.2.tA) || decide (since ≤ e.2.tB))).map (fun e =>
    [e.2.pair, nodeKind e.2, e.2.mac, e.2.rec_, e.2.hist, e.2.unmA, e.2.unmB])

def recPairSeq (s : State) : List (List Nat) := s.exp.pairSeq.map (fun e => [e.1, e.2])

def recStream (since : Nat) (s : State) : List (List Nat) :=
  (s.exp.streams.filter (fun e => decide (since ≤ e.2.tPass) || e.2.genNext != 0)).map (fun e =>
    [e.1, e.2.genNext, e.2.rec_, b2n e.2.takeAny, e.2.hist, e.2.tPass / nsU])

def recSeal (s : State) : List (List Nat) :=
  (s.msh.keys.filter (fun e => e.2.valid && nbit e.2.uses 1)).map (fun e => [e.1, e.2.ivCtr])

def recJbuf (s : State) : List (List Nat) :=
  s.sdh.pw.map (fun e => [e.1, e.2.next, jbFill e.2, e.2.st, Config.playoutPhase e.1 (epochNow s), unsgn e.2.rate 32])

/-- STATE of an extent's index entry (R373). -/
def idxState (e : Nat) (s : State) : Nat := nfld (leNat (hbmRead (idxBase e s + 12) 4 s)) 6 2

def recArchive (s : State) : List (List Nat) :=
  s.arc.slots.map (fun e => [1, e.1, e.2.st, e.2.target, e.2.ext, e.2.attempt, e.2.used, idxState e.2.ext s]) ++
  s.arc.targets.map (fun e => [2, e.1, e.2.st, 0, e.2.archived, 0, 0, 0]) ++ [[3, 0, 0, 0, rf pgArc 0x10C 0 29 s, 0, 0, 0]]

/-- The record of epoch `n` from the state as it stands at the boundary that closes it, without HEADER and END (R401).
`since` is the uptime of the boundary that opened the epoch. -/
def buildRec (n : Nat) (s : State) : EpochRec :=
  let up0 := s.tim.up - 125000 * 2 ^ 32
  [(0x02, recTime s), (0x03, recLearn s), (0x04, recPolicer (n * epochU) s), (0x05, recContract s), (0x06, recNode up0 s),
   (0x07, recPairSeq s), (0x08, recStream (n * epochU) s), (0x09, recSeal s), (0x0A, recJbuf s), (0x0B, recArchive s)]

/-- The bytes of a record (R401). -/
def recBytes (n digest : Nat) (r : EpochRec) (s : State) : Bytes :=
  let body := bodyBytes r
  let count := (r.filter (fun e => !e.2.isEmpty)).length + 2
  let head := secBytes 0x01 [[s.fixed.ident.serial, n, digest, s.lock.gen, oldestEpoch s, 72 + body.length + 16, count]]
  closeRec (head ++ body)

/-- The parts of the full copy, in the order of R408. -/
def copyParts (s : State) : List Bytes :=
  let mac := (s.ftb.mac.filter (fun e => !e.2.static)).map (fun e =>
    [e.2.fid, e.2.mac, e.2.dest, b2n e.2.hit + b2n e.2.aged * 2, e.2.fn])
  let flow := (s.ftb.flow.filter (fun e => nbit (e.2.data.getD 2 0) 9)).map (fun e =>
    [e.2.ktype, e.2.vrf] ++ (List.range 10).map (fun k => e.2.key.getD k 0) ++ (List.range 4).map (fun k => e.2.data.getD k 0) ++
      [b2n e.2.hit + b2n e.2.aged * 2, e.2.fn])
  [[(0x10, mac)], [(0x11, flow)], [(0x06, recNode 0 s)],
   [(0x07, recPairSeq s), (0x08, recStream 0 s), (0x09, recSeal s), (0x0A, recJbuf s)], [(0x02, recTime s)],
   [(0x0B, recArchive s)]].map (fun r => closeRec (bodyBytes r))

/-! ## Applying (R402, R408) -/

/-- The value that an entry with the same leading fields has in a section of the own record. -/
def ownField (own : EpochRec) (ty keys i : Nat) (e : List Nat) : Option Nat :=
  ((look [] own ty).find? (fun x => x.take keys == e.take keys)).map (·.getD i 0)

/-- The new value of a signed level: moved by the difference of the two records, or the active member's outright. -/
def lvlApply (outright : Bool) (cur : Int) (theirs : Nat) (mine : Option Nat) : Int :=
  let t := sgn theirs 48
  if outright then lvlIn t
  else match mine with
    | some m => cur + lvlIn (t - sgn m 48)
    | none => cur + lvlIn (t - lvlOut cur)

/-- The same for a counter modulo `top`. -/
def cntApply (outright : Bool) (cur theirs : Nat) (mine : Option Nat) (top : Nat) : Nat :=
  if outright then theirs % top
  else (((cur : Int) + theirs - (mine.getD cur : Int)) % (top : Int)).toNat

/-- Two sequence windows of `w` bits become the one whose REC lies further ahead, with the histories ORed (R402). -/
def windowApply (outright : Bool) (w : Nat) (rec_ hist tRec tHist : Nat) : Nat × Nat :=
  if outright then (tRec, tHist)
  else
    let d := (tRec + 65536 - rec_) % 65536
    if d < 32768 then (tRec, tHist ||| (hist * 2 ^ min d w % 2 ^ w))
    else (rec_, hist ||| (tHist * 2 ^ min (65536 - d) w % 2 ^ w))

/-- TIME (R83, R402): the active member's servo state, outright in SYNC; in STANDBY its STATE where the two records differ, and I, ADJ, the
last offset and the holdover mean moved by their differences. -/
def applyTime (out : Bool) (own : EpochRec) (e : List Nat) (s : State) : State :=
  let f (i : Nat) : Nat := e.getD i 0
  let mine (i : Nat) : Option Nat := ownField own 0x02 0 i e
  let st : ServoState := match f 0 % 4 with | 0 => .free | 1 => .acquiring | 2 => .locked | _ => .holdover
  if out then
    setAdj (sgn (f 2) 32) { s with tim := { s.tim with
      servo := st, acc := sgn (f 1) 64, lastOfs := sgn (f 3) 64, adjHist := [sgn (f 4) 64] } }
  else
    let diff (i w : Nat) (cur : Int) : Int := sgn (f i) w - sgn ((mine i).getD (unsgn cur w)) w
    let adj := sgn (rd pgTim 0x110 s).toNat 32
    setAdj (adj + diff 2 32 adj) { s with tim := { s.tim with
      servo := if (mine 0).any (fun m => m % 4 == f 0 % 4) then s.tim.servo else st
      acc := s.tim.acc + diff 1 64 s.tim.acc
      lastOfs := s.tim.lastOfs + diff 3 64 s.tim.lastOfs
      adjHist := s.tim.adjHist.map (· + diff 4 64 (adjMean s)) } }

/-- A learn operation is done: learn or move, age or delete, flush by port. -/
def learnDo (e : List Nat) (s : State) : State :=
  let fid := e.getD 1 0
  let mac := e.getD 2 0
  let dest := e.getD 3 0
  match e.getD 0 0 with
  | 5 => setFtb (fun f => { f with mac := f.mac.filter (fun x => x.2.static || !(x.2.dest == dest)) }) s
  | 1 | 2 =>
    (match macFind fid mac s with
     | some (i, x) => setFtb (fun f => { f with mac := ins f.mac i { x with dest := dest } }) s
     | none => (match macInsert ⟨fid, mac, dest, false, false, false, (learnFn fid s).getD 0⟩ s with | some (_, s) => s | none => s))
  | _ =>
    (match macFind fid mac s with
     | some (i, x) => if x.static then s else setFtb (fun f => { f with mac := del f.mac i }) s
     | none => s)

/-- A learn operation that only this member has is undone. -/
def learnUndo (e : List Nat) (s : State) : State :=
  match e.getD 0 0 with
  | 1 => learnDo (4 :: e.drop 1) s
  | 3 => learnDo (1 :: e.drop 1) s
  | 4 => learnDo (1 :: e.drop 1) s
  | _ => s

/-- LEARN: operations in only one of the two records are applied or undone; in SYNC every one is applied. -/
def applyLearn (out : Bool) (own : EpochRec) (es : List (List Nat)) (s : State) : State :=
  let mine := look [] own 0x03
  if out then es.foldl (fun a e => learnDo e a) s
  else
    let s := (mine.filter (fun e => !es.contains e)).foldl (fun a e => learnUndo e a) s
    (es.filter (fun e => !mine.contains e)).foldl (fun a e => learnDo e a) s

def applyNode (out : Bool) (e : List Nat) (s : State) : State :=
  let f (i : Nat) : Nat := e.getD i 0
  let proxy := f 1 % 2 == 1
  match s.exp.nodes.find? (fun x => x.2.pair == f 0 && x.2.mac == f 2 && x.2.proxy == proxy) with
  | some (i, n) =>
    let (r, h) := if n.fresh then (f 3, f 4) else windowApply out 32 n.rec_ n.hist (f 3) (f 4)
    setNode i (fun n => { n with rec_ := r, hist := h, unmA := f 5, unmB := f 6, fresh := n.fresh && f 1 / 4 % 2 == 1, seen := s.tim.up }) s
  | none =>
    let (i, s) := nodeNew proxy (f 0) (f 2) s
    match i with
    | some i => setNode i (fun n => { n with rec_ := f 3, hist := f 4, unmA := f 5, unmB := f 6, fresh := f 1 / 4 % 2 == 1 }) s
    | none => s

def applyStream (out : Bool) (e : List Nat) (s : State) : State :=
  let f (i : Nat) : Nat := e.getD i 0
  let x := stream (f 0) s
  let (r, h) := windowApply out 64 x.rec_ x.hist (f 2) (f 4)
  let gen := if out || decide ((f 1 + 65536 - x.genNext) % 65536 < 32768) then f 1 else x.genNext
  let tp := if out then f 5 * nsU else max x.tPass (f 5 * nsU)
  setStream (f 0) (fun y => { y with rec_ := r, hist := h, genNext := gen, takeAny := f 3 == 1, tPass := tp }) s

def applyArchive (e : List Nat) (s : State) : State :=
  let f (i : Nat) : Nat := e.getD i 0
  match f 0 with
  | 1 =>
    let s := setExt (f 1) (fun x => { x with st := f 2, target := f 3, ext := f 4, attempt := f 5 }) s
    if f 7 = 0 then s else idxWrite (f 1) (f 7) s
  | 2 => setTarget (f 1) (fun x => { x with st := f 2, archived := f 4 }) s
  | _ => wf pgArc 0x10C 0 29 (f 4) s

/-- A MAC or flow entry of the full copy. -/
def applyMac (e : List Nat) (s : State) : State :=
  let f (i : Nat) : Nat := e.getD i 0
  let x : MacE := ⟨f 0, f 1, f 2, false, f 3 % 2 == 1, f 3 / 2 % 2 == 1, f 4⟩
  match macFind (f 0) (f 1) s with
  | some (i, y) => if y.static then s else setFtb (fun t => { t with mac := ins t.mac i x }) s
  | none => (match macInsert x s with | some (_, s) => s | none => s)
def applyFlow (e : List Nat) (s : State) : State :=
  let f (i : Nat) : Nat := e.getD i 0
  let x : FlowE := ⟨f 0, f 1, (e.drop 2).take 10, (e.drop 12).take 4, f 16 % 2 == 1, f 16 / 2 % 2 == 1, f 17⟩
  match flowFind (f 0) (f 1) x.key s with
  | some (i, _) => setFtb (fun t => { t with flow := ins t.flow i x }) s
  | none => (match flowInsert x s with | some (_, s) => s | none => s)

/-- An entry of a section is applied against the own record's entry (R402). -/
def applyEntry (out : Bool) (own : EpochRec) (ty : Nat) (e : List Nat) (s : State) : State :=
  let f (i : Nat) : Nat := e.getD i 0
  match ty with
  | 0x02 => applyTime out own e s
  | 0x04 =>
    let v := look (0, 0, 0) s.pcr.pol (f 0)
    let n := (lvlApply out v.1 (f 1) (ownField own ty 1 1 e), lvlApply out v.2.1 (f 2) (ownField own ty 1 2 e), v.2.2)
    setPcr (fun p => { p with pol := put (0, 0, 0) p.pol (f 0) n }) s
  | 0x05 =>
    let v := look (0, 0) s.exp.level (f 0)
    let n := (lvlApply out v.1 (f 1) (ownField own ty 1 1 e), v.2)
    setExp (fun x => { x with level := put (0, 0) x.level (f 0) n }) s
  | 0x06 => applyNode out e s
  | 0x07 =>
    let n := cntApply out (look 0 s.exp.pairSeq (f 0)) (f 1) (ownField own ty 1 1 e) 65536
    setExp (fun x => { x with pairSeq := put 0 x.pairSeq (f 0) n }) s
  | 0x08 => applyStream out e s
  | 0x09 =>
    let k := keySlot (f 0) s
    setKey (f 0) { k with ivCtr := cntApply out k.ivCtr (f 1) (ownField own ty 1 1 e) (2 ^ 32) } s
  | 0x0A =>
    setPw (f 0) (fun x =>
      let fill : Int := (f 2 : Int) - (if out then (x.jb.length : Int) else ((ownField own ty 1 2 e).getD (f 2) : Int))
      { x with next := cntApply out x.next (f 1) (ownField own ty 1 1 e) 65536, fillOfs := if out then fill else x.fillOfs + fill
               st := if out then f 3 else x.st, rate := sgn (f 5) 32 }) s
  | 0x0B => applyArchive e s
  | 0x10 => applyMac e s
  | 0x11 => applyFlow e s
  | _ => s

/-- Entries of a record that differ from the own record's. -/
def recDiffs (own r : EpochRec) : Nat :=
  (r.map (fun e => (e.2.filter (fun x => !(look [] own e.1).contains x)).length)).sum

/-- A record, or a part of the full copy, is applied: against the own record, or outright (R402, R407). -/
def applyRec (out : Bool) (own r : EpochRec) (s : State) : State :=
  r.foldl (fun a e =>
    if e.1 = 0x01 then a
    else if e.1 = 0x03 then applyLearn out own e.2 a
    else e.2.foldl (fun b x => applyEntry out own e.1 x b) a) s

/-- A field of the HEADER section. -/
def recHead (r : EpochRec) (i : Nat) : Nat := ((look [] r 0x01).headD []).getD i 0

end Sys2Proof.Machine
end

