-- ==== Sys2Proof/Machine/Pair.lean ====
section
/-! DEFINITION. Paired operation: roles, baton tallies, records, takeover, handover and resynchronisation (R390-R411). -/
namespace Sys2Proof.Machine

/-- The pair logic's page. -/
def pgPair : Nat := 0x030

/-- CTL_ID_VARIANT and CTL_ID_REV (R66). -/
def idVariant (s : State) : Nat := b2n s.fixed.ident.varH + b2n s.fixed.ident.gradeE * 2
def idRev (s : State) : Nat := s.fixed.ident.rev

def roleCode (r : Role) : Nat :=
  match r with
  | .solo => 0 | .link => 1 | .sync => 2 | .standby => 3 | .active => 4 | .fault => 5

/-- PAIR_POLICY fields. -/
def pairEn (s : State) : Bool := rb pgPair 0x100 0 s
def pairPrefer (s : State) : Bool := rb pgPair 0x100 1 s

/-- Baton lanes UP. -/
def upLanes (s : State) : List Nat := (List.range 8).filter (fun b => (blane b s).st == 3)

/-! ## Tallies (R397-R399) -/

/-- A tally: its header and payload (R397). -/
def tally (ty lane : Nat) (last : Bool) (w1 off : Nat) (pay : Bytes) : Bytes :=
  let h := toBE 4 (ty * 2 ^ 28 + lane % 8 * 2 ^ 25 + b2n last * 2 ^ 24 + 2 ^ 20 + pay.length) ++ toBE 4 w1 ++ toBE 4 off ++
    toBE 2 (pchk pay) ++ [0]
  h ++ [BitVec.ofNat 8 (crcF 8 0x07 0 h)] ++ pay ++ zeros ((pay.length + 15) / 16 * 16 - pay.length)

/-- Tallies go out on lanes. -/
def emit (l : List (Nat × Bytes)) (s : State) : State := setPair (fun p => { p with out := p.out ++ l }) s

/-- One tally on every UP lane, or on the first. -/
def emitAll (ty : Nat) (pay : Bytes) (s : State) : State :=
  emit ((upLanes s).map (fun b => (b, tally ty b false (epochNow s) 0 pay))) s
def emitOne (ty : Nat) (pay : Bytes) (s : State) : State :=
  emit (((upLanes s).take 1).map (fun b => (b, tally ty b false (epochNow s) 0 pay))) s

/-- RECORD and COPY tallies of some bytes from offset `off`, striped over the UP lanes by OFFSET (R399). -/
def stripes (ty w1 total : Nat) (b : Bytes) (off : Nat) (s : State) : List (Nat × Bytes) :=
  let ls := upLanes s
  if ls.isEmpty then []
  else (List.range ((b.length + 4095) / 4096)).map (fun i =>
    let lane := ls.getD (i % ls.length) 0
    let pay := sub b (4096 * i) 4096
    (lane, tally ty lane (off + 4096 * i + pay.length == total) w1 (off + 4096 * i) pay))

/-- A BEAT carries the digest and the apply epoch of a READY lock while this member's role and the one in the mate's last BEAT are each
ACTIVE or STANDBY (R50). -/
def beatLock (s : State) : Bool :=
  let both (r : Nat) : Bool := r == 3 || r == 4
  s.lock.st == .ready && both (roleCode s.pair.role) && both s.pair.info.role

/-- BEAT and HELLO (R398). -/
def beatPay (s : State) : Bytes :=
  let ready := beatLock s
  toBE 8 (epochNow s) ++ [BitVec.ofNat 8 (roleCode s.pair.role),
    BitVec.ofNat 8 (b2n s.pair.takeover.isSome + b2n (memFrozen s) * 2 + b2n s.pair.egressHold * 4), 0, 0] ++
    toBE 4 (rd pgPair 0x11C s).toNat ++ toBE 8 (oldestEpoch s) ++ toBE 8 s.pair.active ++
    toBE 4 (if ready then s.lock.digest else 0) ++ zeros 4 ++ toBE 8 (if ready then s.lock.applyEpoch else 0)
def helloPairPay (s : State) : Bytes :=
  toBE 8 s.fixed.ident.serial ++ toBE 4 (idVariant s) ++ toBE 4 (idRev s) ++
    [BitVec.ofNat 8 (roleCode s.pair.role), BitVec.ofNat 8 (b2n (pairPrefer s))] ++ toBE 2 1 ++ toBE 4 s.boot.setVer ++
    toBE 4 (rd pgPair 0x11C s).toNat ++ toBE 8 s.pair.active ++ zeros 28

/-- FAULT and HANDOVER (R398). -/
def faultPay (cause epoch : Nat) (s : State) : Bytes :=
  let t := s.pair.faultAt
  [BitVec.ofNat 8 cause, 0, 0, 0] ++ [stampA t, stampB t, stampC t].flatMap (fun w => toBE 4 w.toNat) ++ toBE 8 epoch

/-! ## Roles (R394, R405) -/

/-- The baton lanes follow the pair logic: on from LINK, and off again in SOLO unless their own EN keeps them on (R394). -/
def batonLanes (s : State) : State :=
  (List.range 8).foldl (fun a b => if blaneOn b a != ((blane b a).st != 0) then blaneStart b a else a) s

/-- The role changes; `origin` is who causes it. A member that enters SYNC starts from nothing received (R407). -/
def roleGo (r : Role) (reason origin : Nat) (s : State) : State :=
  if s.pair.role = r then s
  else
    let old := s.pair.role
    let s := setPair (fun p => { p with
      role := r
      reason := reason
      mute := (match r with | .active => 0 | .link => 1 | .sync => 1 | .standby => 1 | _ => p.mute) }) s
    let s := { s with lock := { s.lock with paired := r != .solo } }
    let s := if r = .sync then setPair (fun p => { p with
        syncS := epochNow s + 1, okRecs := 0, copy := [], copyDone := [], copyBytes := 0, syncCurrent := false, rx := [], corr := none }) s
      else if r = .link then batonLanes (setPair (fun p => { p with
        egressHold := false, takeover := none, info := {}, present := false, linkAt := s.tim.up, dual := false }) s)
      else if r = .solo then batonLanes (setPair (fun p => { p with
        egressHold := false, takeover := none, handover := none, mute := if old = .active then p.mute else 1 }) s)
      else s
    logDev pgPair origin 0x0340 (roleCode old + roleCode r * 8) reason (raise pgPair 9 s)

/-- The takeover actions (R405). -/
def takeActions (cause origin : Nat) (s : State) : State :=
  let fromSync := s.pair.role == .sync
  let e := epochNow s
  let s := roleGo .active 0 origin s
  let s := setPair (fun p => { p with
    egressHold := false
    takeover := none
    handover := none
    learnAt := e + 1
    takeAt := nowStamp s
    lastCause := if cause = 0 then p.lastCause else cause
    corr := some (e - 1) }) s
  let s := sealSkip s
  let s := logDev pgPair origin 0x0341 e (cause + b2n fromSync * 256) (raise pgPair 10 s)
  let s := if cause = 0 then s else ev pgPair 0x0107 1 s
  if fromSync then ev pgPair 0x0108 1 s else s

/-- A write of PAIR_POLICY has taken effect (R392, R394). -/
def pairPolicyEffect (origin : Nat) (s : State) : State :=
  let s := setPair (fun p => { p with policyPending := false }) s
  if pairEn s then (if s.pair.role = .solo then roleGo .link 0 origin s else s)
  else match s.pair.role with
    | .solo => setPair (fun p => { p with mute := if p.mute = 1 then 1 else 0, reason := 0 }) s
    | .active => roleGo .solo 0 origin s
    | _ => roleGo .solo 0 origin s

/-- The standing orders have ended without a write of PAIR_POLICY: every order executed, or one refused (R392). -/
def muteRelease (refused : Bool) (s : State) : State :=
  if s.pair.mute != 2 then s
  else if refused then setPair (fun p => { p with policyPending := true, reason := 10 }) s
  else setPair (fun p => { p with mute := 0 }) s

/-- This member wins against the mate in LINK (R395); it stays ACTIVE against an ACTIVE mate (R396). -/
def electionWon (s : State) : Bool :=
  if pairPrefer s != s.pair.info.prefer then pairPrefer s else decide (s.fixed.ident.serial < s.pair.info.serial)
def dualWon (s : State) : Bool :=
  if s.pair.active != s.pair.info.active then decide (s.pair.info.active < s.pair.active) else electionWon s

/-- What a mate's role means to this member (R394, R396). -/
def mateRole (was : Nat) (hello : Bool) (s : State) : State :=
  let m := s.pair.info.role
  match s.pair.role with
  | .link =>
    if !hello then s
    else if m = 4 then roleGo .sync 5 0x71 s
    else if m = 1 then (if electionWon s then roleGo .active 0 0x71 s else roleGo .sync 5 0x71 s)
    else s
  | .active =>
    if (m = 1 || m = 2) && (was != m || !s.pair.present) then setPair (fun p => { p with present := true, copyDue := true }) s
    else if m = 4 && !s.pair.dual && (s.pair.info.hello || s.pair.active != s.pair.info.active) then
      let won := dualWon s
      let s := logDev pgPair 0x71 0x0344 (s.pair.info.serial % 2 ^ 32) (b2n won) (ev pgPair 0x010C 1 s)
      if won then setPair (fun p => { p with dual := true }) s else raise pgPair 13 (roleGo .sync 5 0x71 s)
    else if m = 4 then s
    else setPair (fun p => { p with dual := false }) s
  | _ => s

/-- The mate's firmware set version lies outside the range of the own active manifest (R494). -/
def setVerForeign (b : Bytes) (s : State) : Bool :=
  decide (beAt b 20 4 < s.boot.pairMin) || decide (s.boot.pairMax < beAt b 20 4)

/-- A HELLO: one with another VERSION or variant leaves a member in LINK (R394). In LINK, one whose firmware set the own manifest does
not accept counts as one of another VERSION (R494). -/
def helloTaken (b : Bytes) (s : State) : State :=
  let was := s.pair.info.role
  if beAt b 18 2 != 1 || (s.pair.role == .link && setVerForeign b s) then setPair (fun p => { p with reason := if p.role = .link then 2 else p.reason }) s
  else if beAt b 8 4 % 2 != idVariant s % 2 then setPair (fun p => { p with reason := if p.role = .link then 3 else p.reason }) s
  else
    let s := setPair (fun p => { p with
      mate := beAt b 0 8
      info := { p.info with
        serial := beAt b 0 8, role := byteAt b 16, prefer := byteAt b 17 % 2 == 1, setVer := beAt b 20 4, cfgTag := beAt b 24 4,
        active := beAt b 28 8, hello := true } }) s
    let s := mateRole was true s
    setPair (fun p => { p with present := true }) s

/-- A BEAT (R398). -/
def beatTaken (b : Bytes) (s : State) : State :=
  let was := s.pair.info.role
  let s := ev pgPair 0x0106 1 (setPair (fun p => { p with
    info := { p.info with
      role := byteAt b 8, flags := byteAt b 9, cfgTag := beAt b 12 4, oldest := beAt b 16 8, active := beAt b 24 8,
      digest := beAt b 32 4, lockEpoch := beAt b 40 8, beatAt := some s.tim.up } }) s)
  let s := mateRole was false s
  setPair (fun p => { p with present := true }) s

/-! ## Records and copies under reception (R400, R402, R408) -/

/-- A piece of a record or copy part. -/
def rxPut (off : Nat) (last : Bool) (b : Bytes) (x : RxPart) : RxPart :=
  { x with pieces := ins x.pieces off b, total := if last then some (off + b.length) else x.total }

/-- The gaps below the total, and the bytes joined, from position `pos`. -/
def rxGaps (total : Nat) : Nat → Tab Bytes → List (Nat × Nat)
  | pos, [] => if pos < total then [(pos, total - pos)] else []
  | pos, (o, b) :: r => (if pos < o then [(pos, o - pos)] else []) ++ rxGaps total (max pos (o + b.length)) r
def rxJoin : Nat → Tab Bytes → Bytes
  | _, [] => []
  | pos, (o, b) :: r => b.drop (pos - o) ++ rxJoin (max pos (o + b.length)) r

/-- NACK of some ranges, at most 64 (R398). -/
def nackPay (epoch : Nat) (l : List (Nat × Nat)) : Bytes := toBE 8 epoch ++ (l.take 64).flatMap (fun r => toBE 4 r.1 ++ toBE 4 r.2)

/-- The epoch of a record by the low half that a tally names. -/
def fullEpoch (w1 : Nat) (s : State) : Nat := epochNow s / 2 ^ 32 * 2 ^ 32 + w1

/-- A record that has come whole after a takeover corrects it (R405). -/
def correction (s : State) : State :=
  match s.pair.corr with
  | none => s
  | some e =>
    match (look {} s.pair.rx (e % 2 ^ 32)).whole with
    | none => s
    | some r =>
      let own := look [] s.pair.own e
      let s := setPair (fun p => { p with corr := none, rx := [] }) s
      ev pgPair 0x010E (recDiffs own r) (applyRec false own r s)

/-- A RECORD tally at the standby (R400). -/
def recordTaken (w1 off : Nat) (last : Bool) (b : Bytes) (s : State) : State :=
  let x := look {} s.pair.rx w1
  if x.whole.isSome then s
  else
    let x := rxPut off last b x
    let (x, reply) : RxPart × Option (Nat × Bytes) := match x.total with
      | none => (x, none)
      | some n =>
        let g := rxGaps n 0 x.pieces
        if !g.isEmpty then (x, some (4, nackPay (fullEpoch w1 s) g))
        else match decodeRec (rxJoin 0 x.pieces) with
          | some r => ({ x with pieces := [], whole := some r, size := n }, some (3, toBE 8 (fullEpoch w1 s)))
          | none => ({ x with pieces := [], total := none }, some (4, nackPay (fullEpoch w1 s) [(0, n)]))
    let s := setPair (fun p => { p with rx := ins p.rx w1 x }) s
    let s := match reply with
      | some (ty, pay) => emitOne ty pay s
      | none => s
    if s.pair.role = .active then correction s else s

/-- Parts of the full copy are applied in order as they become whole (R408). -/
def copyApply : Nat → State → State
  | 0, s => s
  | n + 1, s =>
    let k := s.pair.copyDone.length
    match (look {} s.pair.copy k).whole with
    | none => s
    | some r => copyApply n (applyRec true [] r (setPair (fun p => { p with copyDone := p.copyDone ++ [k] }) s))

/-- A piece of the MAC part at a STANDBY member, after a LEARN overflow: once whole it replaces the entries (R401). -/
def macCopyTaken (off : Nat) (last : Bool) (b : Bytes) (s : State) : State :=
  let x := rxPut off last b (look {} s.pair.copy 0)
  let keep (x : RxPart) : State := setPair (fun p => { p with copy := put {} p.copy 0 x }) s
  match x.total with
  | none => keep x
  | some n =>
    if !(rxGaps n 0 x.pieces).isEmpty then keep x
    else match decodeRec (rxJoin 0 x.pieces) with
      | none => keep {}
      | some r => applyRec true [] r (keep {})

/-- A COPY tally at a member in SYNC. -/
def copyTaken (part off : Nat) (last : Bool) (b : Bytes) (s : State) : State :=
  if 6 ≤ part || (look {} s.pair.copy part).whole.isSome then s
  else
    let x := rxPut off last b (look {} s.pair.copy part)
    let s := setPair (fun p => { p with copyBytes := p.copyBytes + b.length }) s
    match x.total with
    | none => setPair (fun p => { p with copy := ins p.copy part x }) s
    | some n =>
      if !(rxGaps n 0 x.pieces).isEmpty then setPair (fun p => { p with copy := ins p.copy part x }) s
      else match decodeRec (rxJoin 0 x.pieces) with
        | none => setPair (fun p => { p with copy := ins p.copy part {} }) s
        | some r => copyApply 6 (setPair (fun p => { p with copy := ins p.copy part { whole := some r, size := n } }) s)

/-! ## Tally reception (R397, R398) -/

/-- LEN of a type (R398). -/
def tallyLenOk (ty len : Nat) : Bool :=
  match ty with
  | 0 => len == 0
  | 1 => decide (1 ≤ len) && decide (len ≤ 4096)
  | 2 => len == 48
  | 3 => len == 8
  | 4 => decide (16 ≤ len) && len % 8 == 0 && decide (len ≤ 520)
  | 5 => len == 24
  | 6 => len == 8
  | 7 => len == 64
  | 8 => decide (1 ≤ len) && decide (len ≤ 4096)
  | _ => false

/-- LEN and payload of a tally. -/
def tallyLen (b : Bytes) : Nat := beAt b 2 2 % 8192
def tallyPay (b : Bytes) : Bytes := sub b 16 (tallyLen b)

/-- The header of a tally with a right HCS and a LEN of the range (R397). -/
def tallyHead (b : Bytes) : Bool := decide (16 ≤ b.length) && hcsOk b && decide (tallyLen b ≤ 4096)

/-- A tally passes HCS, PCHK, LEN, TYPE and VERSION (R397). -/
def tallyOk (b : Bytes) : Bool :=
  tallyHead b && decide (16 + tallyLen b ≤ b.length) && pchk (tallyPay b) == beAt b 12 2 && byteAt b 1 / 16 == 1 &&
    tallyLenOk (byteAt b 0 / 16) (tallyLen b)

/-- A tally heard after a loss of the baton shows that the mate is alive: a standby that holds releases its hold and enters
SYNC (R404). -/
def mateAlive (s : State) : State :=
  if !s.pair.lost then s
  else
    let s := setPair (fun p => { p with lost := false }) s
    if s.pair.role = .standby && s.pair.egressHold && s.pair.takeover.isNone then
      let s := setPair (fun p => { p with egressHold := false }) s
      logDev pgPair 0x71 0x0345 (epochNow s) (upLanes s).length (raise pgPair 11 (roleGo .sync 7 0x71 s))
    else s

/-- A tally is handled by type (R398). -/
def tallyTaken (b : Bytes) (s : State) : State :=
  let ty := byteAt b 0 / 16
  let last := nbit (byteAt b 0) 0
  let w1 := beAt b 4 4
  let off := beAt b 8 4
  let pay := tallyPay b
  let role := s.pair.role
  let behind := role == .standby || role == .sync
  match ty with
  | 1 => if behind || (role == .active && s.pair.corr.isSome) then recordTaken w1 off last pay s else s
  | 2 => beatTaken pay s
  | 3 => if role = .active then setPair (fun p => { p with sent := del p.sent (beAt pay 0 8) }) s else s
  | 4 =>
    if role = .active then
      let e := beAt pay 0 8
      let l := (List.range ((pay.length - 8) / 8)).map (fun i => (e, beAt pay (8 + 8 * i) 4, beAt pay (12 + 8 * i) 4))
      setPair (fun p => { p with resend := p.resend ++ l }) s
    else s
  | 5 => if behind then setPair (fun p => { p with egressHold := true, takeover := some (beAt pay 16 8, byteAt pay 0) }) s else s
  | 6 => if role = .standby then setPair (fun p => { p with handover := some (beAt pay 0 8) }) s else s
  | 7 => helloTaken pay s
  | 8 =>
    if role = .sync then copyTaken w1 off last pay s
    else if role = .standby && w1 = 0 then macCopyTaken off last pay s else s
  | _ => s

/-- A discarded tally at a member that takes records: the piece that its header names, or the gaps of the records under way, are asked for
again (R400). -/
def nackLost (b : Bytes) (s : State) : State :=
  if !(s.pair.role == .standby || s.pair.role == .sync) then s
  else if tallyHead b then
    (if byteAt b 0 / 16 = 1 then emitOne 4 (nackPay (fullEpoch (beAt b 4 4) s) [(beAt b 8 4, tallyLen b)]) s else s)
  else s.pair.rx.foldl (fun a e =>
    let top := e.2.total.getD (e.2.pieces.foldl (fun m x => max m (x.1 + x.2.length)) 0)
    let g := rxGaps top 0 e.2.pieces
    if e.2.whole.isSome || g.isEmpty then a else emitOne 4 (nackPay (fullEpoch e.1 a) g) a) s

/-- A tally that starts where the receiver has delineation is checked and handled (R397). -/
def tallyJudge (lane : Nat) (b : Bytes) (s : State) : State :=
  if !tallyOk b then nackLost b (ev pgPair 0x0105 1 (setPair (fun p => { p with hunt := Sys2Proof.Machine.add p.hunt lane }) s))
  else tallyTaken b (mateAlive (setPair (fun p => { p with hunt := rem p.hunt lane, tallyAt := s.tim.up, tallyEpoch := epochNow s }) s))

/-- The hunt of a lane goes on over the blocks `b`: the tally that ends it is handled. -/
def tallyHunt (lane : Nat) (b : Bytes) (s : State) : State :=
  match huntFind tallyHead tallyLen (b.length / 16 + 1) b with
  | none => s
  | some b => tallyJudge lane b s

/-- BATON_TALLY (R397). In a delineation hunt the bytes are blocks to test, and a tally that starts a hunt leaves the blocks after its first to
it. -/
def batonTally (lane : Nat) (b : Bytes) (s : State) : State :=
  if 8 ≤ lane || (blane lane s).st != 3 || s.pair.role = .solo then s
  else if has s.pair.hunt lane then tallyHunt lane b s
  else
    let s := tallyJudge lane b s
    if has s.pair.hunt lane then tallyHunt lane (b.drop 16) s else s

/-- A command of the pair logic: it acts now, and what it sends replaces what was sent before. -/
def pairOp (t : Nat) (f : State → State) (s : State) : Res :=
  onService (fun s => f (setPair (fun p => { p with out := [] }) (advance t s))) s

def execBatonTally (t lane : Nat) (b : Bytes) (s : State) : Res := pairOp t (batonTally lane b) s

/-! ## Sending (R399-R401, R408) -/

/-- BEAT_SEND, every 8 microseconds: BEAT on every UP lane, HELLO in LINK and toward a mate in LINK, FAULT and HANDOVER while they are named
(R399, R403, R410). -/
def beatSend (s : State) : State :=
  if s.pair.role = .solo || s.pair.beatSent.any (fun t => decide (s.tim.up < t + 8000 * 2 ^ 32)) then s
  else
    let s := setPair (fun p => { p with beatSent := some s.tim.up }) s
    let s := match s.pair.role, s.pair.takeover with
      | .fault, some (e, c) => emitAll 5 (faultPay c e s) s
      | _, _ => s
    let s := match s.pair.role, s.pair.handover with
      | .active, some e => if epochNow s < e then emitAll 6 (toBE 8 e) s else s
      | _, _ => s
    if s.pair.role = .link || s.pair.info.role == 1 then emitAll 7 (helloPairPay s) s else emitAll 2 (beatPay s) s

def execBeatSend (t : Nat) (s : State) : Res := pairOp t beatSend s

/-- RECORD_BUILD: the record of the epoch just closed is striped over the lanes (R401). -/
def recordBuild (s : State) : State :=
  let n := epochNow s - 1
  if s.pair.role ≠ .active then s
  else match find? s.pair.own n with
    | none => s
    | some r =>
      let b := recBytes n (look 0 s.pair.applied n) r s
      let s := setPair (fun p => { p with sent := ins p.sent n b, recSize := (b.length + 15) / 16 }) s
      ev pgPair 0x0102 b.length (ev pgPair 0x0100 1 (emit (stripes 1 n b.length b 0 s) s))

def execRecordBuild (t : Nat) (s : State) : Res := pairOp t recordBuild s

/-- RANGE_RESEND: the ranges that the standby listed go again (R400). -/
def rangeResend (s : State) : State :=
  let l := s.pair.resend
  let s := setPair (fun p => { p with resend := [] }) s
  l.foldl (fun a r => match find? a.pair.sent r.1 with
    | none => a
    | some b => ev pgPair 0x0103 1 (emit (stripes 1 r.1 b.length (sub b r.2.1 r.2.2) r.2.1 a) a)) s

def execRangeResend (t : Nat) (s : State) : Res := pairOp t rangeResend s

/-- FULL_COPY: every part of the copy goes to a mate in SYNC (R408); after a LEARN overflow the MAC part alone goes to any mate (R401). -/
def fullCopy (s : State) : State :=
  if s.pair.role ≠ .active || !(s.pair.copyDue || s.pair.macDue) then s
  else
    let ps := if s.pair.copyDue then copyParts s else (copyParts s).take 1
    let s := setPair (fun p => { p with copyDue := false, macDue := false }) s
    (List.range ps.length).foldl (fun a k =>
      let b := ps.getD k []
      ev pgPair 0x010B b.length (emit (stripes 8 k b.length b 0 a) a)) s

def execFullCopy (t : Nat) (s : State) : Res := pairOp t fullCopy s

/-! ## Applying records (R400, R402) -/

/-- A record is applied and reported. -/
def recordDone (n : Nat) (x : RxPart) (r : EpochRec) (s : State) : State :=
  let own := look [] s.pair.own n
  let s := applyRec (s.pair.role == .sync) own r s
  let s := setPair (fun p => { p with recEpoch := n, recSize := (x.size + 15) / 16, syncCurrent := true, rx := del p.rx (n % 2 ^ 32) }) s
  ev pgPair 0x010E (recDiffs own r) (ev pgPair 0x0101 1 s)

/-- Records held until the full copy is complete are applied in epoch order (R408). -/
def heldRecords (n : Nat) (s : State) : State :=
  (s.pair.rx.filter (fun e => match e.2.whole with
    | some r => decide (s.pair.syncS ≤ recHead r 1) && decide (recHead r 1 < n)
    | none => false)).foldl (fun a e => match e.2.whole with
      | some r => recordDone (recHead r 1) e.2 r a
      | none => a) s

/-- RECORD_APPLY: at T(N+2) the record of epoch N is applied (R402). -/
def recordApply (s : State) : State :=
  let n := epochNow s - 2
  let x := look {} s.pair.rx (n % 2 ^ 32)
  match x.whole with
  | none => s
  | some r =>
    let same := recHead r 2 == look 0 s.pair.applied n
    match s.pair.role with
    | .standby =>
      if !same then roleGo .sync 4 0x71 (ev pgPair 0x0110 1 s)
      else recordDone n x r s
    | .sync =>
      if n < s.pair.syncS then setPair (fun p => { p with rx := del p.rx (n % 2 ^ 32) }) s
      else if s.pair.copyDone.length < 6 then s
      else
        let s := recordDone n x r (heldRecords n s)
        setPair (fun p => { p with okRecs := if same then p.okRecs + 1 else 0 }) s
    | _ => s

def execRecordApply (t : Nat) (s : State) : Res := pairOp t recordApply s

/-- The next boundary is at most 10 microseconds ahead. -/
def boundaryNear (s : State) : Bool :=
  let b := match s.tim.issued with
    | some b => b.at_
    | none => (epochNow s + 1) * epochU
  decide (b ≤ nowStamp s + 10000 * nsU)

/-- RECORD_LATE: the record due at the next boundary is not whole 10 microseconds before it (R400). -/
def recordLate (s : State) : State :=
  let n := epochNow s - 1
  let behind := s.pair.role = .standby || s.pair.role = .sync
  if !behind || !boundaryNear s || (look {} s.pair.rx (n % 2 ^ 32)).whole.isSome then s
  else
    let s := setPair (fun p => { p with rx := del p.rx (n % 2 ^ 32), syncCurrent := false, okRecs := 0 }) s
    let s := raise pgPair 12 (ev pgPair 0x0104 1 (bump pgPair 0x13C 0 32 1 s))
    if s.pair.role = .standby then roleGo .sync 8 0x7F s else s

def execRecordLate (t : Nat) (s : State) : Res := pairOp t recordLate s

/-- SYNC_DONE: a member in SYNC that meets every condition becomes STANDBY; REASON names the first that fails (R409). -/
def syncDone (s : State) : State :=
  if s.pair.role ≠ .sync then s
  else
    let why := if s.pair.copyDone.length < 6 then 5
      else if s.pair.info.cfgTag != (rd pgPair 0x11C s).toNat then 4
      else if s.pair.info.oldest < s.pair.syncS then 6
      else if s.pair.okRecs < 2 then 9
      else 0
    if why != 0 then setPair (fun p => { p with reason := why }) s
    else
      let s := roleGo .standby 0 0x71 s
      logDev pgPair 0x71 0x0343 s.pair.syncS (s.pair.copyBytes / 1024) s

def execSyncDone (t : Nat) (s : State) : Res := pairOp t syncDone s

/-! ## Faults and takeover (R403-R405) -/

/-- The first boundary at least 10 microseconds ahead; and the first of those not preannounced. -/
def boundaryAfter (s : State) : Nat := max ((nowStamp s + 10000 * nsU + epochU - 1) / epochU) (epochNow s + 1)
def boundaryFree (s : State) : Nat :=
  max (boundaryAfter s) (match s.tim.issued with | some b => b.epoch + 1 | none => s.tim.nextIssue)

/-- The active member declares a fault: T is named, bulk is held, FAULT goes out (R403). -/
def faultDeclare (cause origin : Nat) (s : State) : State :=
  let e := boundaryFree s
  let s := roleGo .fault 0 origin s
  let s := setPair (fun p => { p with faultAt := nowStamp s, egressHold := true, takeover := some (e, cause) }) s
  emitAll 5 (faultPay cause e s) (logDev pgPair origin 0x0342 e cause s)

/-- The causes in force at the active member, lowest first (R403). What it knows of the mate's servo state and channels UP
is given: no tally of R398 carries them. -/
def causes (mateServo mateUp : Nat) (s : State) : List Nat :=
  s.pair.trig ++
  (if rb pgPair 0x100 2 s && decide (pipeCount s < (if s.fixed.ident.varH then 8 else 16)) then [0x04] else []) ++
  (if rb pgPair 0x100 3 s && s.tim.servo == .free && (mateServo == 2 || mateServo == 3) then [0x05] else []) ++
  (if rb pgPair 0x100 4 s && decide (((channels s).filter (fun c => (port c s).st == .up)).length + max 1 (rf pgPair 0x100 8 8 s) ≤ mateUp) then [0x06] else [])

/-- FAULT_DECLARED (R403); in FAULT it repeats the tally until T. -/
def faultDeclared (mateServo mateUp : Nat) (s : State) : State :=
  match s.pair.role, s.pair.takeover with
  | .active, _ =>
    (match causes mateServo mateUp s with
     | c :: _ => faultDeclare c 0x7F s
     | [] => s)
  | .fault, some (e, c) => emitAll 5 (faultPay c e s) s
  | _, _ => s

def execFaultDeclared (t mateServo mateUp : Nat) (s : State) : Res := pairOp t (faultDeclared mateServo mateUp) s

/-- This member stands behind an active mate. -/
def pairBehind (s : State) : Bool := s.pair.role == .standby || s.pair.role == .sync

/-- MATE_PG_LOW: cause 0x09 (R403). -/
def matePgLow (s : State) : State :=
  if pairBehind s && s.pair.takeover.isNone then setPair (fun p => { p with takeover := some (boundaryAfter s, 0x09) }) s else s

def execMatePgLow (t : Nat) (s : State) : Res := pairOp t matePgLow s

/-- BATON_LOSS: no valid tally on any lane for 12 microseconds (R400, R404). -/
def batonLoss (s : State) : State :=
  if s.pair.role = .solo || decide (s.tim.up < s.pair.tallyAt + 12000 * 2 ^ 32) then s
  else
    let s := setPair (fun p => { p with lost := true, present := false }) s
    if pairBehind s && s.pair.takeover.isNone then setPair (fun p => { p with egressHold := true }) s else s

def execBatonLoss (t : Nat) (s : State) : Res := pairOp t batonLoss s

/-- SILENCE, at the first boundary that closes two whole epochs without a valid tally: an edge of PAIR_BEAT_I in them vetoes the takeover (R404). -/
def silence (edge : Bool) (s : State) : State :=
  if !pairBehind s || !s.pair.lost || decide (epochNow s < s.pair.tallyEpoch + 3) then s
  else if rb pgPair 0x100 5 s && edge then
    let s := setPair (fun p => { p with egressHold := false }) s
    let s := ev pgPair 0x010D 1 (roleGo .sync 7 0x7F s)
    logDev pgPair 0x7F 0x0345 (epochNow s) (upLanes s).length (raise pgPair 11 s)
  else setPair (fun p => { p with takeover := some (epochNow s, 0x08) }) s

def execSilence (t : Nat) (edge : Bool) (s : State) : Res := pairOp t (silence edge) s

/-- TAKEOVER: at T the standby takes over (R405). -/
def takeover (s : State) : State :=
  match s.pair.takeover with
  | none => s
  | some (e, c) =>
    if pairBehind s && decide (e ≤ epochNow s) then correction (takeActions c (if c ≤ 7 then 0x71 else 0x7F) s) else s

def execTakeover (t : Nat) (s : State) : Res := pairOp t takeover s

/-- LINK_WAIT has passed since LINK was entered; 0 acts as 1. -/
def linkWaited (s : State) : Bool := decide (s.pair.linkAt + max 1 (rf pgPair 0x100 16 8 s) * 10000000 * 2 ^ 32 ≤ s.tim.up)

/-- LINK_WAIT_EXPIRY: LINK_WAIT passes without a valid HELLO (R394). -/
def linkWaitExpiry (s : State) : State :=
  if s.pair.role = .link && !s.pair.info.hello && linkWaited s then
    setPair (fun p => { p with present := false, reason := 1 }) (roleGo .active 1 0x7F s)
  else s

def execLinkWaitExpiry (t : Nat) (s : State) : Res := pairOp t linkWaitExpiry s

/-! ## Marshal commands (R394, R403, R410) -/

/-- The handover epoch in the registers. -/
def handoverEpoch (s : State) : Nat := (rd pgPair 0x10C s).toNat * 2 ^ 32 + (rd pgPair 0x108 s).toNat

/-- A HANDOVER that is refused (R410). -/
def handoverRefused (s : State) : Bool :=
  s.pair.role != .active || s.pair.info.role != 3 || decide (handoverEpoch s < epochNow s + 4)

def handoverGo (s : State) : State :=
  let e := handoverEpoch s
  emitAll 6 (toBE 8 e) (setPair (fun p => { p with handover := some e }) s)

/-- HANDOVER_INSTANT: at the named epoch the roles swap (R394, R410). -/
def handoverInstant (s : State) : State :=
  match s.pair.handover with
  | none => s
  | some e =>
    if epochNow s < e then s
    else match s.pair.role with
      | .active =>
        let s := setPair (fun p => { p with handover := none, takeAt := nowStamp s }) s
        ev pgPair 0x0109 1 (roleGo .standby 0 0x50 s)
      | .standby => ev pgPair 0x0109 1 (takeActions 0 0x71 s)
      | _ => setPair (fun p => { p with handover := none }) s

def execHandoverInstant (t : Nat) (s : State) : Res := pairOp t handoverInstant s

/-- PAIR_CMD (R394, R403, R410). -/
def pairForce (s : State) : State := if s.pair.role = .active then faultDeclare 0x07 0x50 s else s
def pairResync (s : State) : State :=
  if s.pair.role = .fault && s.pair.trig.isEmpty then roleGo .link 0 0x50 s else s

/-! ## Epoch boundaries and registers -/

/-- What the pair logic does at a boundary: the beat pin toggles, a member in FAULT mutes at T, and each member keeps its own
record of the epoch that closes (R391, R401, R403). -/
def pairBoundary (s : State) : State :=
  let e := epochNow s
  let s := setPair (fun p => { p with beatO := !p.beatO, active := if p.role = .active then p.active + 1 else p.active }) s
  let s := match s.pair.role, s.pair.takeover with
    | .fault, some (n, _) => if n ≤ e then setPair (fun p => { p with mute := 1, takeover := none }) s else s
    | _, _ => s
  let s := match s.pair.corr with
    | some n => if n + 1 < e then setPair (fun p => { p with corr := none }) s else s
    | none => s
  let keep (m : Tab Bytes) : Tab Bytes := m.filter (fun x => decide (e ≤ x.1 + 1))
  let s := if pairBehind s || s.pair.role = .active then
      let r := buildRec (e - 1) s
      setPair (fun p => { p with
        macDue := p.macDue || (p.role == .active && learnOver s)
        own := (ins p.own (e - 1) r).filter (fun x => decide (e ≤ x.1 + 4))
        sent := keep p.sent
        applied := p.applied.filter (fun x => decide (e ≤ x.1 + 4)) }) s
    else s
  setFtb (fun f => { f with deltas := [] }) s

/-- A lock has been applied at the boundary in force: its digest goes into the record (R50). -/
def pairLockApplied (digest : Nat) (s : State) : State :=
  setPair (fun p => { p with applied := ins p.applied (epochNow s) digest }) s

/-- A baton lane came up or went down (R411). -/
def batonLaneChanged (s : State) : State := ev pgPair 0x010F 1 s

/-- PAIR_STAT. -/
def pairStat (s : State) : Nat :=
  let p := s.pair
  roleCode p.role + b2n p.present * 8 + b2n p.egressHold * 16 + b2n (p.mute != 0) * 32 + b2n p.syncCurrent * 64 +
    (upLanes s).length * 128 + p.reason * 2 ^ 16 + p.lastCause * 2 ^ 24

def pairRo (off : Nat) (s : State) : Option Word :=
  if off = 0x110 then some (w32 (pairStat s))
  else if off = 0x114 then some (w32 s.pair.mate)
  else if off = 0x118 then some (w32 (s.pair.mate / 2 ^ 32))
  else if off = 0x120 then some (w32 s.pair.info.cfgTag)
  else if off = 0x124 then some (w32 (s.pair.recSize % 2 ^ 20))
  else if off = 0x128 then some (w32 s.pair.recEpoch)
  else if off = 0x12C then some (w32 (s.pair.recEpoch / 2 ^ 32))
  else if off = 0x130 then some (stampA s.pair.takeAt)
  else if off = 0x134 then some (stampB s.pair.takeAt)
  else if off = 0x138 then some (stampC s.pair.takeAt)
  else none

/-- Writes that the pair logic refuses with WR_IGNORED (R410). -/
def pairRefuses (off : Nat) (v : Word) (s : State) : Bool :=
  off == 0x104 && ((bitOf v 0 && handoverRefused s) || (bitOf v 2 && !(s.pair.role == .fault && s.pair.trig.isEmpty)) ||
    (bitOf v 1 && s.pair.role != .active))

/-- What a marshal write of a pair register starts. -/
def pairWrote (off : Nat) (v : Word) (s : State) : State :=
  if off = 0x100 then pairPolicyEffect 0x50 s
  else if off = 0x104 then
    let s := setPair (fun p => { p with out := [] }) s
    let s := if bitOf v 0 && !handoverRefused s then handoverGo s else s
    let s := if bitOf v 1 then pairForce s else s
    if bitOf v 2 then pairResync s else s
  else s

end Sys2Proof.Machine
end

