-- ==== Sys2Proof/Machine/Msh.lean ====
section
/-! DEFINITION. The safety partition but for command execution: halting faults, the key store view, the petition mailbox, the towpath receiver, the seal console, heats and the memory test (R412-R444). -/
namespace Sys2Proof.Machine

def pgMsh : Nat := 0x020
def pgPet : Nat := 0x021
def pgTp : Nat := 0x022
def pgKey : Nat := 0x023
def pgCon : Nat := 0x024
def pgSt : Nat := 0x025

def setMsh (f : Msh → Msh) (s : State) : State := { s with msh := f s.msh }
def setCon (f : Console → Console) (s : State) : State := setMsh (fun m => { m with con := f m.con }) s
def setHeat (f : Heat → Heat) (s : State) : State := setMsh (fun m => { m with heat := f m.heat }) s

/-- Tables behind the windows of pages 0x021, 0x023 and 0x024. -/
def tbPet : Nat := 80
def tbPetR : Nat := 81
def tbKeyV : Nat := 82
def tbConI : Nat := 83
def tbConO : Nat := 84

/-- Every word of a table returns to zero. -/
def tblZero (tab : Nat) (s : State) : State :=
  { s with regs := { s.regs with tbl := s.regs.tbl.filter (fun e => e.1 / 2 ^ 30 != tab) } }

/-- `n` bytes of a table of one entry, byte 0 in the low byte of word 0; entry i holds words 64 i and up. -/
def tblBytes (tab n : Nat) (s : State) : Bytes :=
  ((List.range ((n + 3) / 4)).flatMap (fun i => toLE 4 (tw tab (i / 64) (i % 64) s).toNat)).take n

/-- Word `i` of a byte sequence, byte 0 lowest. -/
def byteWord (b : Bytes) (i : Nat) : Word := w32 (leNat (sub b (4 * i) 4))

/-! ## Faults of the partition (R441) -/

/-- The marshal halts: a lockstep mismatch (0), its clock lost (1) or an uncorrectable SRAM error (2). -/
def mshHalt (bit : Nat) (s : State) : State :=
  let was := s.msh.st
  let s := setMsh (fun m => { m with st := 2, fault := m.fault ||| 2 ^ bit }) s
  if was = 2 then s
  else pairTrigger 0x03 (logDev pgMsh 0x7F 0x0305 s.msh.fault 0 (raise pgMsh 11 s))

def execLockstepMismatch (t : Nat) (s : State) : Res := onLive (fun s => mshHalt 0 (advance t s)) s
def execMarshalClockLoss (t : Nat) (s : State) : Res := onLive (fun s => mshHalt 1 (advance t s)) s

/-- A scrub of the marshal's SRAM found `ces` corrected errors, and an uncorrectable one. -/
def sramScrub (ces : Nat) (ue : Bool) (s : State) : State :=
  let s := if ces = 0 then s else bump pgMsh 0x138 0 32 ces s
  if ue then mshHalt 2 s else s

def execSramScrub (t ces : Nat) (ue : Bool) (s : State) : Res := onLive (fun s => sramScrub ces ue (advance t s)) s

/-- The random source fails its health test (R436, R441). -/
def rngFail (s : State) : State := setMsh (fun m => { m with rngOk := false, fault := m.fault ||| 8 }) s

def execRngHealthFail (t : Nat) (s : State) : Res := onLive (fun s => rngFail (advance t s)) s

/-- The scrub visits a slot; one that fails parity is zeroised. -/
def keySlotScrub (slot : Nat) (bad : Bool) (s : State) : State :=
  if bad && decide (slot < 256) then keyErase slot 2 0x50 s else s

def execKeySlotScrub (t slot : Nat) (bad : Bool) (s : State) : Res := onLive (fun s => keySlotScrub slot bad (advance t s)) s

/-! ## The memory test (R441) -/

/-- The march tests the next free express store cell. -/
def memtestCell (bad : Bool) (s : State) : State :=
  let h := s.msh.heat
  if !rb pgSt 0x100 2 s then s
  else
    let i := h.cellNext
    let wrap := decide (i + 1 = 196608)
    let s := setHeat (fun h => { h with
      cellNext := if wrap then 0 else i + 1
      passes := if wrap then satAdd h.passes 1 0x1FFF else h.passes }) s
    if has h.cellsGone i then s
    else
      let s := ev pgSt 0x0105 1 s
      if !bad then s
      else
        let s := ev pgSt 0x0106 1 (setHeat (fun h => { h with cellsGone := Sys2Proof.Machine.add h.cellsGone i }) s)
        if 196608 - s.msh.heat.cellsGone.length < storeRsv (rf pgExp 0x100 0 1 s) s && !s.msh.heat.rsvShort then
          raise pgSt 11 (setHeat (fun h => { h with rsvShort := true }) s)
        else s

def execMemtestCell (t : Nat) (bad : Bool) (s : State) : Res := onLive (fun s => memtestCell bad (advance t s)) s

/-! ## The petition mailbox (R425, R426) -/

/-- The origins that can own the mailbox. -/
def petOwner (o : Nat) : Bool := o == 0x00 || (decide (0x40 ≤ o) && decide (o ≤ 0x43))

/-- A command window write is discarded. -/
def petWinRefused (o : Nat) (s : State) : Bool :=
  !petOwner o || s.msh.petSt == 1 || s.msh.petSt == 2 ||
  (s.msh.petSt == 0 && s.msh.petOwner != none && s.msh.petOwner != some o)

/-- What a command window write by an accepted origin does beside storing its word. -/
def petWinTaken (o : Nat) (s : State) : State :=
  if s.msh.petSt = 3 then setMsh (fun m => { m with petSt := 0, petResp := [], petResult := 0, petOwner := some o }) s
  else setMsh (fun m => { m with petOwner := some o }) s

/-- A write of MSH_PET_LEN or MSH_PET_CTL is discarded. -/
def petRegRefused (ctl : Bool) (o : Nat) (s : State) : Bool :=
  !petOwner o || (s.msh.petSt == 0 && s.msh.petOwner != some o) || (ctl && (s.msh.petSt == 1 || s.msh.petSt == 2))

/-- SUBMIT by the owner in IDLE; a halted marshal answers HALTED (R441). -/
def petSubmit (s : State) : State :=
  if s.msh.petSt != 0 then s
  else
    let s := ev pgPet 0x0100 1 s
    if s.msh.st = 2 then setMsh (fun m => { m with petSt := 3, petResult := 0x0C, petResp := [] }) s
    else
      let b := tblBytes tbPet (rf pgPet 0x104 0 14 s) s
      setMsh (fun m => { m with petSt := 1, queue := m.queue ++ [⟨0, b, 0⟩] }) s

/-- CANCEL by the owner in IDLE. -/
def petCancel (s : State) : State :=
  if s.msh.petSt != 0 then s else tblZero tbPet (setMsh (fun m => { m with petOwner := none }) s)

/-- A reset of an origin acts on the mailbox that it owns (R426). -/
def petReset (o : Nat) (s : State) : State :=
  if s.msh.petOwner != some o || s.msh.petSt = 3 then s
  else
    let st := s.msh.petSt
    let s := if st = 0 then tblZero tbPet (setMsh (fun m => { m with petOwner := none }) s)
      else if st = 1 then ev pgPet 0x0101 1 (setMsh (fun m => { m with
        petSt := 3, petResult := 0x0B, petResp := [], queue := m.queue.filter (fun c => c.source != 0) }) s)
      else s
    logDev pgPet 0x50 0x0302 st o s

/-! ## The towpath (R427, R428) -/

def tpMac (s : State) : Nat := rf pgTp 0x108 0 16 s * 2 ^ 32 + (rd pgTp 0x104 s).toNat
def tpPeer (s : State) : Nat := rf pgTp 0x110 0 16 s * 2 ^ 32 + (rd pgTp 0x10C s).toNat

/-- TOWPATH_FRAME: a lane receives a frame, its FCS included; a frame at a full buffer is a frame discarded too (R444; DEDUCED, log
entry 253). -/
def towpathFrame (laneB : Bool) (b : Bytes) (s : State) : State :=
  let src := if laneB then 2 else 1
  if !rb pgTp 0x100 (b2n laneB) s || s.msh.st = 2 then s
  else
    let n := b.length
    let m := sub b 14 (n - 18)
    if n < 64 || b.drop (n - 4) != fcsOf (b.take (n - 4)) || beAt b 0 6 != tpMac s || beAt b 12 2 != 0x88B5 ||
        beAt m 0 2 != 0x5450 || byteAt m 3 != 1 then ev pgTp 0x0101 1 s
    else if 4 ≤ (s.msh.queue.filter (fun c => c.source == src)).length then ev pgTp 0x0101 1 (bump pgTp 0x118 0 32 1 s)
    else ev pgTp 0x0100 1 (setMsh (fun x => { x with queue := x.queue ++ [⟨src, m, beAt b 6 6⟩] }) s)

def execTowpathFrame (t : Nat) (laneB : Bool) (b : Bytes) (s : State) : Res :=
  onLive (fun s => towpathFrame laneB b (advance t s)) s

/-- TOWPATH_LINK_CHANGE: a lane's link is up or down; `an` when Clause 37 has completed. -/
def towpathLink (laneB up an : Bool) (s : State) : State :=
  let u := up && rb pgTp 0x100 (b2n laneB) s
  let a := u && an && rb pgTp 0x100 2 s
  setMsh (fun m => if laneB then { m with upB := u, anB := a } else { m with upA := u, anA := a }) s

def execTowpathLinkChange (t : Nat) (laneB up an : Bool) (s : State) : Res :=
  onLive (fun s => towpathLink laneB up an (advance t s)) s

/-- A message leaves on a lane, padded to 60 bytes, with its FCS (R427). -/
def tpSend (laneB : Bool) (da : Nat) (msg : Bytes) (s : State) : State :=
  let d := toBE 6 da ++ toBE 6 (tpMac s) ++ toBE 2 0x88B5 ++ msg
  let d := d ++ zeros (60 - d.length)
  setMsh (fun m => { m with out := m.out ++ [(b2n laneB, d ++ fcsOf d)] }) s

/-! ## The seal console (R433-R437) -/

/-- Another origin holds the console. -/
def conForeign (o : Nat) (s : State) : Bool :=
  match s.msh.con.owner with
  | some h => h != o
  | none => false

/-- The console registers and buffers that a release zeroes. -/
def conZero (s : State) : State :=
  let s := [0x110, 0x114, 0x118, 0x130, 0x134, 0x138, 0x13C].foldl (fun a off => wr pgCon off 0 a) s
  tblZero tbConI (setCon (fun c => { c with output := [], job := c.job.map (fun j => (j.1, [], none, none)) }) s)

/-- The console is free again. -/
def conRelease (s : State) : State := conZero (setCon (fun c => { c with owner := none }) s)

/-- A release that the holder did not write (R437). -/
def conLost (s : State) : State := ev pgCon 0x0102 1 (raise pgCon 10 (conRelease s))

/-- A reset of an origin releases the console that it holds (R437). -/
def conReset (o : Nat) (s : State) : State := if s.msh.con.owner = some o then conLost s else s

/-- A write of SEAL_LOCK is discarded (R433). -/
def conLockRefused (o : Nat) (v : Word) (s : State) : Bool :=
  if bitOf v 31 then s.msh.con.owner != none || fld v 0 8 != o else s.msh.con.owner != some o

/-- A write of SEAL_LOCK claims or releases the console (R433). -/
def conLock (o : Nat) (v : Word) (s : State) : State :=
  if bitOf v 31 then setCon (fun c => { c with owner := some o, accessAt := s.tim.up }) s else conRelease s

/-- The 96-bit IV, and the tag, as the registers hold them: byte 0 lowest. -/
def conIv (s : State) : Nat := beNat ([0x110, 0x114, 0x118].flatMap (fun off => toLE 4 (rd pgCon off s).toNat))
def conTag (s : State) : Nat := beNat ([0x130, 0x134, 0x138, 0x13C].flatMap (fun off => toLE 4 (rd pgCon off s).toNat))

/-- Bytes as a list of small numbers, and back. -/
def bytesOfNats (l : List Nat) : Bytes := l.map (BitVec.ofNat 8)

/-- The fixed time of a job, in ns (R436). -/
def conTime (na nt : Nat) : Nat := ((na + 15) / 16 + (nt + 15) / 16 + 2) * 60 + 200

/-- An access by the holder to page 0x024 (R437). -/
def conTouch (p o : Nat) (s : State) : State :=
  if p = pgCon && s.msh.con.owner == some o then setCon (fun c => { c with accessAt := s.tim.up }) s else s

/-- A job starts: its outcome is fixed now and shown once its time has passed (R434, R436). A GMAC covers the whole input
(log entry 53). -/
def conGo (s : State) : State :=
  if s.msh.con.busy then s
  else
    let op := rf pgCon 0x104 0 2 s
    let slot := rf pgCon 0x104 2 8 s
    let na := rf pgCon 0x108 0 13 s
    let nt := rf pgCon 0x10C 0 13 s
    let k := keySlot slot s
    let gen := op = 0 || op = 2
    let crypt := op = 2 || op = 3
    let inp := natsOf (tblBytes tbConI (na + nt) s)
    let aad := if crypt then inp.take na else inp
    let txt := if crypt then inp.drop na else []
    let s := ev pgCon 0x0100 1 s
    let go (j : Nat × Bytes × Option Nat × Option Nat) (s : State) : State :=
      setCon (fun c => { c with busy := true, done := false, job := some j, jobAt := s.tim.up + conTime na nt * 2 ^ 32 }) s
    if nbit s.msh.fault 3 || 4096 < na + nt then go (3, [], none, none) s
    else
      let s := ev pgKey 0x0100 1 s
      if !k.valid || !nbit k.uses (if crypt then 5 else 4) then go (2, [], none, none) s
      else if gen && k.ivCtr = 0xFFFFFFFF then go (3, [], none, none) s
      else if gen then
        let iv := k.ivFixed * 2 ^ 32 + k.ivCtr
        let ct := if crypt then gcmCrypt k.key iv txt else []
        go (0, bytesOfNats ct, some (gcmTag k.key iv aad ct), some iv) (setKey slot { k with ivCtr := k.ivCtr + 1 } s)
      else
        let ok := gcmTag k.key (conIv s) aad txt == conTag s
        let pt := if ok && crypt then gcmCrypt k.key (conIv s) txt else []
        go (if ok then 0 else 1, bytesOfNats pt, none, none) s

/-- Registers take a big-endian number, byte 0 in the low byte of the first. -/
def conPut (offs : List Nat) (n v : Nat) (s : State) : State :=
  let b := toBE n v
  (offs.zip (List.range offs.length)).foldl (fun a e => wr pgCon e.1 (byteWord b e.2) a) s

/-- CONSOLE_JOB_DONE: the job's results appear, never before its fixed time has passed (R434, R436). -/
def consoleJobDone (s : State) : State :=
  match s.msh.con.job with
  | none => s
  | some (res, out, tag, iv) =>
    if s.tim.up < s.msh.con.jobAt then s else
    let s := setCon (fun c => { c with busy := false, done := true, result := res, output := out, job := none }) s
    let s := match tag with
      | some x => conPut [0x130, 0x134, 0x138, 0x13C] 16 x s
      | none => s
    let s := match iv with
      | some x => conPut [0x110, 0x114, 0x118] 12 x s
      | none => s
    let s := if res = 0 then s else ev pgCon 0x0101 1 s
    raise pgCon 9 s

def execConsoleJobDone (t : Nat) (s : State) : Res := onLive (fun s => consoleJobDone (advance t s)) s

/-- CONSOLE_LEASE_EXPIRY: 100 ms without an access by the holder (R437). -/
def leaseExpiry (s : State) : State :=
  if s.msh.con.owner = none || decide (s.tim.up < s.msh.con.accessAt + 100000000 * 2 ^ 32) then s else conLost s

def execConsoleLeaseExpiry (t : Nat) (s : State) : Res := onLive (fun s => leaseExpiry (advance t s)) s

/-- MANAGEMENT_CORE_RESET of core `c`: the petition and the console of its origin (R426, R437). -/
def execManagementCoreReset (t c : Nat) (s : State) : Res :=
  onLive (fun s => let s := advance t s; if c < 4 then conReset (0x40 + c) (petReset (0x40 + c) s) else s) s

/-! ## Heats (R438-R440) -/

/-- Pipelines that exist and are not retired, ascending. -/
def liveQ (s : State) : List Nat := (List.range (pipes s)).filter (fun q => !has s.pac.retired q)

/-- A spare pipeline is present. -/
def spareQ (s : State) : Bool := decide (pipes s - 1 < (liveQ s).length)

/-- Rule 3 of R438: the next pipeline after the one in the current heat; before any heat, the one that waits idle. -/
def heatRule3 (s : State) : Option Nat :=
  match s.msh.heat.last with
  | none => if (s.pac.idle.map (fun q => (liveQ s).contains q)).getD false then s.pac.idle else (liveQ s).head?
  | some q => match (liveQ s).find? (fun p => decide (q < p)) with
    | some p => some p
    | none => (liveQ s).head?

/-- What the next heat boundary would name (R438, R440): the pipeline in heat with the kind of heat, and the pipelines that
stay withdrawn beside it. -/
def heatPlan (s : State) : Option (Nat × Nat) × Option Nat :=
  let h := s.msh.heat
  let on := rb pgSt 0x100 0 s
  match h.unretire, h.retest with
  | some q, r => (some (q, 2), r)
  | none, some q => (some (q, 1), none)
  | none, none =>
    if on && (spareQ s || rb pgSt 0x100 1 s) then
      let sus := (s.pac.suspects.filter (fun q => (liveQ s).contains q)).head?
      (((match sus with
        | some q => some q
        | none => heatRule3 s).map (fun q => (q, 0))), none)
    else (none, if !on && spareQ s then heatRule3 s else none)

/-- The outcome of the heat that ends (R439, R440); no result is NOT_DONE. -/
def heatEnd (s : State) : State :=
  let h := s.msh.heat
  match h.cur with
  | none => s
  | some q =>
    let (out, bits) := h.res.getD (3, 0)
    let s := ev pgSt 0x0100 1 (setHeat (fun h => { h with
      cur := none
      res := none
      lastPipe := q
      lastBits := bits
      count := (h.count + 1) % 65536 }) s)
    let last (n : Nat) (s : State) : State := setHeat (fun h => { h with lastOut := n }) s
    if out = 0 then
      let s := { s with pac := { s.pac with suspects := rem s.pac.suspects q } }
      if h.kind = 1 then last 4 (ev pgSt 0x0102 1 s)
      else if h.kind = 2 then last 0 { s with pac := { s.pac with retired := rem s.pac.retired q } }
      else last 0 s
    else
      let s := raise pgSt 9 (ev pgSt 0x0101 1 s)
      if h.kind = 1 then
        let s := { s with pac := { s.pac with
          retired := Sys2Proof.Machine.add s.pac.retired q, suspects := rem s.pac.suspects q } }
        last 5 (logDev pgSt 0x70 0x0304 q bits (raise pgSt 10 (ev pgSt 0x0103 1 s)))
      else if h.kind = 2 then last out s
      else last out (setHeat (fun h => { h with retest := some q }) s)

/-- A heat boundary: the outcome takes effect and the next pipeline is withdrawn in the same dispatch cycle (R144, R438). -/
def heatBoundary (s : State) : State :=
  let before := (List.range 17).filter (pipeActive · s)
  let wasOut (q : Nat) : Bool := s.pac.heat == some q || s.pac.idle == some q || has s.pac.retired q
  let s := heatEnd s
  let (heat, idle) := heatPlan s
  let s := setHeat (fun h => { h with
    cur := heat.map (·.1)
    kind := (heat.map (·.2)).getD 0
    last := match heat with
      | some e => some e.1
      | none => h.last
    retest := if (heat.map (·.2)) == some 1 then none else h.retest
    unretire := none
    startAt := s.tim.up
    suspended := heat.isNone && rb pgSt 0x100 0 s }) s
  let s := { s with pac := { s.pac with
    heat := heat.map (·.1)
    idle := idle
    draining := match heat with
      | some e => !wasOut e.1
      | none => false } }
  let s := if heat.isSome then ev 0x160 0x0104 1 s else s
  if (List.range 17).filter (pipeActive · s) == before then s else raise 0x160 12 s

/-- Nanoseconds have passed since the last heat boundary. -/
def heatPast (ns : Nat) (s : State) : Bool := decide (s.msh.heat.startAt + ns * 2 ^ 32 ≤ s.tim.up)

/-- HEAT_IDLE_TIMEOUT: 1.5 us have passed without PIPE_IDLE; the heat fails as NOT_IDLE (R439). -/
def heatIdleTimeout (s : State) : State :=
  if heatPast 1500 s && s.msh.heat.cur.isSome && s.pac.draining && s.msh.heat.res.isNone then
    setHeat (fun h => { h with res := some (2, 0) }) s
  else s

def execHeatIdleTimeout (t : Nat) (s : State) : Res := onLive (fun s => heatIdleTimeout (advance t s)) s

/-- HEAT_RESULT: the self-test's result, `some n` for a failure with n signature bits differing; due by 1,980 us (R439). -/
def heatResult (diff : Option Nat) (s : State) : State :=
  if !heatPast 1980001 s && s.msh.heat.cur.isSome && !s.pac.draining && s.msh.heat.res.isNone then
    setHeat (fun h => { h with res := some (match diff with
      | none => (0, 0)
      | some n => (1, n % 65536)) }) s
  else s

def execHeatResult (t : Nat) (diff : Option Nat) (s : State) : Res := onLive (fun s => heatResult diff (advance t s)) s

/-- MSH_ST_FORCE: a pipeline joins the suspect set (R440). -/
def stForce (v : Word) (s : State) : State :=
  let q := fld v 0 5
  if bitOf v 31 && decide (q < pipes s) && !has s.pac.retired q then
    ev pgSt 0x0104 1 { s with pac := { s.pac with suspects := Sys2Proof.Machine.add s.pac.suspects q } }
  else s

/-- MSH_ST_UNRETIRE: a heat of a retired pipeline is due (R440). -/
def stUnretire (v : Word) (s : State) : State :=
  let q := fld v 0 5
  if bitOf v 31 && has s.pac.retired q then setHeat (fun h => { h with unretire := some q }) s else s

/-! ## Registers of pages 0x007 and 0x020-0x025 -/

def bitsWord (l : List Nat) : Word := w32 (l.foldl (fun a q => a + 2 ^ q) 0)

/-- MSH_LOCK_STAT: a marshal-owned cycle is pending while one is held or runs (R422). -/
def mshLockStat (s : State) : Nat :=
  let run := s.lock.ownerMarshal && !(s.lock.st == .idle || s.lock.st == .done || s.lock.st == .refused)
  s.msh.lockReason % 256 + b2n s.msh.lockApplied * 256 + b2n (s.lock.held.isSome || run) * 512

def mshStat (s : State) : Nat :=
  s.msh.st + b2n s.msh.standingDone * 4 + b2n s.msh.standingFail * 8 + b2n s.msh.rngOk * 16 + s.msh.failIndex % 256 * 256

/-- NEXT of MSH_ST_STAT: what the next heat boundary names should the heat in progress end as it stands; none before epochs
run. -/
def heatNext (s : State) : Nat :=
  let s' := match s.msh.heat.res with
    | none => setHeat (fun h => { h with res := some (0, 0) }) s
    | some _ => s
  if s.tim.inForce.isNone then 31 else (((heatPlan (heatEnd s')).1).map (·.1)).getD 31

/-- Registers that pages 0x025 and 0x007 both show (R442). -/
def stRo (off : Nat) (s : State) : Option Word :=
  let h := s.msh.heat
  if off = 0x104 then some (w32 (h.cur.getD 31 + heatNext s * 32 + b2n h.suspended * 1024 + h.count * 65536))
  else if off = 0x108 then some (bitsWord s.pac.retired)
  else if off = 0x10C then some (w32 (h.lastPipe + h.lastOut * 32 + h.lastBits * 256))
  else if off = 0x11C then some (w32 (h.cellsGone.length % 2 ^ 18 + b2n h.rsvShort * 2 ^ 18 + h.passes * 2 ^ 19))
  else none

def mshRo (p off : Nat) (s : State) : Option Word :=
  let m := s.msh
  if p = pgMsh then
    (match off with
     | 0x100 => some (w32 (mshStat s))
     | 0x104 => some (w32 m.bootId)
     | 0x108 => some (w32 (m.bootId / 2 ^ 32))
     | 0x10C => some (w32 (m.cmdResult + m.cmdSource * 256 + m.cmdSlot * 65536))
     | 0x110 => some (w32 m.cmdCtr)
     | 0x114 => some (w32 (m.cmdCtr / 2 ^ 32))
     | 0x12C => some (w32 (mshLockStat s))
     | 0x134 => some (w32 m.fault)
     | _ => none)
  else if p = pgPet then
    (match off with
     | 0x108 => some (w32 (m.petSt + m.petResult * 256 + m.petResp.length * 65536))
     | 0x10C => some (w32 (match m.petOwner with
        | some o => o + 256
        | none => 0))
     | _ => none)
  else if p = pgTp then
    (match off with
     | 0x114 => some (w32 (b2n m.upA + b2n m.upB * 2 + b2n m.anA * 4 + b2n m.anB * 8))
     | 0x11C => some (w32 m.statusSeq)
     | _ => none)
  else if p = pgCon then
    (match off with
     | 0x100 => some (w32 (match m.con.owner with
        | some o => o + 2 ^ 31
        | none => 0))
     | 0x120 => some (w32 (b2n m.con.busy + b2n m.con.done * 2 + m.con.result * 4))
     | _ => none)
  else if p = pgSt then (if off = 0x110 then some (bitsWord s.pac.suspects) else stRo off s)
  else if p = 0x007 then stRo off s
  else none

/-- Windows of the partition: the petition's command and response, the key store view, the console's buffers. -/
def mshWin (p off : Nat) : Option WinRef :=
  let o := off - 0x4000
  if off < 0x4000 || 0x8000 ≤ off then none
  else if p = pgPet then
    let d := o % 0x2000 / 4
    if off < 0x6000 then some ⟨tbPet, d / 64, d % 64, 0x4000, d, 0, 0xFFFFFFFF, false, false, false⟩
    else some ⟨tbPetR, d / 64, d % 64, 0x6000, d, 0, 0, false, false, false⟩
  else if p = pgKey && decide (o < 8192) then some ⟨tbKeyV, o / 32, o % 32 / 4, 0x4000, o / 32, o % 32 / 4, 0, false, false, false⟩
  else if p = pgCon && decide (o < 0x2000) then
    let d := o % 0x1000 / 4
    if off < 0x5000 then some ⟨tbConI, d / 64, d % 64, 0x4000, d, 0, 0xFFFFFFFF, false, false, false⟩
    else some ⟨tbConO, d / 64, d % 64, 0x5000, d, 0, 0, false, false, false⟩
  else none

/-- The window words that the partition computes (R430). -/
def mshWinRo (r : WinRef) (s : State) : Option Word :=
  if r.tab = tbPetR then some (byteWord s.msh.petResp (r.idx * 64 + r.word))
  else if r.tab = tbConO then some (byteWord s.msh.con.output (r.idx * 64 + r.word))
  else if r.tab = tbKeyV then
    let k := keySlot r.idx s
    some (w32 (match r.word with
      | 0 => b2n k.valid + b2n (k.key.length == 32) * 2 + k.uses * 4
      | 1 => k.keyid
      | 2 => k.ivFixed
      | 3 => k.ivFixed / 2 ^ 32
      | 4 => k.ivCtr
      | 5 => k.lastCounter
      | 6 => k.lastCounter / 2 ^ 32
      | _ => k.loads))
  else none

/-- The words of the console that only its holder sees while it is held (R433). -/
def conHidden (p off o : Nat) (s : State) : Bool :=
  p == pgCon && conForeign o s && ((decide (0x4000 ≤ off) && decide (off < 0x6000)) || (decide (0x110 ≤ off) && decide (off ≤ 0x118)) ||
    (decide (0x130 ≤ off) && decide (off ≤ 0x13C)))

/-- A soft reset of page 0x021 acts as a reset of the mailbox's owner, one of page 0x024 releases the console (R414). -/
def mshSoftReset (p : Nat) (s : State) : State :=
  if p = pgPet then (match s.msh.petOwner with
    | some o => petReset o s
    | none => s)
  else if p = pgCon then (if s.msh.con.owner = none then conZero s else conLost s)
  else s

end Sys2Proof.Machine
end

