-- ==== Sys2Proof/Machine/Hif.lean ====
section
/-! DEFINITION. The host interface: doorbells, DMA queue pairs, mailboxes, dirty logging, function resets and the windows of pages 0x018-0x01B (R445-R465). -/
namespace Sys2Proof.Machine

def pgHif : Nat := 0x018
def tbFn : Nat := 85
def tbQp : Nat := 86
def tbMbx : Nat := 87
def tbMbxC : Nat := 88
def tbGrant : Nat := 89

def setHif (f : Hif → Hif) (s : State) : State := { s with hif := f s.hif }
def qp (u : Nat) (s : State) : Qp := look {} s.hif.qp u
def setQp (u : Nat) (f : Qp → Qp) (s : State) : State := setHif (fun h => { h with qp := put {} h.qp u (f (qp u s)) }) s
def mbx (k : Nat) (s : State) : Mbx := look {} s.hif.mbx k
def setMbx (k : Nat) (f : Mbx → Mbx) (s : State) : State := setHif (fun h => { h with mbx := put {} h.mbx k (f (mbx k s)) }) s
def fnSt (f : Nat) (s : State) : FnSt := look {} s.hif.fn f
def setFn (f : Nat) (g : FnSt → FnSt) (s : State) : State := setHif (fun h => { h with fn := put {} h.fn f (g (fnSt f s)) }) s

/-- The page number that stands for the header of VF v's view. -/
def viewPage (v : Nat) : Nat := 0x1000 + v

/-- An event of the host interface (R465). -/
def hifEv (f num n : Nat) (s : State) : State :=
  let s := ev pgHif num n s
  if f = 0 then s else ev (viewPage f) num n s

/-- The PF side (R447). -/
def pfSide (o : Nat) : Bool := o == 0x00 || (decide (0x40 ≤ o) && decide (o ≤ 0x43))

/-- VF v is enabled. -/
def vfOn (v : Nat) (s : State) : Bool := s.hif.vfEnable && decide (1 ≤ v) && decide (v ≤ s.hif.numVfs)

/-- A VF_EVENTS bit is set, with its message (R448, R463). -/
def vfEvent (v bit : Nat) (s : State) : State :=
  irqAfter (msiSend v 9) (setHif (fun h => { h with vfEvents := put 0 h.vfEvents v (look 0 h.vfEvents v ||| 2 ^ bit) }) s)

/-! ## Writes to host memory and the dirty bitmaps (R461, R462) -/

def hostPut (f addr : Nat) (b : Bytes) (s : State) : State := setHif (fun h => { h with out := h.out ++ [⟨f, addr, b⟩] }) s

/-- A 64-bit address in two words of an entry. -/
def addr64 (tab i w : Nat) (s : State) : Nat := (tw tab i (w + 1) s).toNat * 2 ^ 32 + (tw tab i w s).toNat

/-- A cached bitmap word leaves the cache. -/
def dirtyOut (d : DirtyWord) (s : State) : State := hifEv d.f 0x010F 1 (hostPut d.f d.addr (toLE 8 d.bits) s)

/-- One page that the device has written for function f is marked (R461). `reads` is what host memory returns on a cache
miss: a word, or nothing for a read error. The oldest word leaves a full cache (log entry 55). -/
def dirtyMark (f page : Nat) (r : List (Option Nat) × State) : List (Option Nat) × State :=
  let (reads, s) := r
  if !tb tbFn f 0 2 s then (reads, s)
  else if (tw tbFn f 8 s).toNat ≤ page then (reads, setFn f (fun x => { x with overrun := true }) s)
  else
    let base := addr64 tbFn f (if (fnSt f s).curB then 6 else 4) s / 4096 * 4096
    let a := base + page / 64 * 8
    let bit := 2 ^ (page % 64)
    if s.hif.cache.any (fun d => d.f == f && d.addr == a) then
      (reads, setHif (fun h => { h with
        cache := h.cache.map (fun d => if d.f == f && d.addr == a then { d with bits := d.bits ||| bit } else d) }) s)
    else
      let s := hifEv f 0x010E 1 s
      match reads.headD (some 0) with
      | none => (reads.drop 1, setFn f (fun x => { x with err := true }) (tfput tbFn f 0 2 1 0 s))
      | some v =>
        let s := if s.hif.cache.length < 1024 then s
          else match s.hif.cache with
            | d :: rest => dirtyOut d (setHif (fun h => { h with cache := rest }) s)
            | [] => s
        (reads.drop 1, setHif (fun h => { h with cache := h.cache ++ [⟨f, a, v % 2 ^ 64 ||| bit⟩] }) s)

/-- A memory write with function f's requester ID. -/
def hostWrite (f addr : Nat) (b : Bytes) (r : List (Option Nat) × State) : List (Option Nat) × State :=
  if b.isEmpty then r
  else
    let last := (addr + b.length - 1) / 4096
    (upto (addr / 4096) (last - addr / 4096 + 1)).foldl (fun a p => dirtyMark f p a) (r.1, hostPut f addr b r.2)

/-- HIF_DIRTY_CMD with SWAP for function f (R462). -/
def dirtySwap (f : Nat) (s : State) : State :=
  let out := s.hif.cache.filter (fun d => d.f == f)
  let s := setHif (fun h => { h with cache := h.cache.filter (fun d => d.f != f) }) s
  setFn f (fun x => { x with curB := !x.curB, busy := true }) (out.foldl (fun a d => dirtyOut d a) s)

/-- SWAP_COMPLETE of function f. -/
def swapComplete (f : Nat) (s : State) : State :=
  if (fnSt f s).busy then raise pgHif 14 (setFn f (fun x => { x with busy := false }) s) else s

def execSwapComplete (t f : Nat) (s : State) : Res := onLive (fun s => swapComplete f (advance t s)) s

/-! ## Queue pairs (R451-R455, R460, R463) -/

def rxEn (u : Nat) (s : State) : Bool := tb tbQp u 0 0 s
def txEn (u : Nat) (s : State) : Bool := tb tbQp u 0 1 s
def rxSize (u : Nat) (s : State) : Nat := 2 ^ tf tbQp u 0 4 4 s
def txSize (u : Nat) (s : State) : Nat := 2 ^ tf tbQp u 0 8 4 s

/-- The device may fetch descriptors of pair u: its page is enabled, the pair is not in ERROR, its function is neither
stopped nor in reset, and the link is up. -/
def pairFetches (u : Nat) (s : State) : Bool :=
  let f := u / 8
  decide (u < 512) && rb pgHif 0x008 0 s && s.hif.active && !(qp u s).err && !tb tbFn f 0 3 s && !has s.hif.flr f &&
  (f == 0 || vfOn f s)

/-- A pair's vector (R463). -/
def pairVec (u : Nat) (s : State) : Nat := if u < 8 then tf tbQp u 0 12 11 s else u % 8

/-- The pair's interval has passed since its last message. -/
def itrOver (u : Nat) (s : State) : Bool :=
  match (qp u s).lastMsg with
  | none => true
  | some t => decide (t + tf tbQp u 0 23 8 s * 1000 * 2 ^ 32 ≤ s.tim.up)

/-- A cause on a pair's vector: a message now, or its PBA bit until the interval ends (R463). -/
def pairMsg (u : Nat) (s : State) : State :=
  if itrOver u s then setQp u (fun x => { x with lastMsg := some s.tim.up, pend := false }) (irqAfter (msiSend (u / 8) (pairVec u s)) s)
  else setQp u (fun x => { x with pend := true }) s

/-- ITR_EXPIRY of pair u. -/
def itrExpiry (u : Nat) (s : State) : State := if (qp u s).pend && itrOver u s then pairMsg u s else s

def execItrExpiry (t u : Nat) (s : State) : Res := onLive (fun s => itrExpiry u (advance t s)) s

/-- An AER advisory non-fatal message of function f (R460). -/
def aerSend (f : Nat) (s : State) : State := setHif (fun h => { h with aer := put 0 h.aer f (look 0 h.aer f + 1) }) s

/-- Pair u enters ERROR (R460). -/
def pairError (u cause : Nat) (s : State) : State :=
  let f := u / 8
  let s := setQp u (fun x => { x with err := true, cause := cause }) s
  let s := setHif (fun h => { h with errLast := u + cause * 65536 + 2 ^ 31 }) s
  if f = 0 then raise pgHif 12 s else vfEvent f 2 s

/-- A poisoned TLP on BAR0 or BAR4 of function f is discarded and reported (R460). -/
def poisoned (f : Nat) (s : State) : State :=
  let s := aerSend f (hifEv f 0x010B 1 s)
  if f = 0 then raise pgHif 12 s else vfEvent f 2 s

/-- A DOORBELL write of function f at BAR4 offset `off` (R452). -/
def doorbell (f off : Nat) (v : Word) (whole bad : Bool) (s : State) : State :=
  if bad then poisoned f s
  else
    let u := 8 * f + off / 16
    let tx := off % 16 == 4
    let on := if tx then txEn u s else rxEn u s
    let size := if tx then txSize u s else rxSize u s
    if 63 < f || 128 ≤ off || (off % 16 != 0 && !tx) || !whole || size ≤ v.toNat || !on || (f != 0 && !vfOn f s) then
      hifEv f 0x0109 1 s
    else setQp u (fun x => if tx then { x with txTail := v.toNat } else { x with rxTail := v.toNat }) s

def execDoorbell (t f off : Nat) (v : Word) (whole bad : Bool) (s : State) : Res :=
  onLive (fun s => doorbell f off v whole bad (advance t s)) s

/-- RX_DMA of pair u: the head of its punt queue goes to the receive descriptor that `desc` holds (R453). -/
def rxDma (u : Nat) (desc : List Word) (reads : List (Option Nat)) (s : State) : State :=
  let x := qp u s
  let q := puntQ u
  let w (i : Nat) : Nat := (desc.getD i 0).toNat
  if !pairFetches u s || !rxEn u s || x.rxHead = x.rxTail || (queue q s).isEmpty || (arcOn s && q == ackQueue s) then s
  else if w 2 % 64 != 0 || w 2 < 64 || 16384 < w 2 then pairError u 4 s
  else
    let cls := ((queue q s).head?.bind (fun e => find? s.bas.frames e.id)).map (·.cls)
    match dequeue q s with
    | none => s
    | some (id, e, s) =>
      let f := frm id s
      let fn := u / 8
      let n := f.bytes.length
      let trunc := decide (w 2 < n)
      let data := f.bytes.take (w 2)
      let w3 := n % 16384 + b2n trunc * 2 ^ 14 + f.src % 512 * 2 ^ 15 + (cls.getD 0) % 16 * 2 ^ 24 + 2 ^ 31
      let wb := [w3, (stampA f.stamp).toNat, (stampB f.stamp).toNat, (stampC f.stamp).toNat, e.why].flatMap (toLE 4)
      let at_ := addr64 tbQp u 1 s + 32 * x.rxHead + 12
      let (_, s) := hostWrite fn at_ wb (hostWrite fn (w 1 * 2 ^ 32 + w 0) data (reads, dropFrm id s))
      let s := setQp u (fun y => { y with rxHead := (y.rxHead + 1) % rxSize u s }) s
      let s := hifEv fn 0x0101 data.length (hifEv fn 0x0100 1 s)
      pairMsg u (if trunc then hifEv fn 0x0102 1 s else s)

def execRxDma (t u : Nat) (desc : List Word) (reads : List (Option Nat)) (s : State) : Res :=
  onLive (fun s => rxDma u desc reads (advance t s)) s

/-- A transmit descriptor is written back with its status, and the head moves on (R454). -/
def txBack (u addr status stamp : Nat) (irq : Bool) (r : List (Option Nat) × State) : State :=
  let fn := u / 8
  let wb := [status + 2 ^ 31, (stampA stamp).toNat, (stampB stamp).toNat, (stampC stamp).toNat].flatMap (toLE 4)
  let (_, s) := hostWrite fn (addr + 16) wb r
  let s := setQp u (fun y => { y with txHead := (y.txHead + 1) % txSize u s, tx := none }) s
  let s := hifEv fn 0x0103 1 s
  let s := if status = 0 then s else hifEv fn 0x0105 1 s
  if irq then pairMsg u s else s

/-- Why a transmit descriptor is refused: its STATUS, 0 for none (R454). -/
def txRefusal (u w2 w3 : Nat) (s : State) : Nat :=
  let f := u / 8
  let len := w2 % 16384
  let mode := w2 / 16384 % 4
  let q := w3 % 2 ^ 20
  let base := tf tbFn f 1 0 20 s
  if mode = 0 && f != 0 then 2
  else if mode = 1 && (!tb tbFn f 0 1 s || q < base || base + tf tbFn f 2 0 21 s ≤ q) then 2
  else if mode = 1 && !tb tbBq q 0 0 s then 5
  else if len < 60 || 16379 < len || 2 ≤ mode then 3
  else 0

/-- TX_DMA of pair u: the descriptor and the frame's bytes as host memory holds them (R454). A DIRECT frame is written back
once its berths have been taken or refused. -/
def txDma (u : Nat) (desc : List Word) (data : Bytes) (reads : List (Option Nat)) (s : State) : State :=
  let x := qp u s
  let w (i : Nat) : Nat := (desc.getD i 0).toNat
  if !pairFetches u s || !txEn u s || x.txHead = x.txTail || x.tx.isSome then s
  else
    let fn := u / 8
    let addr := addr64 tbQp u 3 s + 32 * x.txHead
    let stamp := nowStamp s
    let irq := nbit (w 2) 16
    let st := txRefusal u (w 2) (w 3) s
    if st != 0 then txBack u addr st stamp irq (reads, s)
    else
      let len := w 2 % 16384
      let d := data.take len ++ zeros (len - data.length)
      let s := hifEv fn 0x0104 len s
      let id := s.lic.nextFrame
      let s := newFrm { src := 288, bytes := d ++ fcsOf d, stamp := stamp, gen := s.lock.gen } s
      if w 2 / 16384 % 4 = 0 then txBack u addr 0 stamp irq (reads, dispatchable id (lengthCheck id (frm id s).bytes.length s))
      else
        let q := w 3 % 2 ^ 20
        let p := parseOf (frm id s) s
        let desc : BDesc := { req := .host, dest := .queue q, cls := q % 8, src := 288, ect := ectOf p }
        setQp u (fun y => { y with tx := some ⟨id, addr, irq, stamp⟩ }) (setBas (fun b => { b with desc := ins b.desc id desc }) s)

def execTxDma (t u : Nat) (desc : List Word) (data : Bytes) (reads : List (Option Nat)) (s : State) : Res :=
  onLive (fun s => txDma u desc data reads (advance t s)) s

/-- The DIRECT frames whose berths have all been taken, or refused, are written back: OK, or NO_BUFFER (R258, R454). -/
def txSettle (s : State) : State :=
  s.hif.qp.foldl (fun a e =>
    match (qp e.1 a).tx with
    | none => a
    | some t =>
      let lost := a.bas.lost.contains (.host, t.frame)
      let ready := match find? a.bas.desc t.frame with
        | some x => decide ((frm t.frame a).bytes.length ≤ 256 * x.berths.length)
        | none => true
      if lost || ready then
        txBack e.1 t.addr (b2n lost) t.stamp t.irq ([], setBas (fun b => { b with lost := b.lost.filter (fun l => l != (.host, t.frame)) }) a)
      else a) s

def execBerthRequest (t : Nat) (r : Reqr) (id : Nat) (s : State) : Res :=
  onService (fun s => txSettle (berthRequest r id (advance t s))) s

def execBulkAdmit (t id : Nat) (s : State) : Res := onService (fun s => bulkAdmit id (advance t s)) s

/-- DMA_ERROR of pair u: CAUSE 1 or 3; `tx` is the transmit descriptor whose data could not be read, if that was it (R460). -/
def dmaError (u cause : Nat) (tx : Option (List Word)) (s : State) : State :=
  if !decide (u < 512) || !(rxEn u s || txEn u s) || (qp u s).err then s
  else
    let x := qp u s
    let s := aerSend (u / 8) (hifEv (u / 8) 0x010B 1 s)
    let s := match tx with
      | some d =>
        if txEn u s && x.tx.isNone && decide (x.txHead ≠ x.txTail) then
          txBack u (addr64 tbQp u 3 s + 32 * x.txHead) 4 (nowStamp s) (bitOf (d.getD 2 0) 16) ([], s)
        else s
      | none => s
    pairError u cause s

def execDmaError (t u : Nat) (data : Bool) (tx : Option (List Word)) (s : State) : Res :=
  onLive (fun s => dmaError u (if data then 3 else 1) tx (advance t s)) s
def execDmaTimeout (t u : Nat) (tx : Option (List Word)) (s : State) : Res :=
  onLive (fun s => dmaError u 2 tx (advance t s)) s

/-- STOPPED of function f: its outstanding DMA has completed (R462). -/
def fnStopped (f : Nat) (s : State) : State :=
  if tb tbFn f 0 3 s && !(fnSt f s).stopped && (upto (8 * f) 8).all (fun u => (qp u s).tx.isNone) then
    let s := setFn f (fun x => { x with stopped := true }) s
    if f = 0 then s else vfEvent f 3 s
  else s

def execDmaStopped (t f : Nat) (s : State) : Res := onLive (fun s => fnStopped f (advance t s)) s

/-! ## Mailboxes (R456, R457, R459) -/

/-- The party that sends in slot k of VF v. -/
def mbxSender (v k o : Nat) : Bool := if k < 4 then o == v else pfSide o
def mbxReceiver (v k o : Nat) : Bool := if k < 4 then pfSide o else o == v

/-- A buffer write is discarded (R456). -/
def mbxBufRefused (v k o : Nat) (s : State) : Bool := !mbxSender v k o || (mbx (8 * v + k) s).posted

/-- The words of a slot's buffer return to zero. -/
def mbxZero (k : Nat) (s : State) : State :=
  { s with regs := { s.regs with tbl := s.regs.tbl.filter (fun e => e.1 / 64 != tbMbx * 2 ^ 24 + k) } }

/-- A write of slot k's control word by an origin; none when it is discarded (R456). -/
def mbxWrite (v k o : Nat) (w : Word) (s : State) : Option State :=
  let i := 8 * v + k
  let x := mbx i s
  let post := bitOf w 30
  let ack := bitOf w 31
  if !post && !ack then some s
  else if post && ack then none
  else if post then
    if !mbxSender v k o || x.posted || fld w 16 7 = 0 || 64 < fld w 16 7 then none
    else
      let s := hifEv v 0x0106 1 (setMbx i (fun y => { posted := true, rst := false, seq := (y.seq + 1) % 256, len := fld w 16 7 }) s)
      some (if k < 4 then raise pgHif 9 s else irqAfter (msiSend v 8) s)
  else
    if !mbxReceiver v k o || !x.posted || fld w 8 8 != x.seq then none
    else
      let s := hifEv v 0x0107 1 (mbxZero i (setMbx i (fun y => { y with posted := false, len := 0 }) s))
      some (if k < 4 then irqAfter (msiSend v 8) s else setBits 0x01A (0x10C + 4 * (v / 32)) (2 ^ (v % 32)) s)

/-- What a control word reads as. -/
def mbxWord (i : Nat) (s : State) : Word :=
  let x := mbx i s
  w32 (b2n x.posted + b2n x.rst * 4 + x.seq * 256 + x.len * 65536)

/-- A buffer word as an origin reads it: the receiver reads zero from an EMPTY slot. -/
def mbxRead (v k w o : Nat) (s : State) : Word :=
  if mbxReceiver v k o && !(mbx (8 * v + k) s).posted then 0 else tw tbMbx (8 * v + k) w s

/-- A reset discards the slots of VF v (R459). -/
def mbxDiscard (v : Nat) (s : State) : State :=
  (List.range 8).foldl (fun a k =>
    let i := 8 * v + k
    let was := (mbx i a).posted
    let a := mbxZero i (setMbx i (fun y => { y with posted := false, len := 0, rst := y.rst || was }) a)
    if was then raise pgHif 11 (setBits pgHif (0x114 + 4 * (v / 32)) (2 ^ (v % 32)) (hifEv v 0x0108 1 a)) else a) s

/-! ## Function resets (R458) -/

/-- What every reset does to function f: its queue pairs, punt queues, mailbox slots, FTB slot and console lease. -/
def fnReset (f : Nat) (s : State) : State :=
  let us := upto (8 * f) 8
  let s := us.foldl (fun a u => setQp u (fun x => { x with rxHead := 0, txHead := 0, rxTail := 0, txTail := 0, pend := false, tx := none })
    (tfput tbQp u 0 0 2 0 a)) s
  let (n, s) := flushQueues (us.map puntQ) s
  let s := if n = 0 then s else setBas (fun b => { b with flushes := b.flushes ++ [⟨false, n⟩] }) s
  let s := if f = 0 then s else mbxDiscard f s
  let x := ftbSlot f s
  let s := if x.state = 1 then setSlot f { x with state := 0 } s else s
  conReset f s

/-- VF_FLR of VF v (R458). -/
def vfFlr (v : Nat) (s : State) : State :=
  if v = 0 || 63 < v then s
  else
    let s := setHif (fun h => { h with flr := Sys2Proof.Machine.add h.flr v }) (fnReset v (hifEv v 0x010C 1 s))
    raise pgHif 10 (setBits pgHif (0x10C + 4 * (v / 32)) (2 ^ (v % 32)) s)

def execVfFlr (t v : Nat) (s : State) : Res := onLive (fun s => vfFlr v (advance t s)) s

/-- VF_FLR_DONE of VF v: the view answers again, and shows that its slots were discarded (R458, R459). -/
def vfFlrDone (v : Nat) (s : State) : State :=
  if has s.hif.flr v then vfEvent v 0 (setHif (fun h => { h with flr := rem h.flr v }) s) else s

def execVfFlrDone (t v : Nat) (s : State) : Res := onLive (fun s => vfFlrDone v (advance t s)) s

/-- What a PF reset of any kind does to the host interface (R458). -/
def pfReset (s : State) : State :=
  let s := (List.range 64).foldl (fun a f => fnReset f a) s
  let s := (List.range 63).foldl (fun a v => setHif (fun h => { h with
    vfEvents := put 0 h.vfEvents (v + 1) (look 0 h.vfEvents (v + 1) ||| 1) }) a) s
  let s := (List.range 64).foldl (fun a f => tfput tbFn f 0 2 1 0 a) s
  let s := wf 0x002 0x100 0 1 0 s
  petReset 0x00 (setHif (fun h => { h with numVfs := 0, vfEnable := false, pfReset := true, flr := [] }) s)

/-- PF_FLR (R458). -/
def execPfFlr (t : Nat) (s : State) : Res := onLive (fun s => pfReset (hifEv 0 0x010C 1 (advance t s))) s

/-- HOT_RESET: a hot reset or PERST# (R458). -/
def execHotReset (t : Nat) (s : State) : Res := onLive (fun s => pfReset (advance t s)) s

/-- VFs become enabled, and see PF_RESET after a PF reset (R458). -/
def vfsEnable (n : Nat) (s : State) : State :=
  let n := min n 63
  let s := setHif (fun h => { h with numVfs := n, vfEnable := decide (0 < n) }) s
  if s.hif.pfReset && decide (0 < n) then
    (List.range n).foldl (fun a v => vfEvent (v + 1) 1 a) (setHif (fun h => { h with pfReset := false }) s)
  else s

/-- PCIE_LINK_CHANGE: the link enters DL_Active with a speed and a width, and configuration software enables `vfs` VFs; or
it leaves DL_Active, which resets the host interface (R458, R464). -/
def pcieLinkChange (up : Bool) (speed width vfs : Nat) (s : State) : State :=
  let s := raise pgHif 13 s
  if up then vfsEnable vfs (setHif (fun h => { h with active := true, speed := speed % 8, width := width % 16 }) s)
  else pfReset (setHif (fun h => { h with active := false }) s)

def execPcieLinkChange (t : Nat) (up : Bool) (speed width vfs : Nat) (s : State) : Res :=
  onLive (fun s => pcieLinkChange up speed width vfs (advance t s)) s

/-! ## Registers and windows of pages 0x018-0x01B -/

/-- The VF that HIF_MBX_BASE shows (0 acts as 1). -/
def mbxBase (s : State) : Nat := let v := rf 0x01A 0x100 0 6 s; if v = 0 then 1 else v

/-- Bits per VF for a test, low or high word. -/
def vfBits (hi : Bool) (f : Nat → Bool) : Word :=
  w32 ((List.range 32).foldl (fun a i => let v := i + 32 * b2n hi; a + b2n (decide (v ≠ 0) && f v) * 2 ^ i) 0)

def upPosted (v : Nat) (s : State) : Bool := (List.range 4).any (fun k => (mbx (8 * v + k) s).posted)

def hifRo (p off : Nat) (s : State) : Option Word :=
  if p = pgHif then
    (match off with
     | 0x100 => some (w32 (if s.hif.active then s.hif.speed + s.hif.width * 8 + 128 else 0))
     | 0x108 => some (w32 (s.hif.numVfs + b2n s.hif.vfEnable * 64))
     | 0x11C => some (w32 s.hif.errLast)
     | 0x120 => some 0
     | _ => none)
  else if p = 0x01A then
    (match off with
     | 0x104 => some (vfBits false (upPosted · s))
     | 0x108 => some (vfBits true (upPosted · s))
     | _ => none)
  else none

def fnMask (w : Nat) : Nat := [0xF, 0xFFFFF, 0x1FFFFF, 0, 0xFFFFF000, 0xFFFFFFFF, 0xFFFFF000, 0xFFFFFFFF, 0xFFFFFFFF].getD w 0
def qpMask (w : Nat) : Nat := [0x7FFFFFF3, 0xFFFFFFC0, 0xFFFFFFFF, 0xFFFFFFC0, 0xFFFFFFFF].getD w 0
def grantMask (w : Nat) : Nat := [0x7FFF, 0xFFFFFFFF].getD w 0

/-- The queue pair entry that holds a word. -/
def qpRef (u w : Nat) : WinRef := ⟨tbQp, u, w, 0x4000, u, w, qpMask w, false, true, false⟩

/-- The mailbox word at an offset from 0x4000 for VF v: buffers, then control words. -/
def mbxRef (v o : Nat) : Option WinRef :=
  if o < 0x200 then
    let k := o / 64
    some ⟨tbMbx, 8 * v + k, o % 64 / 4, 0x4000 + o / 256 * 256, k % 4, o % 64 / 4, 0xFFFFFFFF, false, false, false⟩
  else if o < 0x220 then
    let k := (o - 0x200) / 4
    some ⟨tbMbxC, 8 * v + k, 0, 0x4200 + k / 4 * 16, k % 4, 0, 0xFFFFFFFF, false, false, false⟩
  else none

def hifWin (p off : Nat) (s : State) : Option WinRef :=
  let o := off - 0x4000
  if off < 0x4000 || 0x8000 ≤ off then none
  else if p = pgHif && decide (o < 4096) then
    some ⟨tbFn, o / 64, o % 64 / 4, 0x4000, o / 64, o % 64 / 4, fnMask (o % 64 / 4), false, true, false⟩
  else if p = 0x019 then some (qpRef (o / 32) (o % 32 / 4))
  else if p = 0x01A then mbxRef (mbxBase s) o
  else if p = 0x01B && decide (o < 8192) then
    some ⟨tbGrant, o / 16, o % 16 / 4, 0x4000, o / 16, o % 16 / 4, grantMask (o % 16 / 4), false, true, false⟩
  else none

/-- The window words that the host interface computes. -/
def hifWinRo (r : WinRef) (o : Nat) (s : State) : Option Word :=
  if r.tab = tbFn then
    let x := fnSt r.idx s
    (match r.word with
     | 0 => if r.idx = 0 then some (tw tbFn 0 0 s ||| 1) else none
     | 9 => some (w32 (b2n x.curB + b2n x.overrun * 2 + b2n x.err * 4 + b2n x.busy * 8 + b2n x.stopped * 16))
     | _ => none)
  else if r.tab = tbQp then
    let x := qp r.idx s
    (match r.word with
     | 0 => some (tw tbQp r.idx 0 s ||| w32 (b2n x.err * 4))
     | 5 => some (w32 (x.rxHead + x.txHead * 65536))
     | 6 => some (w32 (x.rxTail + x.txTail * 65536))
     | 7 => some (w32 x.cause)
     | _ => none)
  else if r.tab = tbMbx then some (mbxRead (r.idx / 8) (r.idx % 8) r.word o s)
  else if r.tab = tbMbxC then some (mbxWord r.idx s)
  else none

/-- A commit of a queue pair entry: the words that take effect, and whether some change was discarded (R451). `new w` is the
value offered for word w. -/
def qpCommit (u : Nat) (new : Nat → Word) (s : State) : (Nat → Word) × Bool :=
  if !(rxEn u s || txEn u s) then (new, false)
  else
    let old (w : Nat) : Word := tw tbQp u w s
    let en := (new 0).toNat % 4 &&& (old 0).toNat % 4
    let w0 := w32 ((new 0).toNat / 4096 * 4096 + (old 0).toNat % 4096 / 4 * 4 + en)
    (fun w => if w = 0 then w0 else old w,
     decide (w0 ≠ new 0) || (List.range 5).any (fun w => decide (w ≠ 0) && decide (new w ≠ old w)))

/-- A commit has been stored: sides whose EN rose start at head 0 and the pair leaves ERROR (R451, R460). -/
def qpCommitted (u : Nat) (old0 : Word) (s : State) : State :=
  let new0 := tw tbQp u 0 s
  let rose (b : Nat) : Bool := bitOf new0 b && !bitOf old0 b
  let s := if fld old0 0 2 = 0 && (rose 0 || rose 1) then setQp u (fun x => { x with err := false, cause := 0 }) s else s
  let s := if rose 0 then setQp u (fun x => { x with rxHead := 0, rxTail := 0 }) s else s
  if rose 1 then setQp u (fun x => { x with txHead := 0, txTail := 0 }) s else s

/-- VF v's view answers: the VF is enabled, W0.EN of its function entry is 1 and no function-level reset is in progress (R458, R465). -/
def viewAnswers (v : Nat) (s : State) : Bool := vfOn v s && tb tbFn v 0 0 s && !has s.hif.flr v

/-- A grant commit is discarded (R449); a page that the variant lacks is reserved (R4). -/
def grantBad (w0 : Word) (o : Nat) (s : State) : Bool :=
  let p := fld w0 2 9
  !pfSide o || !pageLive p s || (decide (0x018 ≤ p) && decide (p ≤ 0x03F)) ||
  (bitOf w0 1 && (fld w0 11 4 < 4 || 7 < fld w0 11 4))

/-- A function entry has been committed: STOPPED clears when STOP does (R462). -/
def fnCommitted (f : Nat) (s : State) : State := if tb tbFn f 0 3 s then s else setFn f (fun x => { x with stopped := false }) s

/-- A write of HIF_DIRTY_CMD is discarded: a swap of that function is under way (R462). -/
def dirtyRefused (v : Word) (s : State) : Bool := bitOf v 31 && (fnSt (fld v 0 6) s).busy

end Sys2Proof.Machine
end

