-- ==== Sys2Proof/Machine/Package.lean ====
section
/-! DEFINITION. The package: the ball that each lane, signal and supply sits on (R499-R503), and the operating ranges of the rails (R504-R506). -/
namespace Sys2Proof.Machine

/-! ## Balls (R499-R503) -/

/-- The letters of a row designator, `I`, `O`, `Q`, `R`, `S`, `X` and `Z` left out. -/
def ballLetters : List String :=
  ["A", "B", "C", "D", "E", "F", "G", "H", "J", "K", "L", "M", "N", "P", "T", "U", "V", "W", "Y"]

/-- The designator of grid row i: 19 letters, then the same behind A, B, C and D (R499). -/
def rowName (i : Nat) : String :=
  ["", "A", "B", "C", "D"].getD ((i - 1) / 19) "" ++ ballLetters.getD ((i - 1) % 19) ""

def ballName (b : Nat × Nat) : String := rowName b.1 ++ toString b.2

/-- The serial lanes that have a cell of balls (R500). -/
inductive PinLane where
  | network (n : Nat) | fabric (f : Nat) | baton (b : Nat) | pcie (p : Nat) | towpath (t : Nat)
  deriving DecidableEq, Repr

/-- The TX row and the P column of a lane's cell; RX is one row below, N and ground follow the P column (R500). -/
def PinLane.cell : PinLane → Nat × Nat
  | .network n => (2 * (n / 8) + 1, 3 * (n % 8) + 1)
  | .fabric f => (2 * (f / 8) + 1, 3 * (f % 8) + 61)
  | .baton b => (65, 3 * b + 61)
  | .pcie p => (67, 3 * p + 61)
  | .towpath t => (65, 3 * t + 1)

/-- A lane that the package leaves unconnected: N-lanes and F-lanes 128-255 on the XE5120-H (R501). -/
def PinLane.open_ (h : Bool) : PinLane → Bool
  | .network n => h && decide (128 ≤ n)
  | .fabric f => h && decide (128 ≤ f)
  | _ => false

/-- What a ball carries. -/
inductive Ball where
  | lane (l : PinLane) (rx neg : Bool)
  | unconnected
  | signal (name : String)
  | ground
  | supply (r : Rail)
  deriving DecidableEq, Repr

/-- The miscellaneous signals of rows DA (77), DB (78) and DC (79), by column (R503). -/
def miscSignals : List (Nat × List (Nat × String)) :=
  [(77, [(25, "DEV_RST_N"), (27, "DEV_PG"), (29, "BOOT_MODE0"), (31, "BOOT_MODE1"), (33, "BOOT_DIAG0"), (35, "BOOT_DIAG1"),
      (37, "BOOT_DIAG2"), (39, "BOOT_DIAG3"), (41, "THERM_TRIP_N"), (43, "PAIR_BEAT_O"), (45, "PAIR_BEAT_I"), (47, "PAIR_MATE_PG"),
      (49, "JTAG_TCK"), (51, "JTAG_TMS"), (53, "JTAG_TDI"), (55, "JTAG_TDO"), (57, "JTAG_TRST_N"), (59, "MSH_CLK_IN")]),
   (78, [(25, "CORE_REFCLK_P"), (26, "CORE_REFCLK_N"), (28, "PCIE_REFCLK_P"), (29, "PCIE_REFCLK_N"), (31, "TIM_OSC_P"), (32, "TIM_OSC_N"),
      (34, "TIM_SYNCE_P"), (35, "TIM_SYNCE_N"), (37, "TIM_RCLKA_P"), (38, "TIM_RCLKA_N"), (40, "TIM_RCLKB_P"), (41, "TIM_RCLKB_N"),
      (43, "TIM_10M_IN"), (45, "TIM_10M_OUT"), (47, "TIM_PPS_IN"), (49, "TIM_PPS_OUT"), (51, "PCIE_PERST_N")]),
   (79, [(25, "FLASH_CK"), (27, "FLASH_CS_N"), (29, "FLASH_DQS"), (31, "FLASH_RST_N"), (33, "FLASH_DQ0"), (35, "FLASH_DQ1"),
      (37, "FLASH_DQ2"), (39, "FLASH_DQ3"), (41, "FLASH_DQ4"), (43, "FLASH_DQ5"), (45, "FLASH_DQ6"), (47, "FLASH_DQ7"),
      (49, "TDIODE_FE_P"), (50, "TDIODE_FE_N"), (52, "TDIODE_TM_P"), (53, "TDIODE_TM_N")])]

/-- The lane whose cell holds a ball (R500). -/
def laneAt (i j : Nat) : Option PinLane :=
  if i ≤ 64 then (if j ≤ 24 then some (.network ((i - 1) / 2 * 8 + (j - 1) / 3))
    else if 61 ≤ j then some (.fabric ((i - 1) / 2 * 8 + (j - 61) / 3)) else none)
  else if i ≤ 66 then (if j ≤ 6 then some (.towpath ((j - 1) / 3)) else if 61 ≤ j then some (.baton ((j - 61) / 3)) else none)
  else if i ≤ 68 then (if 61 ≤ j then some (.pcie ((j - 61) / 3)) else none)
  else none

/-- The supply of the region that a ball lies in (R502). -/
def regionRail (i j : Nat) : Option Rail :=
  let within (lo hi : Nat) : Bool := decide (lo ≤ j) && decide (j ≤ hi)
  if 77 ≤ i then
    (if within 1 24 then some .hbmVddq else if within 61 64 then some .hbmVpp else if within 65 84 then some .hbmVddc else none)
  else if within 31 41 then some .vddFe
  else if within 42 43 then some .vddD2d
  else if within 44 54 then some .vddTm
  else if i ≤ 64 then
    (if within 25 27 then some .vddNl else if within 28 30 then some .vddhNl else if within 55 58 then some .vddFl
     else if within 59 60 then some .vddhFl else none)
  else if within 55 60 then some .vddHphy
  else if i ≤ 68 then (if within 1 24 then some .vddMsh else if within 25 30 then some .vddAux else none)
  else if within 1 30 || within 73 80 then some .hbmVddc
  else if within 61 72 then some .hbmVddq
  else if within 81 84 then some .hbmVpp
  else none

/-- What ball (i, j) carries, on the XE5120-H or the XE5120-F (R500-R503). -/
def ballAt (h : Bool) (i j : Nat) : Ball :=
  match laneAt i j with
  | some l =>
    let (tx, p) := l.cell
    if j = p + 2 then .ground else if l.open_ h then .unconnected else .lane l (i != tx) (j != p)
  | none => match ((miscSignals.find? (fun r => r.1 == i)).bind (fun r => r.2.find? (fun c => c.1 == j))) with
    | some c => .signal c.2
    | none => if (i + j) % 2 = 0 then .ground else (match regionRail i j with
      | some r => .supply r
      | none => .ground)

/-! ## Rails (R504-R506) -/

/-- Nominal voltage in mV. -/
def railNominal : Rail → Nat
  | .vddFe | .vddMsh | .vddTm | .vddNl | .vddFl | .vddD2d | .vddHphy => 750
  | .vddhNl | .vddhFl => 1200
  | .hbmVddc => 1100
  | .hbmVddq => 400
  | .hbmVpp | .vddAux => 1800

/-- The operating range at the balls, in mV (R504). -/
def railRange (r : Rail) : Nat × Nat :=
  match railNominal r with
  | 750 => (731, 769)
  | 1200 => (1164, 1236)
  | 1100 => (1067, 1133)
  | 400 => (388, 412)
  | _ => (1746, 1854)

/-- The operating minimum in microvolts (R507). -/
def railMinUv (r : Rail) : Nat := (railRange r).1 * 1000

/-- The highest voltage that a rail may ever have, in mV; the lowest is -300 mV (R505). -/
def railLimit (r : Rail) : Nat :=
  match railNominal r with
  | 750 => 900
  | 1200 => 1400
  | 1100 => 1300
  | 400 => 550
  | _ => 2100

/-- The step of power-up in which a rail ramps (R506). -/
def railStep : Rail → Nat
  | .vddAux => 1
  | .vddMsh => 2
  | .vddFe | .vddTm | .vddNl | .vddFl | .vddD2d | .vddHphy => 3
  | .vddhNl | .vddhFl | .hbmVpp => 4
  | .hbmVddc => 5
  | .hbmVddq => 6

end Sys2Proof.Machine
end

