-- ==== Sys2Proof/Machine/Sign.lean ====
section
/-! DEFINITION. SHA-384 and ECDSA on P-384, as the firmware manifest and the signature verifier use them (R485, R486). -/
namespace Sys2Proof.Machine

/-! ## SHA-384 (FIPS 180-4) -/

/-- Round constants 0 to 15. -/
def shaK0 : List Nat :=
  [ 0x428a2f98d728ae22, 0x7137449123ef65cd, 0xb5c0fbcfec4d3b2f, 0xe9b5dba58189dbbc,
    0x3956c25bf348b538, 0x59f111f1b605d019, 0x923f82a4af194f9b, 0xab1c5ed5da6d8118,
    0xd807aa98a3030242, 0x12835b0145706fbe, 0x243185be4ee4b28c, 0x550c7dc3d5ffb4e2,
    0x72be5d74f27b896f, 0x80deb1fe3b1696b1, 0x9bdc06a725c71235, 0xc19bf174cf692694 ]

/-- Round constants 16 to 31. -/
def shaK1 : List Nat :=
  [ 0xe49b69c19ef14ad2, 0xefbe4786384f25e3, 0x0fc19dc68b8cd5b5, 0x240ca1cc77ac9c65,
    0x2de92c6f592b0275, 0x4a7484aa6ea6e483, 0x5cb0a9dcbd41fbd4, 0x76f988da831153b5,
    0x983e5152ee66dfab, 0xa831c66d2db43210, 0xb00327c898fb213f, 0xbf597fc7beef0ee4,
    0xc6e00bf33da88fc2, 0xd5a79147930aa725, 0x06ca6351e003826f, 0x142929670a0e6e70 ]

/-- Round constants 32 to 47. -/
def shaK2 : List Nat :=
  [ 0x27b70a8546d22ffc, 0x2e1b21385c26c926, 0x4d2c6dfc5ac42aed, 0x53380d139d95b3df,
    0x650a73548baf63de, 0x766a0abb3c77b2a8, 0x81c2c92e47edaee6, 0x92722c851482353b,
    0xa2bfe8a14cf10364, 0xa81a664bbc423001, 0xc24b8b70d0f89791, 0xc76c51a30654be30,
    0xd192e819d6ef5218, 0xd69906245565a910, 0xf40e35855771202a, 0x106aa07032bbd1b8 ]

/-- Round constants 48 to 63. -/
def shaK3 : List Nat :=
  [ 0x19a4c116b8d2d0c8, 0x1e376c085141ab53, 0x2748774cdf8eeb99, 0x34b0bcb5e19b48a8,
    0x391c0cb3c5c95a63, 0x4ed8aa4ae3418acb, 0x5b9cca4f7763e373, 0x682e6ff3d6b2b8a3,
    0x748f82ee5defb2fc, 0x78a5636f43172f60, 0x84c87814a1f0ab72, 0x8cc702081a6439ec,
    0x90befffa23631e28, 0xa4506cebde82bde9, 0xbef9a3f7b2c67915, 0xc67178f2e372532b ]

/-- Round constants 64 to 79. -/
def shaK4 : List Nat :=
  [ 0xca273eceea26619c, 0xd186b8c721c0c207, 0xeada7dd6cde0eb1e, 0xf57d4f7fee6ed178,
    0x06f067aa72176fba, 0x0a637dc5a2c898a6, 0x113f9804bef90dae, 0x1b710b35131c471b,
    0x28db77f523047d84, 0x32caab7b40c72493, 0x3c9ebe0a15c9bebc, 0x431d67c49c100d4c,
    0x4cc5d4becb3e42b6, 0x597f299cfc657e2a, 0x5fcb6fab3ad6faec, 0x6c44198c4a475817 ]

/-- The round constants. -/
def shaK : List Nat := shaK0 ++ shaK1 ++ shaK2 ++ shaK3 ++ shaK4

/-- The initial hash value of SHA-384. -/
def sha384H : List Nat :=
  [ 0xcbbb9d5dc1059ed8, 0x629a292a367cd507, 0x9159015a3070dd17, 0x152fecd8f70e5939,
    0x67332667ffc00b31, 0x8eb44a8768581511, 0xdb0c2e0d64f98fa7, 0x47b5481dbefa4fa4 ]

/-- Rotation of a 64-bit word to the right. -/
def ror64 (x n : Nat) : Nat := x / 2 ^ n + x % 2 ^ n * 2 ^ (64 - n)

def shaSmall0 (x : Nat) : Nat := ror64 x 1 ^^^ ror64 x 8 ^^^ (x / 2 ^ 7)
def shaSmall1 (x : Nat) : Nat := ror64 x 19 ^^^ ror64 x 61 ^^^ (x / 2 ^ 6)
def shaBig0 (x : Nat) : Nat := ror64 x 28 ^^^ ror64 x 34 ^^^ ror64 x 39
def shaBig1 (x : Nat) : Nat := ror64 x 14 ^^^ ror64 x 18 ^^^ ror64 x 41

/-- The message schedule, newest word first: `n` words more. -/
def shaSched : Nat → List Nat → List Nat
  | 0, w => w
  | n + 1, w =>
    shaSched n ((shaSmall1 (w.getD 1 0) + w.getD 6 0 + shaSmall0 (w.getD 14 0) + w.getD 15 0) % 2 ^ 64 :: w)

/-- The working variables of a round. -/
structure ShaVars where
  a : Nat
  b : Nat
  c : Nat
  d : Nat
  e : Nat
  f : Nat
  g : Nat
  h : Nat
  deriving DecidableEq, Repr

/-- One round with its constant and its schedule word. -/
def shaRound (v : ShaVars) (kw : Nat × Nat) : ShaVars :=
  let ch := (v.e &&& v.f) ^^^ ((2 ^ 64 - 1 - v.e) &&& v.g)
  let maj := (v.a &&& v.b) ^^^ (v.a &&& v.c) ^^^ (v.b &&& v.c)
  let t1 := v.h + shaBig1 v.e + ch + kw.1 + kw.2
  let t2 := shaBig0 v.a + maj
  ⟨(t1 + t2) % 2 ^ 64, v.a, v.b, v.c, (v.d + t1) % 2 ^ 64, v.e, v.f, v.g⟩

/-- One block of sixteen words into the hash value. -/
def shaBlock (h w : List Nat) : List Nat :=
  let g (i : Nat) : Nat := h.getD i 0
  let ws := (shaSched 64 w.reverse).reverse
  let v := (shaK.zip ws).foldl shaRound ⟨g 0, g 1, g 2, g 3, g 4, g 5, g 6, g 7⟩
  [g 0 + v.a, g 1 + v.b, g 2 + v.c, g 3 + v.d, g 4 + v.e, g 5 + v.f, g 6 + v.g, g 7 + v.h].map (· % 2 ^ 64)

/-- The message padded to whole blocks. -/
def shaPad (m : List Nat) : List Nat :=
  let n := m.length
  m ++ [0x80] ++ List.replicate ((239 - n % 128) % 128) 0 ++ natBytes 16 (8 * n)

/-- Words of eight bytes, most significant byte first. -/
def shaWords : Nat → List Nat → List Nat
  | 0, _ => []
  | n + 1, l => bytesNat (l.take 8) :: shaWords n (l.drop 8)

/-- The blocks of a padded message into the hash value. -/
def shaBlocks : Nat → List Nat → List Nat → List Nat
  | 0, h, _ => h
  | n + 1, h, l => if l.isEmpty then h else shaBlocks n (shaBlock h (shaWords 16 (l.take 128))) (l.drop 128)

/-- SHA-384 of a byte sequence, as a number of 384 bits. -/
def sha384 (m : List Nat) : Nat :=
  ((shaBlocks (m.length / 128 + 2) sha384H (shaPad m)).take 6).foldl (fun a x => a * 2 ^ 64 + x) 0

/-! ## P-384 (FIPS 186-4), points in Jacobian coordinates -/

/-- The field modulus. -/
def p384 : Nat := 2 ^ 384 - 2 ^ 128 - 2 ^ 96 + 2 ^ 32 - 1
/-- The group order. -/
def n384 : Nat := 0xffffffffffffffffffffffffffffffffffffffffffffffffc7634d81f4372ddf581a0db248b0a77aecec196accc52973
/-- The coefficient b; a is -3. -/
def b384 : Nat := 0xb3312fa7e23ee7e4988e056be3f82d19181d9c6efe8141120314088f5013875ac656398d8a2ed19d2a85c8edd3ec2aef
/-- The base point. -/
def gx384 : Nat := 0xaa87ca22be8b05378eb1c71ef320ad746e1d3b628ba79b9859f741e082542a385502f25dbf55296c3a545e3872760ab7
def gy384 : Nat := 0x3617de4a96262c6f5d9e98bf9292dc29f8f41dbd289a147ce9da3113b5f0b8c00a60b1ce1d7e819d7a431d7c90ea0e5f

def fAdd (a b : Nat) : Nat := (a + b) % p384
def fSub (a b : Nat) : Nat := (a + p384 - b % p384) % p384
def fMul (a b : Nat) : Nat := a * b % p384

/-- A power modulo `m`: the low `k` bits of the exponent. -/
def powMod (m : Nat) : Nat → Nat → Nat → Nat
  | 0, _, _ => 1 % m
  | k + 1, x, e =>
    let r := powMod m k (x * x % m) (e / 2)
    if e % 2 = 1 then r * x % m else r

/-- The inverse modulo a prime. -/
def invMod (m x : Nat) : Nat := powMod m 384 (x % m) (m - 2)

/-- A point; Z = 0 is the point at infinity. -/
structure JPoint where
  x : Nat
  y : Nat
  z : Nat
  deriving DecidableEq, Repr

def jInf : JPoint := ⟨1, 1, 0⟩

/-- Twice a point. -/
def jDouble (p : JPoint) : JPoint :=
  if p.z = 0 || p.y = 0 then jInf
  else
    let d := fMul p.z p.z
    let g := fMul p.y p.y
    let b := fMul p.x g
    let al := fMul 3 (fMul (fSub p.x d) (fAdd p.x d))
    let x := fSub (fMul al al) (fMul 8 b)
    let yz := fAdd p.y p.z
    let z := fSub (fSub (fMul yz yz) g) d
    ⟨x, fSub (fMul al (fSub (fMul 4 b) x)) (fMul 8 (fMul g g)), z⟩

/-- The sum of two points. -/
def jAdd (p q : JPoint) : JPoint :=
  if p.z = 0 then q else if q.z = 0 then p
  else
    let z1 := fMul p.z p.z
    let z2 := fMul q.z q.z
    let u1 := fMul p.x z2
    let u2 := fMul q.x z1
    let s1 := fMul p.y (fMul q.z z2)
    let s2 := fMul q.y (fMul p.z z1)
    if u1 = u2 then (if s1 = s2 then jDouble p else jInf)
    else
      let h := fSub u2 u1
      let r := fSub s2 s1
      let h2 := fMul h h
      let h3 := fMul h h2
      let v := fMul u1 h2
      let x := fSub (fSub (fMul r r) h3) (fMul 2 v)
      ⟨x, fSub (fMul r (fSub v x)) (fMul s1 h3), fMul h (fMul p.z q.z)⟩

/-- A multiple of a point, from bit `n - 1` of the factor down. -/
def jMulLoop (k : Nat) (p : JPoint) : Nat → JPoint → JPoint
  | 0, a => a
  | n + 1, a =>
    let a := jDouble a
    jMulLoop k p n (if k / 2 ^ n % 2 = 1 then jAdd a p else a)

def jMul (k : Nat) (p : JPoint) : JPoint := jMulLoop k p 384 jInf

/-- The point satisfies the curve equation. -/
def onCurve (x y : Nat) : Bool := fMul y y == fAdd (fSub (fMul (fMul x x) x) (fMul 3 x)) b384

/-- The verification equation of ECDSA on a digest of 384 bits holds. -/
def ecdsaOk (digest qx qy r s : Nat) : Bool :=
  let w := invMod n384 s
  let pt := jAdd (jMul (digest % n384 * w % n384) ⟨gx384, gy384, 1⟩) (jMul (r * w % n384) ⟨qx, qy, 1⟩)
  if pt.z = 0 then false
  else
    let zi := invMod p384 pt.z
    fMul pt.x (fMul zi zi) % n384 == r

/-- The signature verifier: the code of the first check that fails (R485). `root` is the key's slot test where ROOT is set. -/
def pkvCode (root : Option Bool) (digest qx qy r s : Nat) : Nat :=
  if p384 ≤ qx then 5 else if p384 ≤ qy then 6 else if !onCurve qx qy then 7
  else if r = 0 then 1 else if n384 ≤ r then 3 else if s = 0 then 2 else if n384 ≤ s then 4
  else if root == some false then 9
  else if ecdsaOk digest qx qy r s then 0 else 0x0A

end Sys2Proof.Machine
end

