-- ==== Sys2Proof/Machine/Boot.lean ====
section
/-! DEFINITION. Reset, readiness, fuse sensing, bank checks and activation, boot flash, the signature verifier, fuse burns and board-level supervision (R466-R497, R507, R508, R511). -/
namespace Sys2Proof.Machine

def pgFw : Nat := 0x005
def pgFuse : Nat := 0x006
def tbFlash : Nat := 90
def tbPkv : Nat := 91

def setBoot (f : Boot → Boot) (s : State) : State := { s with boot := f s.boot }

/-! ## Reset (R466-R468, R507, R511) -/

/-- Bits of a mask. -/
def bitCount (w : Word) : Nat := ((List.range 32).filter (fun i => bitOf w i)).length

/-- The words that the burn in progress burns, each with its bits (R481). -/
def burnMasks (s : State) : List (Nat × Word) :=
  (if s.boot.fuseReq % 16 = 0 then [] else [(53, w32 (s.boot.fuseReq % 16))]) ++
  (if nbit s.boot.fuseReq 8 then [(54, w32 (2 ^ s.boot.secVer - 1))] else [])

/-- A reset or a power loss cuts a burn off: the copies are burnt one after another, so the first of them are whole, the next has some of
its bits and the others none; how far the burn had come is a free value (R508; DESIGN CHOICE, log entry 256). -/
def burnCut (s : State) : State :=
  if !s.boot.fuseBusy then s
  else
    let (n, s) := drawFree s
    let (part, s) := drawFree s
    let copies := (burnMasks s).flatMap (fun e => (List.range 3).map (fun k => (3 * e.1 + k, e.2)))
    let done := n % (copies.length + 1)
    (copies.zip (List.range copies.length)).foldl (fun a e =>
      let bits := if e.2 < done then e.1.2 else if e.2 = done then e.1.2 &&& w32 part else 0
      { a with fixed := { a.fixed with fuse := put 0 a.fixed.fuse e.1.1 (look 0 a.fixed.fuse e.1.1 ||| bits) } }) s

/-- The device in reset: every page, table, SRAM, log entry and key slot at its reset state; what was burnt or programmed,
the pins, the TAP and the waiting commands stay (R467). -/
def inReset (f : Boot → Boot) (s : State) : State :=
  let s := burnCut s
  { ({} : State) with
    boot := f { rstN := s.boot.rstN, devPg := s.boot.devPg, powerLost := s.boot.powerLost, cause := s.boot.cause, inReset := true, diag := 0 }
    fixed := s.fixed
    jtag := { s.jtag with outOfService := false, pinsFloat := false }
    free := s.free
    pending := s.pending }

/-- DEVICE_RESET: DEV_PG falls, or DEV_RST_N is low (R466). -/
def deviceReset (pg : Bool) (s : State) : State :=
  let was := s.boot.inReset
  let s := if pg then { s with jtag := { s.jtag with thermTrip := false } } else s
  inReset (fun b => if pg then { b with devPg := false, powerLost := true }
    else { b with rstN := false, cause := if was then b.cause else 2 }) s

def execDeviceReset (_t : Nat) (pg : Bool) (s : State) : Res := .next (deviceReset pg s)

/-- A rail below its minimum, or a core PLL without lock, resets the device as a fall of DEV_PG does (R507). -/
def supplyReset (s : State) : State := inReset (fun b => { b with powerLost := true }) s

/-- RAIL_UNDERVOLTAGE: a rail has stayed at a level, in microvolts, for 2 us. -/
def execRailUndervoltage (_t : Nat) (rail : Rail) (uv : Nat) (s : State) : Res :=
  .next (if uv < railMinUv rail then supplyReset s else s)
def execPllLockLoss (_t : Nat) (s : State) : Res := .next (supplyReset s)

/-- A reset by software (cause 3) or by JTAG (cause 4), which releases itself (R468, R515). -/
def selfReset (cause : Nat) (s : State) : State := inReset (fun b => { b with selfHold := true, cause := cause }) s

/-- Reset is released: the RESET record opens the change log, fuse sensing starts, and every present HBM controller trains (R347, R467). -/
def released (mode : Nat) (s : State) : State :=
  let cause := if s.boot.powerLost then 1 else s.boot.cause
  { s with
    mem := { s.mem with ctl := (List.range (memCount s)).map (fun c => (c, { st := 1 })) }
    boot := { rstN := s.boot.rstN, devPg := s.boot.devPg, cause := cause, diag := 1, bootMode := mode % 4 }
    log := resetLog cause }

/-- RESET_RELEASE: DEV_RST_N rises while DEV_PG is high; `mode` is the level on BOOT_MODE (R466). -/
def resetRelease (mode : Nat) (s : State) : State :=
  if s.boot.inReset then released mode { s with boot := { s.boot with rstN := true, devPg := true } } else s

def execResetRelease (_t mode : Nat) (s : State) : Res := .next (resetRelease mode s)

/-- RESET_SELF_RELEASE: 1 ms after a software or JTAG reset (R468). -/
def selfRelease (mode : Nat) (s : State) : State :=
  if !s.boot.inReset || !s.boot.selfHold then s
  else if s.boot.rstN && s.boot.devPg then released mode s
  else setBoot (fun b => { b with selfHold := false }) s

def execResetSelfRelease (_t mode : Nat) (s : State) : Res := .next (selfRelease mode s)

/-- THERM_TRIP_N goes low and stays low until DEV_PG falls (R511). -/
def execThermTrip (t : Nat) (s : State) : Res :=
  onLive (fun s => let s := advance t s; { s with jtag := { s.jtag with thermTrip := true } }) s

/-- A write of CTL_RST_ARM (R468). -/
def rstArm (v : Word) (s : State) : State :=
  setBoot (fun b => { b with armed := if v = 0xA5C3_0F1E then some (s.tim.up + 100000 * 2 ^ 32) else none }) s

/-- The software reset is armed. -/
def rstArmed (s : State) : Bool :=
  match s.boot.armed with
  | some t => decide (s.tim.up ≤ t)
  | none => false

/-- RST_ARM_EXPIRY: 100 us have passed since the arming write. -/
def rstArmExpiry (s : State) : State := if rstArmed s then s else setBoot (fun b => { b with armed := none }) s

def execRstArmExpiry (t : Nat) (s : State) : Res := onLive (fun s => rstArmExpiry (advance t s)) s

/-! ## Fuses (R476-R481) -/

/-- A resolved fuse word. -/
def fuse (w : Nat) (s : State) : Word := look 0 s.boot.resolved w

/-- Class L words (R477). -/
def fuseL (w : Nat) : Bool := w == 0 || w == 53 || w == 54 || w == 55

/-- Resolution of a word from its six reads: value, weak, RESTRICTED, hold (R478). -/
def fuseResolve (w : Nat) (r : List Word) : Word × Bool × Bool × Bool :=
  let v0 := r.headD 0
  if r.all (· == v0) then (v0, false, false, false)
  else match r.find? (fun v => decide (4 ≤ (r.filter (· == v)).length)) with
    | some v => (v, true, false, false)
    | none => if fuseL w then (r.foldl (· ||| ·) 0, true, true, false) else (0, true, false, true)

/-- The six reads of a word: those that `seen` gives, else the three copies at both thresholds. -/
def fuseReads (seen : List (Nat × List Word)) (w : Nat) (s : State) : List Word :=
  match find? seen w with
  | some l => (l ++ List.replicate 6 0).take 6
  | none => let c := (List.range 3).map (fun k => look 0 s.fixed.fuse (3 * w + k)); c ++ c

/-- LIFECYCLE: BLANK 0, TESTED 1, PRODUCTION 2, RETURNED 3, SCRAPPED 4 (R479). -/
def lifecycle (s : State) : Nat :=
  let w := (fuse 0 s).toNat
  if w / 2 ^ 24 != 0 then 4 else if w / 2 ^ 16 != 0 then 3 else if w / 2 ^ 8 != 0 then 2 else if w != 0 then 1 else 0

/-- The fused minimum security version: index of the highest set bit plus 1 (R477). -/
def minVer (s : State) : Nat :=
  ((List.range 32).filter (fun i => bitOf (fuse 54 s) i)).foldl (fun _ i => i + 1) 0

/-- JTAG_LOCK is in force (R479, R480). -/
def jtagLocked (s : State) : Bool := decide (2 ≤ lifecycle s) && bitOf (fuse 55 s) 0

/-- One word of the array is resolved. -/
def senseWord (seen : List (Nat × List Word)) (s : State) (w : Nat) : State :=
  let (v, weak, restr, hold) := fuseResolve w (fuseReads seen w s)
  setBoot (fun b => { b with
    resolved := put 0 b.resolved w v
    weak := if weak then b.weak ++ [w] else b.weak
    restricted := b.restricted || restr
    holdWord := if hold && b.holdWord.isNone then some w else b.holdWord }) s

/-! ## Boot flash and boot control records (R482, R483) -/

/-- Bytes of the boot flash. -/
def flashAt (a n : Nat) (s : State) : Bytes := (List.range n).map (fun i => look 0xFF s.fixed.flash (a + i))

def flashPut (a : Nat) (b : Bytes) (s : State) : State :=
  { s with fixed := { s.fixed with
      flash := (b.zip (List.range b.length)).foldl (fun m e => put 0xFF m (a + e.2) e.1) s.fixed.flash } }

/-- A boot control record. -/
structure BootRec where
  seq : Nat
  preferred : Nat
  try_ : Nat
  left : Nat
  force : Bool
  deriving DecidableEq, Repr

/-- The record in a copy, when it is valid. -/
def recAt (copy : Nat) (s : State) : Option BootRec :=
  let b := flashAt (copy * 65536) 32 s
  if beAt b 0 4 = 0x4E424352 && beAt b 28 4 = crc32c (b.take 28) then
    some ⟨beAt b 4 4, byteAt b 8, byteAt b 9, byteAt b 10, byteAt b 11 % 2 == 1⟩
  else none

/-- The newest valid copy and its record (R483). -/
def newestRec (s : State) : Option (Nat × BootRec) :=
  match recAt 0 s, recAt 1 s with
  | some a, some b => if (b.seq + 2 ^ 32 - a.seq) % 2 ^ 32 < 2 ^ 31 && b.seq != a.seq then some (1, b) else some (0, a)
  | some a, none => some (0, a)
  | none, some b => some (1, b)
  | none, none => none

/-- The record in force; with no valid copy, bank A preferred, no try and no flags. -/
def theRec (s : State) : BootRec := ((newestRec s).map (·.2)).getD ⟨0, 0, 0xFF, 0, false⟩

/-- A new record goes into the other copy with SEQ + 1. -/
def writeRec (f : BootRec → BootRec) (s : State) : State :=
  let r := f (theRec s)
  let copy := match newestRec s with
    | some (c, _) => 1 - c
    | none => 0
  let b := toBE 4 0x4E424352 ++ toBE 4 ((r.seq + 1) % 2 ^ 32) ++ toBE 1 r.preferred ++ toBE 1 r.try_ ++ toBE 1 r.left ++
    toBE 1 (b2n r.force) ++ zeros 16
  ev pgFw 0x0107 1 (flashPut (copy * 65536) (b ++ toBE 4 (crc32c b)) s)

/-- The flash address of a bank. -/
def bankBase (b : Nat) : Nat := if b = 0 then 0x00100000 else 0x01100000

/-! ## The check of a bank (R485-R489, R492, R493) -/

/-- An image entry of the manifest (R487). -/
structure Img where
  type : Nat
  required : Bool
  version : Nat
  off : Nat
  len : Nat
  silMin : Nat
  silMax : Nat
  hash : Nat
  deriving DecidableEq, Repr

/-- The image entries of a manifest. -/
def images (m : Bytes) : List Img :=
  (List.range (beAt m 6 2)).map (fun i =>
    let o := 64 + 80 * i
    ⟨beAt m o 2, beAt m (o + 2) 2 % 2 == 1, beAt m (o + 4) 4, beAt m (o + 8) 4, beAt m (o + 12) 4, beAt m (o + 16) 2,
      beAt m (o + 18) 2, beAt m (o + 32) 48⟩)

/-- An image that is loaded: one of a known type (R487). -/
def Img.loaded (x : Img) : Bool := decide (1 ≤ x.type) && decide (x.type ≤ 4)

/-- Test 2: the manifest's form. -/
def manifestForm (m : Bytes) : Bool :=
  let ni := beAt m 6 2
  let nr := beAt m 8 2
  let total := beAt m 12 4
  beAt m 0 4 == 0x4E4D4631 && beAt m 4 2 == 1 && beAt m 10 2 == 64 && decide (1 ≤ ni) && decide (ni ≤ 16) && decide (nr ≤ 64) &&
  total == 64 + 80 * ni + 12 * nr + 192 && decide (total ≤ 4096)

/-- Root key slots that are not revoked and whose hash is that of the key; word 5 + 12 k is the most significant (log entry
61). -/
def rootSlots (qx qy : Nat) (s : State) : List Nat :=
  let h := sha384 (natBytes 48 qx ++ natBytes 48 qy)
  (List.range 4).filter (fun k => !bitOf (fuse 53 s) k &&
    (List.range 12).foldl (fun a i => a * 2 ^ 32 + (fuse (5 + 12 * k + i) s).toNat) 0 == h)

/-- The signature of a manifest: verifier code, and the root slot. -/
def manifestSig (m : Bytes) (s : State) : Nat × Option Nat :=
  let t := beAt m 12 4
  let qx := beAt m (t - 192) 48
  let qy := beAt m (t - 144) 48
  let slots := rootSlots qx qy s
  (pkvCode (some (!slots.isEmpty)) (sha384 (natsOf (m.take (t - 96)))) qx qy (beAt m (t - 96) 48) (beAt m (t - 48) 48), slots.head?)

/-- Test 8: every requirement entry. -/
def requirementsMet (m : Bytes) (l : List Img) : Bool :=
  let base := 64 + 80 * l.length
  (List.range (beAt m 8 2)).all (fun i =>
    let o := base + 12 * i
    !(l.any (fun x => x.type == beAt m o 2)) ||
    l.any (fun x => x.type == beAt m (o + 2) 2 && decide (beAt m (o + 4) 4 ≤ x.version) && decide (x.version ≤ beAt m (o + 8) 4)))

/-- Test 7: the image types and their occurrences. -/
def typesOk (l : List Img) : Bool :=
  let n (k : Nat) : Nat := (l.filter (fun x => x.type == k)).length
  n 1 == 1 && n 2 == 1 && decide (n 3 ≤ 1) && decide (n 4 ≤ 1) && l.all (fun x => x.loaded || !x.required)

/-- Test 9: places and sizes. -/
def sizesOk (total : Nat) (l : List Img) : Bool :=
  let pad (n : Nat) : Nat := (n + 4095) / 4096 * 4096
  l.all (fun x => x.off % 4096 == 0 && decide (4096 ≤ x.off) && decide (total ≤ x.off) && decide (1 ≤ x.len) &&
    decide (x.len ≤ 16773120) && decide (x.off + x.len ≤ 2 ^ 24)) &&
  (List.range l.length).all (fun i => (List.range i).all (fun j =>
    match l[i]?, l[j]? with
    | some x, some y => decide (x.off + x.len ≤ y.off) || decide (y.off + y.len ≤ x.off)
    | _, _ => true)) &&
  decide (((l.filter Img.loaded).map (fun x => pad x.len)).sum ≤ 2 ^ 24)

/-- The bytes of the first image of a type in a bank. -/
def imageOf (k b : Nat) (l : List Img) (s : State) : Option Bytes :=
  (l.find? (fun x => x.type == k)).map (fun x => flashAt (bankBase b + x.off) x.len s)

/-- The migration of one record, at most `n` steps more: its new offset and value, and the steps taken (R493). -/
def migrate (rules : Bytes) (block : Nat) : Nat → Nat → Nat → Nat → Nat → Option (Nat × Nat)
  | n, layout, off, v, pg =>
    if layout = pg || off = 0xFFFF then some (off, v)
    else match n with
      | 0 => none
      | n + 1 =>
        match (List.range (beAt rules 4 4)).find? (fun i =>
          let o := 16 + 16 * i
          byteAt rules o == block && beAt rules (o + 2) 2 % 4096 == layout && beAt rules (o + 8) 2 == off) with
        | none => none
        | some i =>
          let o := 16 + 16 * i
          migrate rules block n (beAt rules (o + 4) 2 % 4096) (beAt rules (o + 10) 2) (v &&& beAt rules (o + 12) 4) pg

/-- LAYOUT of every page on this silicon (R32). -/
def pageLayout : Nat := 1

/-- The start-up records of a configuration after migration, and how many were migrated; none when it is refused (R492). -/
def startupOf (fmt : Nat) (cfg rules : Bytes) (s : State) : Option (List StartRec × Nat) :=
  let n := beAt cfg 6 4
  let rulesOk := beAt rules 0 4 == 0x4E4D4731
  if beAt cfg 0 4 != 0x4E534331 || beAt cfg 4 2 != fmt || fmt != 1 || cfg.length < 16 + 12 * n then none
  else
    let one (a : Option (List StartRec × Nat)) (i : Nat) : Option (List StartRec × Nat) :=
      match a with
      | none => none
      | some (l, k) =>
        let o := 16 + 12 * i
        let page := beAt cfg o 2 % 512
        let off := beAt cfg (o + 2) 2
        let lay := beAt cfg (o + 4) 2 % 4096
        let op := byteAt cfg (o + 6)
        let v := beAt cfg (o + 8) 4
        if 2 < op || !pageLive page s then none
        else if op = 0 && lay != pageLayout then
          (match if rulesOk then migrate rules (pageBlock page).1 8 lay off v pageLayout else none with
           | some (off', v') => some (⟨page, off', 0, v'⟩ :: l, k + 1)
           | none => none)
        else some (⟨page, off, op, v⟩ :: l, k)
    ((List.range n).foldl one (some ([], 0))).map (fun r => (r.1.reverse, r.2))

/-- The outcome of a bank check: the code of R489, the verifier's code, the root slot. -/
structure BankRes where
  code : Nat
  pkv : Nat
  root : Option Nat
  deriving DecidableEq, Repr

/-- The check of bank `b`; `err` when the flash could not be read (R489). -/
def bankCheck (b : Nat) (err : Bool) (s : State) : BankRes :=
  let m := flashAt (bankBase b) 4096 s
  if err then ⟨0x01, 0, none⟩
  else if !manifestForm m then ⟨0x02, 0, none⟩
  else
    let (c, root) := manifestSig m s
    let l := images m
    let rev := s.fixed.ident.rev
    let sil (lo hi : Nat) : Bool := decide (lo ≤ rev) && decide (rev ≤ hi)
    if c != 0 then ⟨0x03, c, root⟩
    else if beAt m 20 2 < minVer s then ⟨0x04, c, root⟩
    else if !nbit (beAt m 22 2) (b2n s.fixed.ident.varH) || !nbit (beAt m 22 2) (2 + b2n s.fixed.ident.gradeE) then ⟨0x06, c, root⟩
    else if !sil (beAt m 24 2) (beAt m 26 2) || !(l.filter Img.loaded).all (fun x => sil x.silMin x.silMax) then ⟨0x05, c, root⟩
    else if !typesOk l then ⟨0x09, c, root⟩
    else if !requirementsMet m l then ⟨0x07, c, root⟩
    else if !sizesOk (beAt m 12 4) l then ⟨0x0B, c, root⟩
    else if !(l.filter Img.loaded).all (fun x => sha384 (natsOf (flashAt (bankBase b + x.off) x.len s)) == x.hash) then ⟨0x08, c, root⟩
    else match imageOf 3 b l s with
      | none => ⟨0, c, root⟩
      | some cfg => ⟨if (startupOf (beAt m 36 2) cfg ((imageOf 4 b l s).getD []) s).isSome then 0 else 0x0A, c, root⟩

/-! ## Bank selection, activation, recovery (R484, R490, R491) -/

/-- Recovery mode begins; its causes are 1 pin, 2 record flag, 3 lifecycle, 4 no bank, 5 flash silent (R491). -/
def recovery (cause : Nat) (s : State) : State :=
  logDev pgFw 0x7F 0x0103 cause 0 (setBoot (fun b => { b with recovery := true, diag := 7, banks := [], store := 0, setVer := 0, pairMin := 0, pairMax := 0 }) s)

/-- The ROM orders the banks to try (R484). -/
def bankSelect (s : State) : State :=
  let r := theRec s
  let pin := s.boot.bootMode = 1 && !bitOf (fuse 55 s) 1
  if r.force then recovery 2 s
  else if pin then recovery 1 s
  else if lifecycle s = 3 then recovery 3 s
  else
    let p := r.preferred % 2
    let trial := r.try_ != 0xFF && decide (0 < r.left)
    let t := r.try_ % 2
    let s := if trial then writeRec (fun x => { x with left := x.left - 1 }) s else s
    let banks := if trial then (if t = p then [t, 1 - p] else [t, p]) else [p, 1 - p]
    setBoot (fun b => { b with banks := banks, trialNext := trial, diag := 2 }) s

/-- FUSE_SENSE_DONE: every word is resolved; `seen` gives the six reads of the words whose reads differ (R476-R479). -/
def fuseSenseDone (seen : List (Nat × List Word)) (s : State) : State :=
  if s.boot.inReset || s.boot.sensed then s
  else
    let s := (List.range 170).foldl (senseWord seen) (setBoot (fun b => { b with sensed := true }) s)
    let w1 := (fuse 1 s).toNat
    let id : Ident := ⟨nbit w1 16, nbit w1 17, w1 % 65536, (fuse 3 s).toNat * 2 ^ 32 + (fuse 2 s).toNat⟩
    let s := { s with fixed := { s.fixed with ident := id } }
    let s := if s.boot.weak.isEmpty then s else raise pgFuse 9 s
    if s.boot.holdWord.isSome then setBoot (fun b => { b with diag := 0xC }) s
    else if lifecycle s = 4 then setBoot (fun b => { b with scrapped := true, diag := 0xD }) s
    else if lifecycle s = 0 then setBoot (fun b => { b with blank := true, diag := 0xE }) s
    else bankSelect s

def execFuseSenseDone (t : Nat) (seen : List (Nat × List Word)) (s : State) : Res :=
  .next (owned s (fuseSenseDone seen (if held s then s else advance t s)))

/-- REFUSE_A or REFUSE_B, and CTL_FW_PKV_LAST, after a bank check. -/
def bankNoted (b : Nat) (r : BankRes) (s : State) : State :=
  let s := setBoot (fun x => if b = 0 then { x with refuseA := r.code } else { x with refuseB := r.code }) s
  if r.code = 1 || r.code = 2 then s
  else
    let s := ev pgFw 0x0100 1 (setBoot (fun x => { x with pkvLast := r.pkv + b * 256 }) s)
    if r.pkv = 0 then s else ev pgFw 0x0101 1 s

/-- A refused bank is logged (R484). -/
def bankRefused (b : Nat) (r : BankRes) (s : State) : State :=
  raise pgFw 10 (logDev pgFw 0x7F 0x0102 (r.code + b * 256) r.pkv s)

/-- A passing bank activates whole (R490). -/
def activate (b : Nat) (root : Option Nat) (s : State) : State :=
  let m := flashAt (bankBase b) 4096 s
  let l := images m
  let (cfg, k) := match imageOf 3 b l s with
    | some c => (startupOf (beAt m 36 2) c ((imageOf 4 b l s).getD []) s).getD ([], 0)
    | none => ([], 0)
  let pad (n : Nat) : Nat := (n + 4095) / 4096 * 4096
  let trial := s.boot.trialNext
  let s := if k = 0 then s else ev pgFw 0x0106 k s
  let s := logDev pgFw 0x7F 0x0101 (beAt m 16 4) (b + b2n trial * 2 + beAt m 20 2 % 64 * 256) s
  raise pgFw 9 (setBoot (fun x => { x with
    active := some b
    trial := trial
    banks := []
    rootSlot := root
    setVer := beAt m 16 4
    secVer := beAt m 20 2
    pairMin := beAt m 28 4
    pairMax := beAt m 32 4
    epochWait := beAt m 38 2
    store := ((l.filter Img.loaded).map (fun e => pad e.len)).sum
    standing := (imageOf 2 b l s).getD []
    startup := cfg
    startIdx := 0
    startAt := s.tim.up
    msActivate := min 65535 (upNs s / 1000000)
    diag := 5 }) s)

/-- BANK_CHECK: the ROM's check of the next bank completes; `err` 1 for a read error, 2 for a flash that does not answer
(R484, R489). -/
def bankStep (err : Nat) (s : State) : State :=
  match s.boot.banks with
  | [] => s
  | b :: rest =>
    if err = 2 then recovery 5 s
    else
      let r := bankCheck b (err = 1) s
      let s := bankNoted b r s
      if r.code = 0 then activate b r.root s
      else
        let s := setBoot (fun x => { x with banks := rest, trialNext := false, store := 0 }) (bankRefused b r s)
        if rest.isEmpty then recovery 4 s else s

def execBankCheck (t err : Nat) (s : State) : Res := onLive (fun s => bankStep err (advance t s)) s

/-! ## Readiness (R469-R472) -/

/-- PG_READY.STATE and REASON of a page (R469, R472). -/
def readyOf (p : Nat) (s : State) : Nat × Nat :=
  let r := look 0 s.boot.ready p
  let mem := decide (0x1C0 ≤ p) && decide (p < 0x1CC)
  let wait (ok : Bool) (why : Nat) : Nat × Nat := if ok then (3, 0) else (2, why)
  if held s && !(p == pgFuse && s.boot.holdWord.isSome) then (0, b2n (s.boot.holdWord.isSome || s.boot.scrapped))
  else if r = 2 then (4, 3)
  else if mem && (memCtl (p - 0x1C0) s).st = 5 then (4, 9)
  else if mem && (memCtl (p - 0x1C0) s).st = 4 then (4, 0x0A)
  else if mem then (if (memCtl (p - 0x1C0) s).st = 3 then (3, 0) else (1, 2))
  else if decide (0x020 ≤ p) && decide (p ≤ 0x022) && s.msh.st = 2 then (4, 0x0B)
  else if r = 0 then (1, 2)
  else if decide (0x010 ≤ p) && decide (p ≤ 0x012) then wait (nbit s.tim.refStat 3) 4
  else if decide (0x018 ≤ p) && decide (p ≤ 0x01B) then wait s.hif.active 8
  else if decide (0x180 ≤ p) && decide (p ≤ 0x18B) then wait s.boot.ordersEnded 5
  else if (decide (0x190 ≤ p) && decide (p ≤ 0x196)) || decide (0x1CC ≤ p) then wait (memAllReady s) 6
  else if decide (0x1B0 ≤ p) && decide (p ≤ 0x1B8) then wait (fabReady s) 7
  else (3, 0)

def readyWord (p : Nat) (s : State) : Word :=
  let (st, why) := readyOf p s
  w32 (b2n (st == 3) + st * 2 + why * 256)

/-- MEM_READY_NOTICE: the basin receives its deep berths (R268). -/
def memReadyNotice (s : State) : State :=
  if memAllReady s && !s.bas.memReady then raise pgMem 9 (setBas (fun b => { b with memReady := true, creditAt := tmCycle s }) s) else s

/-- PAGE_STATE_CHANGE: a page's own initialisation ends; `pass` when its self-test passed (R470). The other transitions
follow what the page depends on. Weak fuse words are logged once the change log is ready (R478). -/
def pageStateChange (p : Nat) (pass : Bool) (s : State) : State :=
  if !pageLive p s || 512 ≤ p || look 0 s.boot.ready p != 0 then memReadyNotice s
  else
    let s := setBoot (fun b => { b with ready := put 0 b.ready p (if pass then 1 else 2) }) s
    let s := if p = 0x002 && pass && !s.boot.weak.isEmpty && !s.boot.weakLogged then
        logDev pgFuse 0x7F 0x0104 (s.boot.weak.headD 0 + s.boot.weak.length * 256) (b2n s.boot.restricted)
          (setBoot (fun b => { b with weakLogged := true }) s)
      else s
    memReadyNotice s

def execPageStateChange (t p : Nat) (pass : Bool) (s : State) : Res := onLive (fun s => pageStateChange p pass (advance t s)) s

/-! ## Firmware commands (R495) -/

/-- The commands of CTL_FW_CMD are refused: no set runs (R495). -/
def fwRefused (v : Word) (s : State) : Bool :=
  (fld v 0 4 != 0) && (s.boot.recovery || s.boot.active.isNone || (bitOf v 3 && s.boot.checkBusy))

def fwConfirm (s : State) : State :=
  match s.boot.active with
  | none => s
  | some b => setBoot (fun x => { x with confirmed := true })
      (writeRec (fun r => { r with preferred := b, try_ := 0xFF, left := 0, force := false }) s)

def fwTryOther (s : State) : State :=
  match s.boot.active with
  | none => s
  | some b => writeRec (fun r => { r with try_ := 1 - b, left := 1, force := false }) s

def fwRecovery (s : State) : State := writeRec (fun r => { r with force := true }) s

def fwCheckOther (s : State) : State := setBoot (fun x => { x with checkBusy := true }) s

/-- A write of CTL_FW_CMD that is accepted, its bits in order. -/
def fwCmd (v : Word) (s : State) : State :=
  let s := if bitOf v 0 then fwConfirm s else s
  let s := if bitOf v 1 then fwTryOther s else s
  let s := if bitOf v 2 then fwRecovery s else s
  if bitOf v 3 then fwCheckOther s else s

/-- CHECK_DONE: the check of the other bank completes; its result shows in REFUSE_A or REFUSE_B (R495). -/
def checkDone (err : Bool) (s : State) : State :=
  match s.boot.active with
  | none => s
  | some b =>
    if !s.boot.checkBusy then s
    else
      let o := 1 - b
      let r := bankCheck o err s
      let s := bankNoted o r (setBoot (fun x => { x with checkBusy := false }) s)
      raise pgFw 14 s

def execCheckDone (t : Nat) (err : Bool) (s : State) : Res := onLive (fun s => checkDone err (advance t s)) s

/-! ## Flash commands (R496) -/

/-- The command touches the active bank or a boot control record. -/
def flashProtected (op a : Nat) (s : State) : Bool :=
  let a := if op = 2 then a / 65536 * 65536 else a
  let hit (b n : Nat) : Bool := decide (b ≤ a) && decide (a < b + n)
  op != 0 && !s.boot.recovery &&
  (hit 0 0x20000 || (match s.boot.active with
    | some b => hit (bankBase b) 0x1000000
    | none => false))

/-- A flash command starts: 0 READ, 1 PROGRAM, 2 ERASE. -/
def flashGo (op : Nat) (s : State) : State :=
  setBoot (fun b => { b with
    flashBusy := true, flashDone := false, flashOp := op, flashAddr := rf pgFw 0x130 8 20 s * 256 }) s

/-- FLASH_DONE: the command completes; `err` when the flash reports an error. -/
def flashEnd (err : Bool) (s : State) : State :=
  let b := s.boot
  if !b.flashBusy then s
  else
    let res := if flashProtected b.flashOp b.flashAddr s then 1 else if err then 2 else 0
    let s := if res != 0 then s
      else if b.flashOp = 0 then
        let d := flashAt b.flashAddr 256 s
        (List.range 64).foldl (fun a i => tput tbFlash 0 i (byteWord d i) a) s
      else if b.flashOp = 1 then flashPut b.flashAddr (tblBytes tbFlash 256 s) s
      else { s with fixed := { s.fixed with
          flash := s.fixed.flash.filter (fun e => e.1 / 65536 != b.flashAddr / 65536) } }
    let s := setBoot (fun x => { x with flashBusy := false, flashDone := true, flashResult := res }) s
    let s := ev pgFw 0x0102 1 s
    raise pgFw 11 (if res = 0 then s else ev pgFw 0x0103 1 s)

def execFlashDone (t : Nat) (err : Bool) (s : State) : Res := onLive (fun s => flashEnd err (advance t s)) s

/-! ## The verifier (R485) -/

/-- A VERIFY is discarded: the verifier is busy, or the ROM or CHECK_OTHER uses it. -/
def pkvRefused (s : State) : Bool := s.boot.pkvBusy || s.boot.checkBusy || !s.boot.banks.isEmpty

/-- VERIFY starts on the inputs in the window. -/
def pkvGo (root : Bool) (s : State) : State :=
  let b := tblBytes tbPkv 240 s
  let f (i : Nat) : Nat := beAt b (48 * i) 48
  let r := if root then some (!(rootSlots (f 1) (f 2) s).isEmpty) else none
  let code := pkvCode r (f 0) (f 1) (f 2) (f 3) (f 4)
  ev pgFw 0x0100 1 (setBoot (fun x => { x with pkvBusy := true, pkvDone := false, pkvNext := code, pkvAt := s.tim.up }) s)

/-- VERIFY_DONE: the verifier returns its code, 3.2 ms (to 1 us) after VERIFY. -/
def pkvEnd (s : State) : State :=
  if !s.boot.pkvBusy || decide (s.tim.up < s.boot.pkvAt + 3199000 * 2 ^ 32) then s
  else
    let s := setBoot (fun x => { x with pkvBusy := false, pkvDone := true, pkvCode := x.pkvNext }) s
    raise pgFw 12 (if s.boot.pkvCode = 0 then s else ev pgFw 0x0101 1 s)

def execVerifyDone (t : Nat) (s : State) : Res := onLive (fun s => pkvEnd (advance t s)) s

/-! ## Fuse burns (R481, R508) -/

/-- A write of CTL_FUSE_PROG. -/
def fuseProg (o : Nat) (v : Word) (s : State) : State :=
  if !bitOf v 31 then s
  else
    let denied := !(pfSide o || o == 0x7E) || !s.boot.confirmed || s.boot.recovery || s.boot.fuseBusy ||
      (match s.boot.rootSlot with
       | some k => nbit (fld v 0 4) k
       | none => false)
    if denied then setBoot (fun b => { b with fuseDenied := true }) s
    else setBoot (fun b => { b with
      fuseBusy := true, fuseDone := false, fuseFail := false, fuseDenied := false, fuseReq := v.toNat % 512, fuseOrigin := o }) s

/-- The bits of a mask are burnt in the three copies of a word, but for the copies that fail verification; the copies that
failed are counted. -/
def burnWord (w : Nat) (mask : Word) (failed : List Nat) (s : State) : State :=
  (List.range 3).foldl (fun a k =>
    let i := 3 * w + k
    let old := look 0 a.fixed.fuse i
    let new := mask &&& ~~~old
    if new = 0 then a
    else if failed.contains i then ev pgFuse 0x0101 1 a
    else
      let a := { a with fixed := { a.fixed with fuse := put 0 a.fixed.fuse i (old ||| mask) } }
      ev pgFuse 0x0100 (bitCount new) a) s

/-- BURN_DONE: the burn is verified and logged; `failed` names the copies (3 w + k) that failed. -/
def burnDone (failed : List Nat) (s : State) : State :=
  if !s.boot.fuseBusy then s
  else
    let rev := s.boot.fuseReq % 16
    let sec := nbit s.boot.fuseReq 8
    let before := s.fixed.fuse
    let masks := burnMasks s
    let s := masks.foldl (fun a e => burnWord e.1 e.2 failed a) s
    let fail := masks.any (fun e => failed.any (fun i => i / 3 == e.1 && (e.2 &&& ~~~(look 0 before i)) != 0))
    let min := if sec then max (minVer s) s.boot.secVer else minVer s
    let s := setBoot (fun b => { b with fuseBusy := false, fuseDone := true, fuseFail := fail }) s
    logDev pgFuse s.boot.fuseOrigin 0x0105 (rev + b2n sec * 256) (min + b2n fail * 2 ^ 31) (raise pgFuse 10 s)

def execBurnDone (t : Nat) (failed : List Nat) (s : State) : Res := onLive (fun s => burnDone failed (advance t s)) s

/-! ## Registers and windows of pages 0x000, 0x005 and 0x006 -/

def identRo (off : Nat) (s : State) : Option Word :=
  let i := s.fixed.ident
  match off with
  | 0x100 => some 0x01015120
  | 0x104 => some (w32 (b2n i.varH + b2n i.gradeE * 2))
  | 0x108 => some (w32 i.rev)
  | 0x10C => some (if s.boot.sensed then fuse 4 s else if i.varH then w32 (128 + 128 * 512 + 9 * 2 ^ 18 + 3 * 2 ^ 23) else 0x03460100)
  | 0x110 => some (w32 i.serial)
  | 0x114 => some (w32 (i.serial / 2 ^ 32))
  | _ => none

/-- BOOT_STATE: 6, running a set, once the standing orders and the start-up configuration are done. -/
def bootState (s : State) : Nat :=
  let b := s.boot
  if b.diag = 5 && b.ordersEnded && decide (b.startup.length ≤ b.startIdx) then 6 else b.diag

def fwRo (off : Nat) (s : State) : Option Word :=
  let b := s.boot
  match off with
  | 0x100 => some (w32 (bootState s + b2n b.recovery * 16 + b.active.getD 0 * 32 + b2n b.trial * 64 + b2n b.confirmed * 128 +
      b.refuseA * 256 + b.refuseB * 65536 + b2n b.cfgErrSet * 2 ^ 24 + b2n b.checkBusy * 2 ^ 25))
  | 0x104 => some (w32 b.setVer)
  | 0x108 => some (w32 (b.secVer % 64 + minVer s * 256))
  | 0x110 => some (w32 b.pkvLast)
  | 0x114 => some (w32 (b.cfgErr + b.cfgErrFirst * 65536))
  | 0x118 => some (w32 (b.msActivate + b.msOrders * 65536))
  | 0x11C => some (w32 b.cause)
  | 0x138 => some (w32 (b2n b.flashBusy + b2n b.flashDone * 2 + b.flashResult * 4))
  | 0x144 => some (w32 (b2n b.pkvBusy + b2n b.pkvDone * 2 + b.pkvCode * 256))
  | _ => none

def fuseRo (off : Nat) (s : State) : Option Word :=
  let b := s.boot
  match off with
  | 0x100 => some (w32 (b2n (!b.weak.isEmpty) + b2n b.restricted * 2 + b2n b.holdWord.isSome * 4 + b.weak.length % 256 * 256 +
      b.weak.headD 0 * 65536 + b.holdWord.getD 0 * 2 ^ 24))
  | 0x104 => some (w32 (lifecycle s))
  | 0x108 => some (fuse 55 s)
  | 0x10C => some (w32 (minVer s))
  | 0x110 => some (w32 (fld (fuse 53 s) 0 4))
  | 0x118 => some (w32 (b2n b.fuseBusy + b2n b.fuseDone * 2 + b2n b.fuseFail * 4 + b2n b.fuseDenied * 8))
  | _ => none

/-- A fuse word, or a word of the weak map, as page 0x006 shows it (words 56-63 read zero). -/
def fuseWord (off : Nat) (s : State) : Option Word :=
  if 0x4000 ≤ off && off < 0x4000 + 680 then
    let w := (off - 0x4000) / 4
    some (if 56 ≤ w && w ≤ 63 then 0 else fuse w s)
  else if 0x4400 ≤ off && off < 0x4418 then
    let i := (off - 0x4400) / 4
    some (w32 ((s.boot.weak.filter (fun w => w / 32 == i)).foldl (fun a w => a + 2 ^ (w % 32)) 0))
  else none

/-- The windows of page 0x005. -/
def fwWin (off : Nat) : Option WinRef :=
  if 0x4000 ≤ off && off < 0x4100 then
    let d := (off - 0x4000) / 4
    some ⟨tbFlash, 0, d, 0x4000, d, 0, 0xFFFFFFFF, false, false, false⟩
  else if 0x5000 ≤ off && off < 0x50F0 then
    let d := (off - 0x5000) / 4
    some ⟨tbPkv, 0, d, 0x5000, d, 0, 0xFFFFFFFF, false, false, false⟩
  else none

end Sys2Proof.Machine
end

