-- ==== Sys2Proof/Machine/Hooks.lean ====
section
/-! DEFINITION. The register side of every block in one place: what a read-only register shows, which table word lies behind a window offset, which writes a block refuses, what a write starts, and each page's check. -/
namespace Sys2Proof.Machine

def pgLock : Nat := 0x001
def pgLog : Nat := 0x002
def pgSnap : Nat := 0x003
def pgIrq : Nat := 0x004

def setLock (f : Lock → Lock) (s : State) : State := { s with lock := f s.lock }

/-- The marshal's origins: its own, and the towpath's. -/
def isMarshal (o : Nat) : Bool := o == 0x50 || o == 0x51

/-- A VF's origin. -/
def isVf (o : Nat) : Bool := decide (1 ≤ o) && decide (o ≤ 0x3F)

/-- The origins that count as the PF side (R447). -/
def isHostSide (o : Nat) : Bool := pfSide o

/-- Pages whose PG_CTL is SF (R414). -/
def ctlSf (p : Nat) : Bool :=
  p == 0x020 || p == 0x022 || p == 0x023 || p == 0x025 || p == 0x030 || (decide (0x180 ≤ p) && decide (p ≤ 0x185)) ||
  (decide (0x188 ≤ p) && decide (p ≤ 0x18B)) || p == 0x1A5

/-- Pages with a window base register at offset 0x0100 (R449). -/
def hasBase (p : Nat) : Bool :=
  [0x171, 0x172, 0x173, 0x174, 0x181, 0x182, 0x183, 0x184, 0x185, 0x189, 0x18A, 0x191, 0x193, 0x194, 0x195, 0x1A1, 0x1A2, 0x1A3,
   0x1A4, 0x1A5, 0x1B2, 0x1B3, 0x1B4, 0x1B7, 0x1B8, 0x1D1, 0x1D3, 0x1D4].contains p

/-! ## The lock engine's view (R41, R44) -/

/-- STATE of CTL_LOCK_STAT (R41). -/
def lockCode (st : LockState) : Nat :=
  match st with
  | .idle => 0 | .fill => 1 | .level => 2 | .ready => 3 | .open_ => 4 | .done => 5 | .refused => 6

/-- The page is a member of a cycle in LEVEL, READY or OPEN (R44). -/
def frozenPage (p : Nat) (s : State) : Bool :=
  (s.lock.st == .level || s.lock.st == .ready || s.lock.st == .open_) && s.lock.members.contains p

/-- A register is SF. -/
def sfReg (p off : Nat) : Bool :=
  match regAt p off with
  | some r => r.acc == .sf
  | none => false

/-- Dirty words of a page. -/
def dirtyCount (p : Nat) (s : State) : Nat := (s.regs.dirty.filter (fun k => k / 65536 == p)).length

/-- CTL_LOCK_FAIL. -/
def lockFailWord (s : State) : Nat := s.lock.failPage % 512 + s.lock.failDetail % 256 * 65536

/-- Pages as the bits of one of sixteen words. -/
def pageBits (i : Nat) (f : Nat → Bool) : Word :=
  w32 ((List.range 32).foldl (fun a j => a + b2n (f (32 * i + j)) * 2 ^ j) 0)

/-- Read-only registers of page 0x001. The generation that a lock opens is counted once its cycle is DONE (R41, R52). -/
def lockRo (off : Nat) (s : State) : Option Word :=
  let l := s.lock
  match off with
  | 0x104 => some (w32 (lockCode l.st + b2n l.ownerMarshal * 8 + b2n l.held.isSome * 16 + b2n (!s.regs.oldPages.isEmpty) * 32 + b2n l.paired * 64 +
      l.reason * 256))
  | 0x110 => some (w32 l.appliedEpoch)
  | 0x114 => some (w32 (l.appliedEpoch / 2 ^ 32))
  | 0x118 => some (w32 ((l.gen + 65536 - b2n (l.st == .open_)) % 65536))
  | 0x11C => some (w32 (lockFailWord s))
  | 0x120 => some (w32 (l.words % 2 ^ 21))
  | 0x124 => some (w32 l.digest)
  | _ => if 0x140 ≤ off && off < 0x180 then some (pageBits ((off - 0x140) / 4) (fun p => l.members.contains p)) else none

/-- Read-only registers of pages 0x002, 0x003 and 0x004. -/
def ctlRo (p off : Nat) (s : State) : Option Word :=
  if p = pgLog then
    (match off with
     | 0x104 => some (w32 s.log.wrSeq)
     | 0x108 => some (w32 s.log.rdSeq)
     | 0x10C => some (w32 (logFree s + b2n (logHolding s) * 2 ^ 17))
     | 0x11C => some (w32 s.log.lastChain)
     | 0x12C => some (w32 s.log.dmaHead)
     | _ => none)
  else if p = pgSnap then
    (match off with
     | 0x104 => some (w32 (b2n (s.snap.bound.isSome || s.snap.waiting.isSome) + b2n s.snap.frozen * 2))
     | 0x108 => some (w32 s.snap.epoch)
     | 0x10C => some (w32 (s.snap.epoch / 2 ^ 32))
     | 0x110 => some (w32 (b2n (memFrozen s) + b2n s.link.fault * 2))
     | _ => none)
  else if p = pgIrq then
    (if 0x100 ≤ off && off < 0x140 then some (pageBits ((off - 0x100) / 4) (fun q => summary q s)) else none)
  else none

/-- The registers of the live range that hardware computes. -/
def roReg (p off : Nat) (s : State) : Option Word :=
  if p = 0x000 then identRo off s
  else if p = 0x001 then lockRo off s
  else if p ≤ 0x004 then ctlRo p off s
  else if p = 0x005 then fwRo off s
  else if p = 0x006 then fuseRo off s
  else if p = 0x007 then mshRo p off s
  else if p < 0x018 then timRo p off s
  else if p < 0x020 then hifRo p off s
  else if p < 0x030 then mshRo p off s
  else if p = 0x030 then pairRo off s
  else if p < 0x140 then licRo (p - 0x040) off (nMuted (p - 0x040) s) (fMuted s) s
  else if p < 0x160 then sdhRo (p - 0x140) off s
  else if p = 0x160 then pacRo off s
  else if p = 0x170 then ftbRo off s
  else if p = 0x180 || p = 0x18B then expRo p off s
  else if p = 0x188 then dupRo p off s
  else if p = 0x190 then basRo off s
  else if p = 0x1A0 then pcrRo p off s
  else if p = 0x1B0 then fabRo off s
  else if 0x1C0 ≤ p && p ≤ 0x1CC then memRo p off s
  else if p = 0x1D0 then arcRo p off s
  else none

/-! ## Windows -/

/-- The calibration window of page 0x011 (R73). -/
def calWin (off : Nat) : Option WinRef :=
  let c := (off - 0x4000) / 32
  let w := (off - 0x4000) % 32 / 4
  if off < 0x4000 || 255 < c then none
  else some ⟨tbCal, c, w, 0x4000, c, w, if w = 5 then 3 else if 2 ≤ w && w ≤ 4 then 0xFFFFFFFF else 0, false, false, false⟩

/-- CTL_IRQ_MAP (R65). -/
def irqWin (off : Nat) : Option WinRef :=
  if 0x4000 ≤ off && off < 0x4800 then
    some ⟨tbIrqMap, (off - 0x4000) / 4, 0, 0x4000, (off - 0x4000) / 4, 0, 0x187FF, false, false, false⟩
  else none

/-- The table word behind a window offset of a page, for an origin. -/
def winRef (p off o : Nat) (s : State) : Option WinRef :=
  let m := isMarshal o
  if off < 0x4000 || 0x8000 ≤ off then none
  else if p = 0x004 then irqWin off
  else if p = 0x005 then fwWin off
  else if p = 0x011 then calWin off
  else if 0x018 ≤ p && p < 0x020 then hifWin p off s
  else if 0x020 ≤ p && p < 0x030 then mshWin p off
  else if 0x140 ≤ p && p < 0x160 then sdhWin (p - 0x140) off s
  else if 0x160 ≤ p && p < 0x170 then pacWin p off s
  else if 0x170 ≤ p && p < 0x180 then ftbWin p off s
  else if 0x188 ≤ p && p ≤ 0x18A then dupWin p off m s
  else if 0x180 ≤ p && p < 0x190 then expWin p off m s
  else if 0x190 ≤ p && p < 0x1A0 then basWin p off s
  else if 0x1A0 ≤ p && p < 0x1B0 then pcrWin p off m s
  else if 0x1B0 ≤ p && p < 0x1C0 then fabWin p off s
  else if 0x1D0 ≤ p && p < 0x1D8 then arcWin p off s
  else none

/-- The words of a window that hardware computes. -/
def winRo (p off o : Nat) (r : WinRef) (s : State) : Option Word :=
  if 0x018 ≤ p && p < 0x020 then hifWinRo r o s
  else if 0x020 ≤ p && p < 0x030 then mshWinRo r s
  else if 0x140 ≤ p && p < 0x160 then sdhWinRo (p - 0x140) off r s
  else if 0x170 ≤ p && p < 0x180 then ftbWinRo r s
  else if 0x188 ≤ p && p ≤ 0x18A then dupWinRo p off r s
  else if 0x180 ≤ p && p < 0x190 then expWinRo p off r s
  else if 0x190 ≤ p && p < 0x1A0 then basWinRo r s
  else if 0x1A0 ≤ p && p < 0x1B0 then pcrWinRo r s
  else if 0x1B0 ≤ p && p < 0x1C0 then fabWinRo p off r s
  else if 0x1D0 ≤ p && p < 0x1D8 then arcWinRo r s
  else none

/-- A word of a change-log record, W0 to W7 (R54). -/
def recWord (r : LogRec) (w : Nat) : Word := if w = 7 then w32 r.chain else w32 (r.words.getD w 0)

/-- The change-log window: 512 records of the selected block (R60). -/
def logWin (off : Nat) (s : State) : Word :=
  match find? s.log.ring ((rf pgLog 0x110 9 7 s * 512 + (off - 0x4000) / 32) % 65536) with
  | some r => recWord r (off % 32 / 4)
  | none => 0

/-- Window words that no table holds. -/
def winOther (p off : Nat) (s : State) : Word :=
  if p = pgLog then logWin off s
  else if p = 0x006 then (fuseWord off s).getD 0
  else if 0x1C0 ≤ p && p ≤ 0x1CC then (memRo p off s).getD 0
  else if 0x1D0 ≤ p && p < 0x1D8 then (arcRo p off s).getD 0
  else 0

/-- The value that a window word shows. -/
def winWord (p off o : Nat) (s : State) : Word :=
  match winRef p off o s with
  | none => winOther p off s
  | some r =>
    if r.absent then 0
    else match winRo p off o r s with
      | some w => w
      | none => if r.mask = 0 && r.tab ≠ tbCal then 0 else tw r.tab r.idx r.word s

/-! ## Refused writes -/

/-- A value beside the sequence numbers that a release register accepts (R58, CTL_LOG_RD_SEQ). -/
def logRdBad (v : Word) (s : State) : Bool :=
  decide (s.log.wrSeq - s.log.rdSeq < (v.toNat + 2 ^ 32 - s.log.rdSeq % 2 ^ 32) % 2 ^ 32)

/-- Word A of a boundary register that holds no valid stamp (R69). -/
def boundaryBad (p off : Nat) (v : Word) : Bool := p == 0x1D0 && (off == 0x130 || off == 0x13C) && !stampAValid v

/-- The PG_STAT bits that a block sets when it discards a register write; none when it takes the write. -/
def regRefuses (p off o : Nat) (v : Word) (s : State) : List Nat :=
  let z (b : Bool) : List Nat := if b then [0] else []
  if (p == 0x005 || p == 0x006) && isVf o then [0]
  else if p = pgLock then (if (off == 0x108 || off == 0x10C) && !(s.lock.st == .idle || s.lock.st == .fill) then [4] else [])
  else if p = pgLog then z (off == 0x108 && logRdBad v s)
  else if p = pgSnap then z (off == 0x100 && bitOf v 1 && bitOf v 2)
  else if p = 0x005 then
    z ((off == 0x10C && fwRefused v s) || (off == 0x124 && bitOf v 0 && !rstArmed s) ||
      (off == 0x134 && fld v 0 3 != 0 && s.boot.flashBusy) || (off == 0x140 && bitOf v 0 && pkvRefused s))
  else if 0x010 ≤ p && p < 0x018 then z (timRefuses p off v s)
  else if p = pgHif then z (off == 0x124 && dirtyRefused v s)
  else if p = pgPet then (if (off == 0x100 && petRegRefused true o s) || (off == 0x104 && petRegRefused false o s) then [0, 8] else [])
  else if p = pgCon then
    (if off = 0x100 then (if conLockRefused o v s then [0, 8] else []) else if conForeign o s then [8] else [])
  else if p = pgPair then z (pairRefuses off v s)
  else if 0x040 ≤ p && p < 0x140 then z (licRefuses off v)
  else if p = 0x180 then z (off == 0x11C && fsRdBad v s)
  else if p = 0x190 then z (off == 0x128 && bitOf v 0 && flushBusy s)
  else if 0x1C0 ≤ p && p ≤ 0x1CC then z (memRefuses p off v s)
  else if p = 0x1D0 then z (arcRefuses p off v s || boundaryBad p off v)
  else []

/-! ## What a write starts -/

/-- EOI of one vector: it is armed again, or its message follows the hold-off (R65). -/
def eoi (vec : Nat) (s : State) : State :=
  if vecOr vec s then irqAfter (irqDue vec) s else { s with irq := { s.irq with disarmed := rem s.irq.disarmed vec } }

/-- A write of a CTL_IRQ_EOI word: the core's vectors for a management core, the PF's for any other origin. -/
def eoiWrite (o i : Nat) (v : Word) (s : State) : State :=
  let base := if decide (0x40 ≤ o) && decide (o ≤ 0x43) then 2048 else 0
  let vs := (List.range 32).filterMap (fun j => if bitOf v j then some (base + 32 * i + j) else none)
  let s := if vs.any (fun x => !vecOr x s) then ev pgIrq 0x0102 1 s else s
  vs.foldl (fun a x => eoi x a) s

/-- A write of CTL_SNAP_CMD: it replaces a command not yet bound (R64). -/
def snapWrite (v : Word) (s : State) : State :=
  if fld v 0 3 = 0 then s
  else
    let s := if s.snap.waiting.isSome then ev pgSnap 0x0102 1 s else s
    { s with snap := { s.snap with waiting := some ⟨bitOf v 0, bitOf v 1, bitOf v 2⟩ } }

/-- CTL_LOG_RD_SEQ releases records; a GAP record follows losses once an entry is free (R58, R59). -/
def logRelease (v : Word) (s : State) : State :=
  logGap { s with log := { s.log with
    rdSeq := s.log.rdSeq + (v.toNat + 2 ^ 32 - s.log.rdSeq % 2 ^ 32) % 2 ^ 32 } }

/-- What a write of a firmware register starts. -/
def fwWrote (off : Nat) (v : Word) (s : State) : State :=
  match off with
  | 0x10C => fwCmd v s
  | 0x120 => rstArm v s
  | 0x124 => if bitOf v 0 then selfReset 3 s else s
  | 0x134 => if bitOf v 0 then flashGo 0 s else if bitOf v 1 then flashGo 1 s else if bitOf v 2 then flashGo 2 s else s
  | 0x140 => if bitOf v 0 then pkvGo (bitOf v 1) s else s
  | _ => s

/-- What a write of an MSH register starts. -/
def mshWrote (p off o : Nat) (v : Word) (s : State) : State :=
  if p = pgMsh then (if off = 0x130 && bitOf v 0 then bankCopyGo s else s)
  else if p = pgPet then
    (if off = 0x100 then (if bitOf v 0 then petSubmit s else if bitOf v 1 then petCancel s else s) else s)
  else if p = pgCon then
    (if off = 0x100 then conLock o v s else if off = 0x11C && bitOf v 0 then conGo s else s)
  else if p = pgSt then
    (if off = 0x114 then (if bitOf v 31 then stForce v s else s)
     else if off = 0x118 then (if bitOf v 31 then stUnretire v s else s) else s)
  else s

/-- A lane control written while the lane is UP takes the lane from the fabric and from the baton (R100, R113, R411). -/
def lanesWrote (c off : Nat) (old new : Word) (s : State) : State :=
  let fUp := (flane c s).st == 3
  let bUp := (blane c s).st == 3
  let s := licWrote c off old new s
  let s := if fUp && (flane c s).st != 3 then laneLost c s else s
  if bUp && (blane c s).st != 3 then batonLaneChanged s else s

/-- What a register write that has taken effect starts. -/
def wroteHook (p off o : Nat) (old v : Word) (s : State) : State :=
  if p = pgLog then (if off = 0x108 then logRelease v s else s)
  else if p = pgSnap then (if off = 0x100 then snapWrite v s else s)
  else if p = pgIrq then (if 0x200 ≤ off && off < 0x300 then eoiWrite o ((off - 0x200) / 4) v s else s)
  else if p = 0x005 then fwWrote off v s
  else if p = 0x006 then (if off = 0x114 then fuseProg o v s else s)
  else if 0x010 ≤ p && p < 0x018 then timWrote p off old v s
  else if p = pgHif then (if off = 0x124 && bitOf v 31 then dirtySwap (fld v 0 6) s else s)
  else if 0x020 ≤ p && p < 0x030 then mshWrote p off o v s
  else if p = pgPair then pairWrote off v s
  else if 0x040 ≤ p && p < 0x140 then lanesWrote (p - 0x040) off old v s
  else if p = 0x140 then (if off = 0x1000 then pmAlignWritten s else s)
  else if p = 0x170 then (if off = 0x140 && bitOf v 0 then ntfPop s else s)
  else if p = 0x18B then (if off = 0x11C && bitOf v 31 then sealReturn (fld v 0 6) s else s)
  else if p = 0x190 then (if off = 0x128 && bitOf v 0 then basFlushGo s else s)
  else if p = 0x180 then (if off = 0x100 && old != v then bankFlip s else s)
  else if p = 0x1A0 then (if off = 0x104 && old != v then bankFlipped s else s)
  else if p = 0x1A5 then (if 0x1000 ≤ off && off % 16 = 0 then gateApplied ((off - 0x1000) / 16) (nowStamp s) s else s)
  else if 0x1C0 ≤ p && p ≤ 0x1CC then memWrote p off v s
  else if p = 0x1D0 then arcWrote p off v s
  else s

/-! ## Page checks, enable and disable -/

/-- The page check of a page with configuration `s`; `live` is the state in force (R45, R96). -/
def pageCheck (p : Nat) (live s : State) : Option Nat :=
  let nz (n : Nat) : Option Nat := if n = 0 then none else some n
  if 0x040 ≤ p && p < 0x140 then nz (licCheck (p - 0x040) s)
  else if 0x140 ≤ p && p < 0x160 then nz (sdhCheck (p - 0x140) s)
  else if p = 0x160 then pacCheck s
  else if p = 0x170 then ftbCheck live s
  else if p = 0x180 then expCheck s
  else if p = 0x188 then dupCheck s
  else if p = 0x190 then basCheck s
  else if p = 0x1A0 || p = 0x1A5 || p = 0x1A6 then pcrCheck p s
  else if p = 0x1B0 then fabCheck s
  else if p = 0x1D0 || p = 0x1D1 || p = 0x1D2 then arcCheck s
  else none

/-- The configuration of page 0x160 is the one in force. -/
def pacNoted (s : State) : State := { s with pac := { s.pac with wideInForce := fld (rd 0x160 0x108 s) 0 16 } }

/-- PG_CTL.EN of a page has been set. -/
def pageEnabled (p : Nat) (s : State) : State :=
  if 0x040 ≤ p && p < 0x140 then expChannelEnabled (p - 0x040) (licEnable (p - 0x040) s)
  else if p = 0x160 then pacNoted s
  else if p = 0x190 then basApplied s
  else if p = 0x1B0 then fabConfigured s
  else s

/-- PG_CTL.EN of a page has been cleared. -/
def pageDisabled (p : Nat) (s : State) : State :=
  if 0x040 ≤ p && p < 0x140 then licDisable (p - 0x040) s
  else if p = 0x1B0 then fabConfigured s
  else arcDisabled p s

end Sys2Proof.Machine
end

