-- ==== Sys2Proof/Machine/Lock.lean ====
section
/-! DEFINITION. The lock engine: its cycle, levelling and the cross-block checks, the apply at an epoch boundary, and the copies of the previous generation (R39-R52). -/
namespace Sys2Proof.Machine

/-- Dirty chamber words of the owner's kind in member pages, ascending (R40). -/
def lockDirty (s : State) : List Nat :=
  s.regs.dirty.filter (fun k => s.lock.members.contains (k / 65536) && sfReg (k / 65536) (k % 65536) == s.lock.ownerMarshal)

/-- CTL_LOCK_DIGEST: page, live offset and staged value of each frozen dirty word (R517). -/
def lockDigest (ks : List Nat) (s : State) : Nat :=
  crc32c (ks.flatMap (fun k => toLE 4 (k / 65536) ++ toLE 4 (k % 65536) ++ toLE 4 (chm k s).toNat))

/-- The origin in W6 of the records of a cycle. -/
def lockW6 (gen : Nat) (s : State) : Nat := gen % 65536 + s.lock.ownerOrigin % 256 * 65536

/-! ## The cycle (R41) -/

/-- A cycle begins in FILL. -/
def lockBegin (marshal : Bool) (o : Nat) (members : List Nat) (s : State) : State :=
  ev pgLock 0x0100 1 (setLock (fun l => { l with
    st := .fill, ownerMarshal := marshal, ownerOrigin := o, members := members, heldEpochs := 0, reason := 0, failPage := 0,
    failDetail := 0, bound := none, levelEpochs := 0, pass := [], fail := [] }) s)

/-- The cycle is refused: one LOCK_REFUSED record (R41, R52). -/
def lockEndRefused (reason page detail : Nat) (s : State) : State :=
  let s := setLock (fun l => { l with st := .refused, reason := reason, failPage := page, failDetail := detail, bound := none }) s
  let s := if s.lock.ownerMarshal then { s with msh := { s.msh with lockReason := reason, lockApplied := false } } else s
  logRec pgLock reason 0x60 0x07 (lockFailWord s) (lockW6 s.lock.gen s) (ev pgLock 0x0102 1 s)

/-- The epoch that a GO names: the host's from CTL_LOCK_EPOCH, the marshal's from its request. -/
def hostEpoch (s : State) : Nat := (rd pgLock 0x10C s).toNat * 2 ^ 32 + (rd pgLock 0x108 s).toNat

/-- The epoch number is one that a step has skipped: no boundary opens it (R89). -/
def epochSkipped (n : Nat) (s : State) : Bool := n != 0 && decide (epochNow s < n) && decide (n < s.tim.nextIssue)

/-- GO in FILL: LEVEL, or a refusal at once (R41, R474). Where several reasons hold the model tests RUN, EPOCH_TOO_SOON, a skipped epoch,
ASAP_PAIRED and last EMPTY (DESIGN CHOICE, log entry 211). -/
def lockGo (n : Nat) (s : State) : State :=
  if !s.tim.run then lockEndRefused 0x07 0 0 s
  else if n != 0 && decide (n < epochNow s + 4) then lockEndRefused 0x02 0 0 s
  else if epochSkipped n s then lockEndRefused 0x07 0 0 s
  else if n == 0 && s.lock.paired then lockEndRefused 0x0A 0 0 s
  else
    let ks := lockDirty s
    if ks.isEmpty then lockEndRefused 0x03 0 0 s
    else
      let d := lockDigest ks s
      setLock (fun l => { l with st := .level, applyEpoch := n, levelEpochs := 0, words := ks.length, digest := d }) s

/-- A marshal request starts its cycle on exactly the pages that it names, and goes on to LEVEL as a host GO does (R41, R422). -/
def marshalStart (r : LockReq) (s : State) : State :=
  lockGo r.epoch (lockBegin true 0x50 (r.pages.filter (fun p => pageLive p s)) s)

/-- A cycle has ended: a held marshal request starts (R41). -/
def lockNext (s : State) : State :=
  match s.lock.held with
  | some r => marshalStart r (setLock (fun l => { l with held := none }) s)
  | none => s

/-- A refusal, after which a held request starts. -/
def lockRefuse (reason page detail : Nat) (s : State) : State := lockNext (lockEndRefused reason page detail s)

/-- The lock engine is in FILL, LEVEL, READY or OPEN. -/
def lockBusy (s : State) : Bool := !(s.lock.st == .idle || s.lock.st == .done || s.lock.st == .refused)

/-- A marshal request: started, or held one deep behind a host cycle (R41). -/
def marshalRequest (r : LockReq) (s : State) : State :=
  if !lockBusy s then marshalStart r s
  else if s.lock.ownerMarshal || s.lock.held.isSome then ev pgLock 0x0105 1 s
  else setLock (fun l => { l with held := some r, heldEpochs := 0 }) s

/-- MSH_LOCK_CMD.GO: the request that MSH_LOCK_PAGES and MSH_LOCK_EPOCH describe (R422); page 0x020 counts it unless it is ignored. -/
def marshalGo (s : State) : State :=
  let pages := (List.range 512).filter (fun p => rb 0x020 (0x140 + 4 * (p / 32)) (p % 32) s)
  let r : LockReq := ⟨pages, (rd 0x020 0x128 s).toNat * 2 ^ 32 + (rd 0x020 0x124 s).toNat⟩
  if lockBusy s && (s.lock.ownerMarshal || s.lock.held.isSome) then marshalRequest r s else ev 0x020 0x0105 1 (marshalRequest r s)

/-- An event ignored in the current state. -/
def lockIgnored (s : State) : State × Bool := (ev pgLock 0x0105 1 s, false)

/-- BEGIN by the host; refused while a cycle runs, which counts as acting (R41). -/
def hostBegin (o : Nat) (s : State) : State × Bool :=
  if lockBusy s then (ev pgLock 0x0103 1 (bump pgLock 0x180 0 16 1 s), true)
  else (lockBegin false o (if s.lock.st = .refused then s.lock.members else []) s, true)

/-- GO by the host. -/
def hostGo (s : State) : State × Bool :=
  if s.lock.st = .fill && !s.lock.ownerMarshal then
    let s := lockGo (hostEpoch s) s
    (if s.lock.st = .refused then lockNext s else s, true)
  else lockIgnored s

/-- ABORT. -/
def hostAbort (s : State) : State × Bool :=
  if s.lock.st = .fill || s.lock.st = .level || (s.lock.st = .ready && s.lock.bound.isNone) then (lockRefuse 0x01 0 0 s, true)
  else lockIgnored s

/-- CLEAR. -/
def hostClear (s : State) : State × Bool :=
  if s.lock.st = .done then (setLock (fun l => { l with st := .idle }) s, true)
  else if s.lock.st = .refused then (setLock (fun l => { l with st := .idle, members := [] }) s, true)
  else lockIgnored s

/-- The events of one CTL_LOCK_CMD write in bit order, each judged in the state that the one before it left; whether one acted (R41). -/
def lockEvents (o : Nat) (v : Word) (s : State) : State × Bool :=
  let one (b : Nat) (f : State → State × Bool) (r : State × Bool) : State × Bool :=
    if bitOf v b then let (t, a) := f r.1; (t, r.2 || a) else r
  one 3 hostClear (one 2 hostAbort (one 1 hostGo (one 0 (hostBegin o) (s, false))))

/-! ## Levelling (R45) -/

/-- The new configuration: the frozen chamber words of member pages, live values elsewhere. -/
def newCfg (s : State) : State := (lockDirty s).foldl (fun a k => wr (k / 65536) (k % 65536) (chm k s) a) s

/-- The smaller of two pages, where each may be absent. -/
def lowPage (a b : Option Nat) : Option Nat :=
  match a, b with
  | some x, some y => some (min x y)
  | some x, none => some x
  | none, y => y

/-- The lowest page of a list. -/
def lowest (l : List Nat) : Option Nat := l.foldl (fun a x => lowPage a (some x)) none

/-- The queue that a destination map entry names for class Bk (R262). -/
def destQueue (d k : Nat) (s : State) : Nat :=
  if tb tbDst d 0 1 s then egressQ (tf tbDst d 0 2 8 s) (tf tbDst d 0 10 8 s) k else 8 * d + k

/-- A destination map entry that is not valid, whose local channel is not enabled, or whose queue of a class in `ks` does not exist or is
not enabled; the lowest page involved (R45 check 4, R262). -/
def destBad (d : Nat) (ks : List Nat) (s : State) : Option Nat :=
  if !tb tbDst d 0 0 s then some 0x193
  else if tb tbDst d 0 1 s && !chEn (tf tbDst d 0 2 8 s) s then some (licPage (tf tbDst d 0 2 8 s))
  else if ks.any (fun k => !queueLive (destQueue d k s) s || !tb tbBq (destQueue d k s) 0 0 s) then some 0x191
  else none

/-- What a default action names that does not exist or is not enabled, as the lowest page involved (check 4). -/
def actionBad (src w : Nat) (s : State) : Option Nat :=
  let a := actAt tbSrc src w s
  let mine := 0x161 + src / 256
  let port := if fld a.w0 0 3 = 3 then (destBad (fld a.w1 0 16) (if 8 ≤ a.cls then [a.cls - 8] else []) s).map (min mine) else none
  let grp := if fld a.w0 0 3 = 4 && !tb tbBGrp (fld a.w1 0 16) 0 0 s then some mine else none
  let punt := if (fld a.w0 0 3 = 2 || bitOf a.w0 3) && !tb tbBq (puntQ (fld a.w2 18 9)) 0 0 s then some mine else none
  lowPage port (lowPage grp punt)

/-- Entries of a table whose W0 has bit 0 set. -/
def validOf (tab : Nat) (s : State) : List Nat :=
  s.regs.tbl.filterMap (fun e => if e.1 / 2 ^ 30 = tab && e.1 % 64 = 0 && bitOf e.2 0 then some (e.1 / 64 % 2 ^ 24) else none)

/-- A cross-block check: the lowest page involved when it fails (R45, checks 1 to 8). -/
def crossCheck (n : Nat) (s : State) : Option Nat :=
  match n with
  | 1 => ((channels s).find? (fun c => chEn c s && chSpeed c s != 0 && (match chRow c s with
      | some (_, r) => groupClash c r s
      | none => false))).map licPage
  | 2 => ((channels s).find? (fun c => portRateBad c s)).map licPage
  | 3 =>
    let mn (p : Nat) : Nat := rf pgBas (0x400 + 4 * p) 0 21 s
    if berthCount < ((List.range 64).map mn).sum || (List.range 64).any (fun p => decide (rf pgBas (0x500 + 4 * p) 0 21 s < mn p)) then
      some pgBas else none
  | 4 => lowest ((List.range 289).filterMap (fun src => lowPage (actionBad src 4 s) (actionBad src 8 s)) ++
      (validOf tbDst s).filterMap (fun d => destBad d (List.range 8) s))
  | 5 =>
    let bank := rf pgExp 0x100 0 1 s
    ((List.range 289).find? (fun src =>
      let a := actAt tbSrc src 4 s
      bitOf a.w0 4 && decide (a.cls < 8) && (opened bank src a.cls s).isNone)).map (fun src => 0x161 + src / 256)
  | 6 => if (validOf tbDst s).any (fun d => !tb tbDst d 0 1 s && !tb tbFPort d 0 0 s) then some 0x193 else none
  | 7 => if 400000 < captureRate s then some 0x1D1 else none
  | 8 => lowest ((validOf tbPw s).filterMap (fun k =>
      match slotOwner (tf tbPw k 0 3 14 s / 63) s with
      | some (c, _) => if chEn (sdhLic c s) s then none else some (licPage (sdhLic c s))
      | none => some 0x140))
  | _ => none

/-- Pages of the blocks whose configuration a check reads (R45). -/
def crossPages (n p : Nat) : Bool :=
  let b := (pageBlock p).1
  let blocks : List Nat := match n with
    | 1 => [0x04] | 2 => [0x0A, 0x04] | 3 => [0x09] | 4 => [0x06, 0x09, 0x04] | 5 => [0x06, 0x08, 0x03] | 6 => [0x09, 0x0B]
    | 7 => [0x0D, 0x04] | 8 => [0x05, 0x04] | _ => []
  blocks.contains b

/-- LEVELLING_RESULT: one result, in the order of precedence of R45. -/
def levelling (s : State) : State :=
  if s.lock.st != .level then s
  else
    let cfg := newCfg s
    let ms := s.lock.members
    let bad := ms.filterMap (fun p => (pageCheck p s cfg).map (fun r => (p, r)))
    let s := setLock (fun l => { l with
      pass := ms.filter (fun p => !(bad.map (·.1)).contains p)
      fail := bad.map (·.1)
      why := ms.foldl (fun a p => put 0 a p ((find? bad p).getD 0)) l.why }) s
    let s := if s.lock.pass.contains pgExp then setExp (fun e => { e with allowOver := false }) s else s
    match bad with
    | (p, r) :: _ => lockRefuse 0x04 p r s
    | [] =>
      match (upto 1 8).findSome? (fun n => if ms.any (crossPages n) then (crossCheck n cfg).map (fun p => (n, p)) else none) with
      | some (n, p) => lockRefuse 0x05 p n s
      | none =>
        match ms.find? (fun p => (readyOf p s).1 != 3) with
        | some p => lockRefuse 0x0D p 9 s
        | none => setLock (fun l => { l with st := .ready }) s

/-! ## Preannouncement and boundary (R46-R51) -/

/-- A barge of a frame of an earlier generation (R48). -/
def oldBarge (g : Nat) (b : Barge) : Bool := b.own.elim false (fun o => decide (o.gen < g))

/-- A frame of an earlier generation is inside the fabric logic as barges: in a reorder context, an input buffer, or on its way out (R48,
R49). -/
def oldBarges (s : State) : Bool :=
  let old := oldBarge s.lock.gen
  s.fab.bulkOut.any old || s.fab.ctx.any (fun e => e.2.held.any old) ||
  s.fab.lanes.any (fun e => e.2.xq.any old || e.2.bulk.any old || e.2.tree.any old || e.2.stuck.any (fun x => old x.1))

/-- A frame of an earlier generation than the one in force is inside the device (R49). -/
def oldFrames (s : State) : Bool :=
  oldBarges s ||
  s.lic.frames.any (fun e => decide (e.2.gen < s.lock.gen)) ||
  s.lic.port.any (fun e => (e.2.rx.elim false (fun r => decide (r.gen < s.lock.gen))) || (e.2.ctx.elim false (fun r => decide (r.f.gen < s.lock.gen))))

/-- The mate's last BEAT does not carry this lock (R50). -/
def mateDisagrees (n : Nat) (s : State) : Bool :=
  let both (r : Nat) : Bool := r == 3 || r == 4
  both (roleCode s.pair.role) && both s.pair.info.role &&
  ((match s.pair.info.beatAt with
    | some t => decide (t + 24000 * 2 ^ 32 < s.tim.up)
    | none => true) || s.pair.info.digest != s.lock.digest || s.pair.info.lockEpoch != n)

/-- The preannouncement of epoch n is issued (R41, R46, R49-R51). -/
def lockPre (n : Nat) (s : State) : State :=
  if s.lock.st = .level && s.lock.applyEpoch = n then lockRefuse 0x07 0 0 s
  else if s.lock.st = .ready && s.lock.bound.isNone && (s.lock.applyEpoch = n || s.lock.applyEpoch = 0) then
    if s.link.fault || memFrozen s then lockRefuse 0x0B 0 0 s
    else if oldFrames s then lockRefuse 0x08 0 0 s
    else if mateDisagrees n s then lockRefuse 0x09 0 0 s
    else setLock (fun l => { l with bound := some n }) s
  else s

/-- Frame-judged registers (R47, R521, R278, R200). -/
def frameJudged (p off : Nat) : Bool :=
  (decide (0x040 ≤ p) && decide (p < 0x140) && off == 0x104) || p == 0x160 || p == 0x180 || (p == 0x188 && decide (0x200 ≤ off)) ||
  (p == 0x190 && decide (0x130 ≤ off))

/-- What the apply of one word starts in its block. -/
def lockHook (at_ p off : Nat) (old new : Word) (s : State) : State :=
  if p = 0x030 && off = 0x100 then pairPolicyEffect 0x50 s
  else if p = 0x180 && off = 0x100 then (if old = new then s else bankFlip s)
  else if p = 0x1A0 && off = 0x104 then (if old = new then s else bankFlipped s)
  else if p = 0x1A5 && 0x1000 ≤ off then (if off % 16 = 0 then gateApplied ((off - 0x1000) / 16) at_ s else s)
  else if p = 0x024 then s
  else match regAt p off with
    | some r => if r.acc = .rw && r.mask ≠ 0 && (regRefuses p off 0x60 new s).isEmpty then wroteHook p off 0x60 old new s else s
    | none => s

/-- What the apply starts in a member page as a whole. -/
def lockPageHook (before : State) (p : Nat) (s : State) : State :=
  if 0x040 ≤ p && p < 0x140 then licLocked (p - 0x040) (rd p 0x100 before) (rd p 0x108 before) s
  else if p = 0x160 then pacNoted s
  else if p = 0x190 then basApplied s
  else if p = 0x1B0 then fabConfigured s
  else s

/-- The staged words of `before` take effect in `s`. -/
def lockApply (ks : List Nat) (before s : State) : State :=
  ks.foldl (fun a k => wr (k / 65536) (k % 65536) (chm k before) a) s

/-- Boundary T: the staged words take effect, the old values stay for frames of the previous generation, the cycle is OPEN (R41, R47). -/
def lockOpen (n at_ : Nat) (s : State) : State :=
  let ks := lockDirty s
  let before := s
  let s := { s with regs := { s.regs with
    oldLive := ks.foldl (fun a k => ins a k (rdk k before)) []
    oldPages := ks.foldl (fun a k => if frameJudged (k / 65536) (k % 65536) then Sys2Proof.Machine.add a (k / 65536) else a) [] } }
  let s := lockApply ks before s
  let s := setLock (fun l => { l with st := .open_, gen := l.gen + 1, bound := none, appliedEpoch := n, openAt := at_ }) s
  let s := ks.foldl (fun a k => lockHook at_ (k / 65536) (k % 65536) (rdk k before) (chm k before) a) s
  let s := s.lock.members.foldl (fun a p => lockPageHook before p a) s
  pairLockApplied s.lock.digest s

/-- A boundary passes: a READY lock bound to it opens or is missed; LEVEL and a held request count it, unless the lock engine's own domain
missed it (R22, R41). -/
def lockBoundary (n at_ : Nat) (miss : List Nat) (s : State) : State :=
  if s.lock.st = .ready && s.lock.bound = some n then
    (if (pgLock :: s.lock.members).any (pageMissed miss) then lockRefuse 0x07 0 0 s else lockOpen n at_ s)
  else if pageMissed miss pgLock then s
  else
    let s := if s.lock.st = .level then ev pgLock 0x0104 1 (setLock (fun l => { l with levelEpochs := l.levelEpochs + 1 }) s) else s
    if s.lock.held.isSome then setLock (fun l => { l with heldEpochs := l.heldEpochs + 1 }) s else s

/-- A step has skipped boundaries: a lock named for one of them is refused (R89). -/
def lockSkipped (s : State) : State :=
  if (s.lock.st = .level || s.lock.st = .ready) && epochSkipped s.lock.applyEpoch s then lockRefuse 0x07 0 0 s
  else s

/-- LOCK_CONFIRM: every member page has confirmed; the record carries the instant T (R41, R53). -/
def lockConfirm (s : State) : State :=
  if s.lock.st != .open_ then s
  else
    let ks := lockDirty s
    let n := s.lock.members.length
    let s := { s with regs := { s.regs with dirty := s.regs.dirty.filter (fun k => !ks.contains k) } }
    let s := setLock (fun l => { l with st := .done, members := [], reason := 0 }) s
    let s := if s.lock.ownerMarshal then { s with msh := { s.msh with lockReason := 0, lockApplied := true } } else s
    let s := logAt s.lock.openAt (s.lock.appliedEpoch % 128) pgLock n 0x60 0x06 s.lock.digest (lockW6 s.lock.gen s) s
    lockNext (ev pgLock 0x0101 1 s)

/-- LEVEL_TIMEOUT. -/
def levelTimeout (s : State) : State :=
  if s.lock.st = .level && decide (2 ≤ s.lock.levelEpochs) then lockRefuse 0x06 0 0 s else s

/-- PREEMPT_TIMEOUT. -/
def preemptTimeout (s : State) : State :=
  if s.lock.st = .fill && !s.lock.ownerMarshal && s.lock.held.isSome && decide (16 ≤ s.lock.heldEpochs) then lockRefuse 0x0C 0 0 s else s

/-- OLD_COPY_RELEASE: no frame of the previous generation remains (R48). -/
def oldCopyRelease (s : State) : State :=
  if oldFrames s then s else { s with regs := { s.regs with oldLive := [], oldPages := [] } }

/-! ## Meanings -/

def execPreemptTimeout (t : Nat) (s : State) : Res := onLive (fun s => preemptTimeout (advance t s)) s
def execLevellingResult (t : Nat) (s : State) : Res := onLive (fun s => levelling (advance t s)) s
def execLevelTimeout (t : Nat) (s : State) : Res := onLive (fun s => levelTimeout (advance t s)) s
def execLockConfirm (t : Nat) (s : State) : Res := onLive (fun s => lockConfirm (advance t s)) s
def execOldCopyRelease (t : Nat) (s : State) : Res := onLive (fun s => oldCopyRelease (advance t s)) s

end Sys2Proof.Machine
end

