-- ==== Sys2Proof/Machine/Access.lean ====
section
/-! DEFINITION. One DW access to a page: live registers, the common header, chamber words and table windows, with the access codes, the log records and the read latches of R32-R39, R57 and R518-R520; and the soft reset of a page. -/
namespace Sys2Proof.Machine

/-- What a write leaves, and whether the page took it whole with no status bit (R492). -/
abbrev Took := State × Bool

/-! ## Reading a register -/

/-- PG_CTL as it reads (R32). -/
def pgCtl (p : Nat) (s : State) : Word :=
  if 0x1000 ≤ p then 1 else w32 (b2n (rb p 0x008 0 s) + b2n (s.lock.members.contains p) * 4)

/-- PG_CHAMBER_STAT (R32). -/
def chamberStat (p : Nat) (s : State) : Word :=
  w32 (dirtyCount p s + b2n (frozenPage p s) * 2 ^ 12 + b2n (s.lock.pass.contains p) * 2 ^ 13 + b2n (s.lock.fail.contains p) * 2 ^ 14 +
    b2n (s.regs.oldPages.contains p) * 2 ^ 15 + look 0 s.lock.why p % 256 * 2 ^ 16)

/-- PG_ID: block, instance, layout version 1 (R32, R448). -/
def pgId (p : Nat) : Word :=
  if 0x1000 ≤ p then w32 (0x0E * 2 ^ 24 + (0x040 + (p - 0x1000)) * 2 ^ 12 + pageLayout)
  else w32 ((pageBlock p).1 * 2 ^ 24 + (p - (pageBlock p).2) * 2 ^ 12 + pageLayout)

/-- The low or the high word of a number of 64 bits. -/
def half (hi : Bool) (v : Nat) : Word := w32 (if hi then v / 2 ^ 32 else v)

/-- A register of the common header (R32, R61-R64). -/
def headShown (p off : Nat) (s : State) : Word :=
  if off = 0x000 then pgId p
  else if off = 0x004 then w32 (Config.hwRev p % 65536)
  else if off = 0x008 then pgCtl p s
  else if off = 0x010 then (if 0x1000 ≤ p then readyWord 0x018 s else readyWord p s)
  else if off = 0x014 then w32 (b2n (find? s.regs.posted p).isSome + b2n (s.regs.softRst.contains p) * 2)
  else if off = 0x020 then half false (pgCyc p s)
  else if off = 0x024 then half true (pgCyc p s)
  else if 0x050 ≤ off && off < 0x090 then half (off % 8 == 4) (look 0 s.regs.pm (p * 8 + (off - 0x050) / 8))
  else if off = 0x090 then chamberStat p s
  else if off = 0x098 then half false (look 0 s.regs.cycSnap p)
  else if off = 0x09C then half true (look 0 s.regs.cycSnap p)
  else if 0x0A0 ≤ off && off < 0x0E0 then half (off % 8 == 4) (look 0 s.regs.pmSnap (p * 8 + (off - 0x0A0) / 8))
  else if off = 0x0E0 then half false (look 0 s.regs.snapEpoch p)
  else if off = 0x0E4 then half true (look 0 s.regs.snapEpoch p)
  else rd p off s

/-- The current value of a register below offset 0x4000, before latches; a reserved offset shows zero (R8). -/
def shown (p off : Nat) (s : State) : Word :=
  if off < 0x100 then headShown p off s
  else if 0x1000 ≤ p then (if off = 0x100 then w32 (p - 0x1000) else if off = 0x104 then w32 (look 0 s.hif.vfEvents (p - 0x1000)) else 0)
  else match roReg p off s with
    | some w => w
    | none => match regAt p off with
      | some r => if r.acc = .w1 then 0 else rd p off s
      | none => 0

/-- The words that a read of a register latches for its origin (R37, R71 and the register tables). -/
def latchSet (p off : Nat) : List Nat :=
  if off < 0x100 then
    (if off = 0x020 || off = 0x098 || off = 0x0E0 || (0x050 ≤ off && off < 0x090 && off % 8 = 0) || (0x0A0 ≤ off && off < 0x0E0 && off % 8 = 0)
     then [off + 4] else [])
  else
    let abc : List (Nat × Nat) := [(0x010, 0x100), (0x012, 0x124), (0x030, 0x130), (0x1D0, 0x130), (0x1D0, 0x13C)]
    let ab : List (Nat × Nat) := [(0x000, 0x110), (0x001, 0x108), (0x001, 0x110), (0x002, 0x120), (0x003, 0x108), (0x010, 0x128), (0x010, 0x138),
      (0x020, 0x104), (0x020, 0x110), (0x020, 0x124), (0x022, 0x104), (0x022, 0x10C), (0x030, 0x108), (0x030, 0x114), (0x030, 0x128),
      (0x170, 0x124), (0x18B, 0x104), (0x1B0, 0x10C)]
    if abc.contains (p, off) then [off + 4, off + 8]
    else if ab.contains (p, off) then [off + 4]
    else if p = 0x011 && off = 0x110 then [0x114, 0x118, 0x11C, 0x120]
    else if p = 0x170 && off = 0x134 then [0x138, 0x13C]
    else if 0x1C0 ≤ p && p < 0x1CC && off = 0x120 then [0x124, 0x128]
    else []

/-- The key of a latched word of an origin. -/
def lkey (o k : Nat) : Nat := o * 2 ^ 48 + k

def setLatch (o k : Nat) (w : Word) (s : State) : State :=
  { s with regs := { s.regs with latch := ins s.regs.latch (lkey o k) w } }

/-- The words that the FTB's notification FIFO shows behind its first. -/
def latchWord (p off : Nat) (s : State) : Word :=
  if p = 0x170 && off = 0x138 then (ntfWords s).1 else if p = 0x170 && off = 0x13C then (ntfWords s).2 else shown p off s

/-- The latched value of a word, or its current one. -/
def latched (o k : Nat) (cur : Word) (s : State) : Word := (find? s.regs.latch (lkey o k)).getD cur

/-- The bits that an RC read returned are cleared (R36). -/
def rcClear (p off : Nat) (v : Word) (s : State) : State :=
  if 0x1000 ≤ p && off = 0x104 then { s with hif := { s.hif with vfEvents := put 0 s.hif.vfEvents (p - 0x1000) 0 } }
  else wr p off (rd p off s &&& ~~~v) s

/-- The words that show what a read of their first word latched and zero before one: PG_CYC_HI and the time words B and C (R32, R71). -/
def latchOnly (p off : Nat) : Bool := off == 0x024 || (p == 0x010 && (off == 0x104 || off == 0x108))

/-- The register is RC. -/
def isRc (p off : Nat) : Bool :=
  (0x1000 ≤ p && off == 0x104) || (match regAt p off with
    | some r => r.acc == .rc
    | none => false)

/-- A read of a register below offset 0x4000. -/
def regRead (p off o : Nat) (s : State) : Word × State :=
  let v := if isRc p off then shown p off s else latched o (rkey p off) (if latchOnly p off then 0 else latchWord p off s) s
  let s := (latchSet p off).foldl (fun a h => setLatch o (rkey p h) (latchWord p h s) a) s
  (v, if isRc p off then rcClear p off v s else s)

/-- A read of a window word. Word 0 of a counter pair latches the pair, and COUNT of a histogram the rest of it, for the
origin (R194, R226). `sb` is the state with the base register that holds for the access. -/
def winRead (p off o : Nat) (sb s : State) : Word × State :=
  if p = 0x174 then
    (match cntWin off sb with
     | some (i, w) =>
       let k (w : Nat) : Nat := 2 ^ 40 + i * 4 + w
       if w = 0 then
         (cntWord i 0 s, cntCleared i ([1, 2, 3].foldl (fun a w => setLatch o (k w) (cntWord i w s) a) s))
       else (latched o (k w) (cntWord i w s) s, s)
     | none => (0, s))
  else if p = 0x186 then
    let h := (off - 0x4000) / 256
    let w := (off - 0x4000) % 256 / 4
    let k (w : Nat) : Nat := 2 ^ 41 + h * 64 + w
    let cur (w : Nat) : Word := winWord p (0x4000 + h * 256 + w * 4) o s
    if w = 10 then (cur 10, ([11, 12] ++ upto 32 32).foldl (fun a w => setLatch o (k w) (cur w) a) s)
    else if w = 11 || w = 12 || 32 ≤ w then (latched o (k w) (cur w) s, s)
    else (cur w, s)
  else (winWord p off o sb, s)

/-- The chamber word at a chamber offset: zero where the live register has none (R39). -/
def chamberShown (p off : Nat) (s : State) : Word :=
  match regAt p (off - 0x8000) with
  | some r => if r.acc == .rw || r.acc == .rwd || r.acc == .sf then chm (rkey p (off - 0x8000)) s else 0
  | none => 0

/-- A read of one DW that no rule refuses. -/
def dwRead (p off o : Nat) (sb s : State) : Word × State :=
  if !pageLive p s then (0, s)
  else
    let s := ev p 0x0002 1 s
    if conHidden p off o s then (0, s)
    else if off < 0x4000 then (if off = 0x100 && hasBase p then (rd p off sb, s) else regRead p off o s)
    else if off < 0x8000 then winRead p off o sb s
    else if 0x8100 ≤ off && off < 0xC000 then (chamberShown p off s, s)
    else (0, s)

/-! ## Writing a register -/

/-- A write that a rule refuses: each status bit with its event, and one record that names the lowest bit (R33, R53). It writes nothing,
so it closes no table batch (DESIGN CHOICE, log entry 212). -/
def refuseWrite (p off o : Nat) (bits : List Nat) (v : Word) (s : State) : Took :=
  let s := bits.foldl (fun a b => ev p (statEvent b) 1 (setStat p b a)) s
  (logAccess (logPage p) off o 0x05 v.toNat (bits.foldl min 31) s, false)

/-- A write that takes effect, unless the log is holding and would need a record of it (R59). -/
def gate (p o : Nat) (f : State → State) (s : State) : Took :=
  if heldOrigin (logPage p) o s then (logHeld (ev p 0x0005 1 (setStat p 0 s)), false) else (f s, true)

/-- A live register of the header takes a value. -/
def headPut (p off o : Nat) (old new : Word) (f : State → State) (s : State) : Took :=
  gate p o (fun s => logWrite p off o old new (accepted p off o false (f s))) s

/-- Origins of the host side (R40). -/
def lockHost (o : Nat) : Bool := pfSide o || o == 0x7E

/-- CHAMBER_SYNC: every live register is copied into its chamber word, and no word is dirty (R32). -/
def chamberSync (p : Nat) (s : State) : State :=
  let mine (k : Nat) : Bool := k / 65536 == p && decide (0x100 ≤ k % 65536)
  let staged (k : Nat) : Bool := match regAt p (k % 65536) with
    | some r => r.acc == .rw || r.acc == .rwd || r.acc == .sf
    | none => false
  let ch := s.regs.chamber.filter (fun e => !mine e.1)
  { s with regs := { s.regs with
    chamber := (s.regs.live.filter (fun e => mine e.1 && staged e.1)).foldl (fun a e => put (resetOf e.1) a e.1 e.2) ch
    dirty := s.regs.dirty.filter (fun k => !(k / 65536 == p)) } }

/-- How the fields of a PG_CTL write are judged (R519). -/
structure CtlJudge where
  /-- EN and LOCK_MEMBER after the write. -/
  en : Bool
  member : Bool
  rst : Bool
  sync : Bool
  /-- Status bits of the fields that a rule forbids, and the page check's reason. -/
  bits : List Nat
  why : Nat
  /-- A field changes or a W1 action starts. -/
  acts : Bool
  deriving DecidableEq, Repr

/-- The fields of a PG_CTL write, each under its own rule (R34, R42, R96, R471, R519); the check of page 0x180 runs at levelling
only (R208). -/
def ctlJudge (p o : Nat) (v : Word) (s : State) : CtlJudge :=
  let en := rb p 0x008 0 s
  let mem := s.lock.members.contains p
  let memBad := bitOf v 2 != mem && !(lockHost o && s.lock.st == .fill && !s.lock.ownerMarshal && !ctlSf p)
  let st := (readyOf p s).1
  let off := st == 0 || st == 1 || st == 4
  let why : Nat := if bitOf v 0 && !en && !off && !mem && p != pgExp then (pageCheck p s s).getD 0 else 0
  let shows := (decide (0x040 ≤ p) && decide (p < 0x160)) || [0x190, 0x1B0, 0x1D0, 0x1D1, 0x1D2].contains p
  let upBad := bitOf v 0 && !en && (off || why != 0)
  let downBad := !bitOf v 0 && en && memKeepsEn p s
  let rstBad := bitOf v 1 && en
  let en' := if upBad || downBad then en else bitOf v 0
  let mem' := if memBad then mem else bitOf v 2
  let rst := bitOf v 1 && !en
  ⟨en', mem', rst, bitOf v 3,
   (if upBad || downBad || rstBad then [0] else []) ++ (if memBad then [4] else []) ++ (if why != 0 && shows then [8] else []),
   why, en' != en || mem' != mem || rst || bitOf v 3⟩

/-- A PG_CTL write whose fields have been judged takes effect. -/
def ctlApply (p : Nat) (j : CtlJudge) (s : State) : State :=
  let en := rb p 0x008 0 s
  let s := wr p 0x008 (w32 (b2n j.en)) s
  let s := setLock (fun l => { l with members := if j.member then add l.members p else rem l.members p }) s
  let s := if j.rst then { s with regs := { s.regs with softRst := add s.regs.softRst p } } else s
  let s := if j.sync then chamberSync p s else s
  if j.en && !en then pageEnabled p s else if !j.en && en then pageDisabled p s else s

/-- A write of PG_CTL (R44, R519). -/
def ctlWrite (p o : Nat) (v : Word) (s : State) : Took :=
  if 0x1000 ≤ p then (s, false)
  else if frozenPage p s then refuseWrite p 0x008 o [4] v s
  else
    let j := ctlJudge p o v s
    let s := if j.why = 0 then s else setLock (fun l => { l with why := put 0 l.why p j.why }) s
    if !j.bits.isEmpty && !j.acts then refuseWrite p 0x008 o j.bits v s
    else
      let r := gate p o (fun s =>
        let old := pgCtl p s
        let s := j.bits.foldl (fun a b => ev p (statEvent b) 1 (setStat p b a)) s
        let new := w32 (b2n j.en + b2n j.member * 4)
        ctlApply p j (logWrite p 0x008 o old new (accepted p 0x008 o false s))) s
      (r.1, r.2 && j.bits.isEmpty)

/-- A performance counter takes a word (R62). -/
def pmPut (p off : Nat) (v : Word) (s : State) : State :=
  let k := p * 8 + (off - 0x050) / 8
  let c := look 0 s.regs.pm k
  { s with regs := { s.regs with
    pm := put 0 s.regs.pm k (if off % 8 = 0 then c / 2 ^ 32 * 2 ^ 32 + v.toNat else c % 2 ^ 32 + fld v 0 16 * 2 ^ 32) } }

/-- PG_PM_CTL.CLEAR: the eight counters are zero (R32). -/
def pmClear (p : Nat) (s : State) : State :=
  { s with regs := { s.regs with pm := s.regs.pm.filter (fun e => !(e.1 / 8 == p)) } }

/-- A write of a header register. -/
def headWrite (p off o : Nat) (v : Word) (s : State) : Took :=
  if off = 0x008 then ctlWrite p o v s
  else if off = 0x018 then headPut p off o (rd p off s) v (irqStep p (wr p off v)) s
  else if off = 0x028 then
    headPut p off o (rd p off s) (v &&& 0xF) (fun s => (fun s => if bitOf v 4 then pmClear p s else s) (wr p off (v &&& 0xF) s)) s
  else if 0x030 ≤ off && off < 0x050 then headPut p off o (rd p off s) (v &&& 0xFFFF) (wr p off (v &&& 0xFFFF)) s
  else if 0x050 ≤ off && off < 0x090 then
    headPut p off o (headShown p off s) (if off % 8 = 0 then v else v &&& 0xFFFF) (pmPut p off v) s
  else (s, false)

/-- The lock-only registers, which a marshal write does not change while the page is enabled (R415). -/
def lockOnly (p off : Nat) : Bool :=
  (p == 0x180 && (off == 0x100 || off == 0x108)) || (p == 0x188 && (off == 0x100 || (decide (0x200 ≤ off) && off % 16 == 0))) ||
  (p == 0x18B && off == 0x100) || (p == 0x1A5 && decide (0x1000 ≤ off) && decide (off < 0x2000)) ||
  (p == 0x030 && (off == 0x100 || (decide (0x140 ≤ off) && decide (off < 0x160)))) || (p == 0x025 && off == 0x100)

/-- A live write enters the chamber word too and clears its dirty mark, unless a lock cycle has frozen the word (R39, R44). -/
def chamberMirror (p off : Nat) (v : Word) (s : State) : State :=
  if frozenPage p s then s
  else
    let s := setChm (rkey p off) v s
    { s with regs := { s.regs with dirty := rem s.regs.dirty (rkey p off) } }

/-- The latches that hold a word are dropped when the word is written (DESIGN CHOICE, log entry 70). -/
def latchDrop (k : Nat) (s : State) : State :=
  { s with regs := { s.regs with latch := s.regs.latch.filter (fun e => !(e.1 % 2 ^ 48 == k)) } }

/-- The value that a register holds after a write; the bit of a reserved page in MSH_LOCK_PAGESi cannot be set (R42), and code 3 of
TIM_REF_CFG.SEL is ignored (R80). -/
def regNext (p off : Nat) (r : RegRow) (cur v : Word) (s : State) : Word :=
  let new := (cur &&& ~~~(w32 r.mask)) ||| (v &&& w32 r.mask)
  if 0x040 ≤ p && p < 0x140 && (off = 0x200 || off = 0x300 || off = 0x400) then laneCtlValue off cur new
  else if p = 0x012 && off = 0x100 && fld new 0 2 = 3 then cur
  else if p = 0x020 && 0x140 ≤ off && off < 0x180 then new &&& pageBits ((off - 0x140) / 4) (fun q => pageLive q s)
  else new

/-- What a write that has taken effect starts, MSH_LOCK_CMD.GO included (R422). -/
def startHook (p off o : Nat) (old v : Word) (s : State) : State :=
  if p = 0x020 && off = 0x120 then (if bitOf v 0 then marshalGo s else s) else wroteHook p off o old v s

/-- A write of an RW, RWD or SF register that takes effect. A register without writable storage starts an action with the value
written. -/
def regStore (p off o : Nat) (r : RegRow) (v : Word) (s : State) : State :=
  let old := if r.mask = 0 then 0 else shown p off s
  let new := regNext p off r (rd p off s) v s
  let given := if r.mask = 0 || (p = pgCon && off = 0x100) then v else new
  let s := accepted p off o false (chamberMirror p off new (latchDrop (rkey p off) (wr p off new s)))
  if p = pgLog then logWrite p off o old given (startHook p off o old given s)
  else startHook p off o old given (logWrite p off o old given s)

/-- A write of CTL_LOCK_CMD: one record, which tells whether one of its events acted (R41). -/
def lockCmd (o : Nat) (v : Word) (s : State) : Took :=
  if (lockEvents o v s).2 then
    gate pgLock o (fun s => (lockEvents o v (logWrite pgLock 0x100 o 0 v (accepted pgLock 0x100 o false s))).1) s
  else refuseWrite pgLock 0x100 o [0] v (lockEvents o v s).1

/-- A write of a register in the live range. -/
def regWrite (p off o : Nat) (v : Word) (s : State) : Took :=
  match regAt p off with
  | none => (s, false)
  | some r =>
    if r.acc = .ro || r.acc = .rc then (s, false)
    else if r.acc = .rwd && (rb p 0x008 0 s || frozenPage p s) then refuseWrite p off o [0] v s
    else if r.acc = .sf && lockOnly p off && rb p 0x008 0 s then refuseWrite p off o [0] v s
    else
      let bits := regRefuses p off o v s
      if !bits.isEmpty then refuseWrite p off o bits v s
      else if r.acc = .wp then
        (if (find? s.regs.posted p).isSome then refuseWrite p off o [5] v s
         else gate p o (fun s => accepted p off o false { s with regs := { s.regs with posted := ins s.regs.posted p (off, v, o) } }) s)
      else if r.acc = .w1 then
        (if p = pgLock then lockCmd o v s
         else gate p o (fun s => wroteHook p off o 0 v (logWrite p off o 0 v (accepted p off o false s))) s)
      else gate p o (regStore p off o r v) s

/-- A posted write lands: its value, its record and what it starts (R35, R55). Its record is due now, so a log that has begun to hold since
the write was accepted discards it (DESIGN CHOICE, log entry 213). -/
def postedLand (p : Nat) (s : State) : State :=
  match find? s.regs.posted p with
  | none => s
  | some (off, v, o) =>
    let s := { s with regs := { s.regs with posted := del s.regs.posted p } }
    (gate p o (fun s =>
      let old := rd p off s
      wroteHook p off o old v (logWrite p off o old v (wr p off v s))) s).1

/-- A write of a chamber word (R39, R43, R44). -/
def chamberWrite (p off o : Nat) (v : Word) (s : State) : Took :=
  match regAt p (off - 0x8000) with
  | none => (s, false)
  | some r =>
    if !(r.acc == .rw || r.acc == .rwd || r.acc == .sf) then refuseWrite p off o [0] v s
    else if frozenPage p s then refuseWrite p off o [4] v s
    else gate p o (fun s =>
      let k := rkey p (off - 0x8000)
      let old := chm k s
      let new := regNext p (off - 0x8000) r old v s
      let s := accepted p off o true (setChm k new s)
      let s := { s with regs := { s.regs with dirty := add s.regs.dirty k } }
      logRec p off o 0x02 old.toNat new.toNat (batchClose (fun b => b.origin == o && !(b.page == p)) s)) s

/-! ## Table windows -/

/-- A table write joins its origin's batch, or opens one; the origin's other batches and other origins' batches on the table close (R57, R520). -/
def batchJoin (p tab o index : Nat) (contrib : Bytes) (s : State) : State :=
  let here (b : Batch) : Bool := b.page == p && b.table == tab
  let s := batchClose (fun b => (b.origin == o) != here b) s
  let grow (b : Batch) : Batch := { b with count := b.count + 1, crc := contrib.foldl (crcByteR 0x82F63B78) b.crc }
  let bs := s.log.batches
  let bs := if bs.any (fun b => b.origin == o && here b) then bs.map (fun b => if b.origin == o && here b then grow b else b)
    else bs ++ [grow ⟨p, tab, o, index, 0, 0xFFFFFFFF, nowStamp s, epochHere s % 128⟩]
  batchClose (fun b => decide (256 ≤ b.count)) { s with log := { s.log with batches := bs } }

/-- Three little-endian words of a table write (R520). -/
def contribOf (index wordNo : Nat) (v : Word) : Bytes := toLE 4 index ++ toLE 4 wordNo ++ toLE 4 v.toNat

/-- The key of a table word's page of staged words. -/
def stagedHere (r : WinRef) (k : Nat) : Bool := k / 64 == r.tab * 2 ^ 24 + r.idx

/-- The value that a word of the entry will hold once its commit stores the staged words. -/
def stagedWord (r : WinRef) (w : Nat) (s : State) : Word := (find? s.regs.staged (tkey r.tab r.idx w)).getD (tw r.tab r.idx w s)

/-- The PG_STAT bits that a block sets when it discards a window write; none when it takes the write. -/
def winRefuses (p o : Nat) (r : WinRef) (v : Word) (s : State) : List Nat :=
  let w0 := (tw r.tab r.idx 0 s &&& ~~~(w32 r.mask)) ||| (v &&& w32 r.mask)
  let z (b : Bool) : List Nat := if b then [0] else []
  if (p == 0x005 || p == 0x006) && isVf o then [0]
  else if r.tab = tbPet then (if petWinRefused o s then [0, 8] else [])
  else if r.tab = tbConI then (if conForeign o s then [8] else [])
  else if r.tab = tbCls || r.tab = tbSrc then
    (if pacLiveEntry r s then [0, 8]
     else z (pacOddSlot r s || (r.word == 0 && pacCommitBad r (stagedWord r 8 s))))
  else if r.tab = tbCmd then z (ftbBusy r s)
  else if expBankBusy r s then [0, 8]
  else if r.tab = tbNodeT then z (r.word == 0 && nodeCommitBad r w0 s)
  else if fabRefuses r s then [0]
  else if r.tab = tbFn then z (!pfSide o)
  else if r.tab = tbGrant then z (r.word == 0 && grantBad w0 o s)
  else if r.tab = tbMbx then z (mbxBufRefused (r.idx / 8) (r.idx % 8) o s)
  else if r.tab = tbMbxC then z (mbxWrite (r.idx / 8) (r.idx % 8) o v s).isNone
  else if r.tab = tbPt || r.tab = tbHist then z ((r.word == 4 || r.word == 7) && !stampAValid v)
  else match pcrRefuses r (r.word == 0) (stagedWord r 1 s) s with
    | some 0 => [0]
    | some b => [0, b]
    | none => []

/-- What the storing of an entry starts in its block. `before` is the state before it. -/
def winCommitted (before : State) (r : WinRef) (v : Word) (s : State) : State :=
  if r.tab = tbIrqMap then irqEdge before (vecOf r.idx s) s
  else if r.tab = tbCal then userWritten r.idx r.word (tw tbCal r.idx r.word before) s
  else if r.tab = tbHist then (if r.word = 3 && bitOf v 0 then histClear r.idx s else s)
  else if r.tab = tbFn then fnCommitted r.idx s
  else if r.tab = tbPw then sdhCommitted r s
  else if r.tab = tbCls then { s with pac := { s.pac with slotWr := some (r.idx, cycUp 0x160 s.tim.up) } }
  else if r.tab = tbStr || r.tab = tbNodeT then dupCommitted r s
  else if r.tab = tbPol || r.tab = tbProf || r.tab = tbNode || r.tab = tbQ then pcrCommitted r (tb tbPol r.idx 0 0 before) s
  else if r.tab = tbLane || r.tab = tbRt || r.tab = tbFPort then fabCommitted r s
  else if r.tab = tbTgt then arcCommitted r s
  else ftbCommitted r s

/-- The staged words of an entry become its words, and none stays staged (R127). -/
def commitStaged (r : WinRef) (s : State) : State :=
  let ws := s.regs.staged.filter (fun e => stagedHere r e.1)
  let s := ws.foldl (fun a e => tput r.tab r.idx (e.1 % 64) e.2 a) s
  { s with regs := { s.regs with staged := s.regs.staged.filter (fun e => !stagedHere r e.1) } }

/-- A commit of a queue pair entry: the words that R451 lets change; a VF keeps its fixed vector (R448). Also whether all of it took effect. -/
def qpStore (o : Nat) (r : WinRef) (v : Word) (s : State) : State × Bool :=
  let old0 := tw tbQp r.idx 0 s
  let w0 := if isVf o then setFld v 12 11 (fld old0 12 11) else v
  let (new, cut) := qpCommit r.idx (fun w => if w = 0 then w0 &&& w32 r.mask else stagedWord r w s) s
  let s := (List.range 5).foldl (fun a w => tput tbQp r.idx w (new w) a) s
  (qpCommitted r.idx old0 { s with regs := { s.regs with staged := s.regs.staged.filter (fun e => !stagedHere r e.1) } }, !cut)

/-- A window write takes effect: a word of an entry is staged, stored, or commits the entry. -/
def winStore (o : Nat) (r : WinRef) (v : Word) (s : State) : State :=
  let before := s
  let m := w32 r.mask
  let new := sdhStored r ((tw r.tab r.idx r.word s &&& ~~~m) ||| (v &&& m))
  if r.staged && r.word ≠ 0 then
    { s with regs := { s.regs with staged := ins s.regs.staged (tkey r.tab r.idx r.word) new } }
  else if r.tab = tbMbxC then (mbxWrite (r.idx / 8) (r.idx % 8) o v s).getD s
  else if r.tab = tbQp then (qpStore o r v s).1
  else
    let s := if r.tab = tbPet then petWinTaken o s else s
    let s := if r.staged then commitStaged r s else s
    let s := if r.tab = tbHist && r.word = 3 then s else tput r.tab r.idx r.word new s
    winCommitted before r v s

/-- A write of a window word that holds a counter of page 0x174 (R194). -/
def cntWrite (o : Nat) (sb : State) (off : Nat) (v : Word) (s : State) : Took :=
  match cntWin off sb with
  | none => (s, false)
  | some (i, w) => gate 0x174 o (fun s =>
      let s := latchDrop (2 ^ 40 + i * 4 + w) s
      batchJoin 0x174 0x4000 o i (contribOf i w v) (cntPut i w v (accepted 0x174 off o false s))) s

/-- A write of a table window word (R127, R518, R520). A commit of which a part is discarded sets WR_IGNORED for that part and
stores the rest (R451). `sb` is the state with the base register that holds for the access. -/
def winWrite (p off o : Nat) (sb : State) (v : Word) (s : State) : Took :=
  if p = 0x174 then cntWrite o sb off v s
  else match winRef p off o sb with
    | none => (s, false)
    | some r =>
      if r.absent then refuseWrite p off o [0] v s
      else if r.mask = 0 then (s, false)
      else
        let bits := winRefuses p o r v s
        if !bits.isEmpty then
          let s := if r.tab = tbCls && bits.contains 8 then ev p 0x0114 1 s else s
          refuseWrite p off o bits v s
        else if r.tab = tbCmd && r.word ≠ 0 then (accepted p off o false (winStore o r v s), true)
        else if r.tab = tbCmd then
          gate p o (fun s =>
            let s := accepted p off o false (winStore o r v s)
            batchJoin p r.table o r.index (toLE 4 r.index ++ (List.range 16).flatMap (fun w => toLE 4 (tw tbCmd r.idx w s).toNat)) s) s
        else if r.tab = tbQp && r.word = 0 && !(qpStore o r v s).2 then
          (if heldOrigin p o s then refuseWrite p off o [0] v s else refuseWrite p off o [0] v (winStore o r v s))
        else gate p o (fun s =>
          batchJoin p r.table o r.index (contribOf r.index r.wordNo v) (winStore o r v (accepted p off o false s))) s

/-- A write of one DW that no rule refuses. -/
def dwWrite (p off o be : Nat) (sb : State) (v : Word) (s : State) : Took :=
  if !pageLive p s then (s, false)
  else if be ≠ 0xF then (ignore p off o 0 v s, false)
  else if off < 0x100 then headWrite p off o v s
  else if off < 0x4000 then regWrite p off o v s
  else if off < 0x8000 then winWrite p off o sb v s
  else if 0x8100 ≤ off && off < 0xC000 then chamberWrite p off o v s
  else (s, false)

/-! ## Soft reset (R34) -/

/-- Frames that a block held leave the device with it. -/
def framesGone (ids : List Nat) (s : State) : State :=
  { s with lic := { s.lic with frames := s.lic.frames.filter (fun e => !ids.contains e.1) } }

/-- Block state returns to its reset values; what no page owns, or what must outlive the page, stays (DESIGN CHOICE, log entry 71). -/
def blockReset (p : Nat) (s : State) : State :=
  if p = pgLock then setLock (fun l => { paired := l.paired }) s
  else if p = pgLog then { s with log := {} }
  else if p = pgSnap then { s with snap := {} }
  else if p = pgIrq then { s with irq := {} }
  else if p = 0x010 then
    { s with tim := { s.tim with
      run := false, nextIssue := 0, issued := none, missPages := [], inForce := none, firstB := 0, stretch := [], step := none, servo := .free, acc := 0,
      inRun := 0, outRun := 0, adjHist := [], backStep := false, holdStart := 0, lastInput := 0, replicaErr := 0, pendOfs := none } }
  else if p = 0x011 then { s with tim := { s.tim with txts := [] } }
  else if p = 0x012 then
    { s with tim := { s.tim with refActive := 0, refPending := none, sqA := false, sqB := false, ppsIn := none, ppsUp := 0, ppsOut := none, tenmOut := none, ppsFall := 0 } }
  else if p = 0x018 then { s with hif := { s.hif with fn := [], vfEvents := [], errLast := 0, cache := [] } }
  else if p = 0x019 then { s with hif := { s.hif with qp := [] } }
  else if p = 0x01A then { s with hif := { s.hif with mbx := [] } }
  else if p = pgPet || p = pgCon then mshSoftReset p s
  else if p = pgSt then setHeat (fun _ => {}) s
  else if p = pgPair then { s with pair := { mute := s.pair.mute, policyPending := s.pair.policyPending } }
  else if 0x040 ≤ p && p < 0x140 then setPort (p - 0x040) (fun _ => {}) s
  else if 0x140 ≤ p && p < 0x160 then
    let c := p - 0x140
    { s with sdh := { s.sdh with
      ch := del s.sdh.ch c
      path := s.sdh.path.filter (fun e => !(e.1 / 64 == c))
      ent := s.sdh.ent.filter (fun e => !(e.1 / 65536 == c))
      bin := s.sdh.bin.filter (fun e => !(e.1 / 4 / 65536 % 32 == c))
      trib := if c = 0 then [] else s.sdh.trib
      pw := if c = 0 then [] else s.sdh.pw } }
  else if p = 0x160 then
    let ids := s.pac.fifo.flatMap (·.2) ++ s.pac.inPipe.map (·.id) ++ s.pac.held.filterMap (·.frame) ++ s.pac.comps.filterMap (·.frame) ++
      s.pac.lookups ++ s.pac.outX.map (·.1) ++ s.pac.outB
    framesGone ids { s with pac := { retired := s.pac.retired, heat := s.pac.heat, draining := s.pac.draining, idle := s.pac.idle } }
  else if p = 0x170 then { s with ftb := {} }
  else if p = 0x174 then { s with ftb := { s.ftb with cnt := [] } }
  else if p = 0x180 then
    framesGone (s.exp.frames.map (·.1)) (setExp (fun e => { e with
      level := [], frames := [], inflight := [], refused := [], order := 0, fsRing := [], fsSeq := 0, refuseLast := 0, allowOver := false
      copyBusy := false, hist := [], pins := [] }) s)
  else if p = 0x188 then
    setExp (fun e => { e with
      nodes := [], bulkDup := [], redWait := [], streams := [], pairSeq := [], pairCnt := [], lateLast := 0, stageB := [] }) s
  else if p = 0x18B then setExp (fun e => { e with units := [], sealLast := 0, sealSlot := 0 }) s
  else if p = 0x190 then
    framesGone (s.bas.frames.map (·.1) ++ s.bas.desc.map (·.1))
      { s with bas := { memReady := s.bas.memReady, credit := s.bas.credit, creditAt := s.bas.creditAt } }
  else if p = 0x1A0 then setPcr (fun q => { gate := q.gate }) s
  else if p = 0x1A5 then setPcr (fun q => { q with gate := [] }) s
  else if p = 0x1B0 then { s with fab := {} }
  else if 0x1C0 ≤ p && p < 0x1CC then
    setCtl (p - 0x1C0) (fun m => { st := m.st, rwin := m.rwin, wwin := m.wwin, lane := m.lane, repaired := m.repaired, temp := m.temp, hot := m.hot }) s
  else if p = 0x1D0 then { s with arc := {} }
  else s

/-- The page whose windows show a word of a table, by the table and the entry. -/
def tableOwner (tab idx : Nat) : Nat :=
  let at_ : Tab Nat := [(tbIrqMap, 0x004), (tbCal, 0x011), (tbCls, 0x160), (tbNh, 0x171), (tbGroup, 0x172), (tbMember, 0x172), (tbVlan, 0x173),
    (tbPort, 0x173), (tbSmac, 0x173), (tbPart, 0x175), (tbCmd, 0x170), (tbMap, 0x181), (tbCon, 0x182), (tbOpen, 0x183), (tbAlw, 0x184),
    (tbGrp, 0x185), (tbHist, 0x186), (tbNodeT, 0x189), (tbStr, 0x18A), (tbBq, 0x191), (tbWeir, 0x192), (tbDst, 0x193), (tbBGrp, 0x194),
    (tbMbr, 0x195), (tbMir, 0x196), (tbPmir, 0x196), (tbNode, 0x1A1), (tbQ, 0x1A2), (tbProf, 0x1A3), (tbPol, 0x1A4), (tbGcl, 0x1A5),
    (tbPfc, 0x1A6), (tbLane, 0x1B1), (tbFPort, 0x1B2), (tbRt, 0x1B3), (tbTree, 0x1B4), (tbPref, 0x1B6), (tbPt, 0x1D1), (tbTgt, 0x1D2),
    (tbFn, 0x018), (tbQp, 0x019), (tbMbx, 0x01A), (tbMbxC, 0x01A), (tbGrant, 0x01B), (tbPet, 0x021), (tbPetR, 0x021), (tbKeyV, 0x023),
    (tbConI, 0x024), (tbConO, 0x024), (tbFlash, 0x005), (tbPkv, 0x005), (tbTrib, 0x140), (tbTpl, 0x140), (tbPw, 0x140)]
  if tab = tbSrc then 0x161 + idx / 256 else if tab = tbPath then 0x140 + idx / 64 else look 0x1FF at_ tab

/-- A table word stays over a soft reset of page p: another page's windows show it, or it is RX_FIXED or TX_FIXED, which are the row's
constants (R34, R73). -/
def tblStays (p k : Nat) : Bool :=
  !(tableOwner (k / 2 ^ 30) (k / 64 % 2 ^ 24) == p) || (k / 2 ^ 30 == tbCal && decide (k % 64 < 2))

/-- The end of a soft reset: live registers, chamber and block state are at their reset values, the tables behind the page's windows
among them; the header stays (R34). -/
def softReset (p : Nat) (s : State) : State :=
  if !s.regs.softRst.contains p then s
  else
    let down (off : Nat) (a : State) : State :=
      match regAt p off with
      | some r => lanesWrote (p - 0x040) off (rd p off a) (w32 r.reset) (wr p off (w32 r.reset) a)
      | none => a
    let s := if 0x040 ≤ p && p < 0x140 then [0x200, 0x300, 0x400].foldl (fun a off => down off a) s else s
    let keep (k : Nat) : Bool := !(k / 65536 == p && decide (0x100 ≤ k % 65536))
    let s := blockReset p { s with regs := { s.regs with
      softRst := rem s.regs.softRst p
      posted := del s.regs.posted p
      dirty := s.regs.dirty.filter keep
      chamber := s.regs.chamber.filter (fun e => keep e.1)
      live := s.regs.live.filter (fun e => keep e.1)
      tbl := s.regs.tbl.filter (fun e => tblStays p e.1)
      staged := s.regs.staged.filter (fun e => tblStays p e.1) } }
    s

end Sys2Proof.Machine
end

