-- ==== Sys2Proof/Machine/Request.lean ====
section
/-! DEFINITION. Memory requests of 1 to 16 DWs: where each DW leads, for the PF side and through a VF's view, when a request is refused whole, and the commands of chapter 2 (R30, R35-R38, R60-R65, R448-R450). -/
namespace Sys2Proof.Machine

/-- Where one DW of a request leads. -/
structure Loc where
  page : Nat := 0
  off : Nat := 0
  /-- The page that case 1 of R38 compares; a region of a view counts as a page (R450). -/
  region : Nat := 0
  /-- The base register value that the access uses in place of the page's own (R448, R449). -/
  base : Option Word := none
  /-- A reserved offset of a view: reads zero, writes are discarded. -/
  void : Bool := false
  /-- Outside what the view grants, for a read and for a write. -/
  noRead : Bool := false
  noWrite : Bool := false
  /-- Page and offset that a refusal's record names, and the pages whose PG_STAT it sets. -/
  logPage : Nat := 0
  logOff : Nat := 0
  stat : List Nat := []
  deriving DecidableEq, Repr

/-- Where offset `x` of VF v's view leads (R448-R450). -/
def viewLoc (v x : Nat) (s : State) : Loc :=
  let vp := viewPage v
  let own : Loc := { logPage := 0x018, logOff := x, stat := [vp] }
  if x < 0x108 then { own with page := vp, off := x }
  else if x < 0x8000 then
    if 0x200 ≤ x && x < 0x300 then { own with page := 0x019, off := 0x4000 + 32 * (8 * v) + (x - 0x200) }
    else if 0x1000 ≤ x && x < 0x1220 then { own with page := 0x01A, off := 0x4000 + (x - 0x1000), base := some (w32 v) }
    else if 0x2000 ≤ x && x < 0x2080 then { own with page := 0x170, off := 0x4000 + 128 * v + (x - 0x2000) }
    else { own with void := true }
  else if x < 0x10000 then
    let g := 8 * v + (x - 0x8000) / 4096
    let w0 := tw tbGrant g 0 s
    let p := fld w0 2 9
    let off := 4096 * fld w0 11 4 + x % 4096
    let ok := bitOf w0 0
    { page := p, off := off, region := 1 + (x - 0x8000) / 4096, base := if hasBase p then some (tw tbGrant g 1 s) else none,
      noRead := !ok, noWrite := !ok || !bitOf w0 1, logPage := p, logOff := off, stat := if ok then [vp, p] else [vp] }
  else { own with region := 9, noRead := true, noWrite := true }

/-- Where DW number i of a request leads. -/
def locOf (o page off i : Nat) (s : State) : Loc :=
  let a := page * 65536 + off + 4 * i
  if isVf o then viewLoc o (off + 4 * i) s
  else
    let p := a / 65536
    { page := p, off := a % 65536, region := p, logPage := p, logOff := a % 65536, stat := [p] }

/-- The state that a DW's window selectors are read from. -/
def basedOn (l : Loc) (s : State) : State :=
  match l.base with
  | some b => wr l.page 0x100 b s
  | none => s

/-- A write DW that falls on an SF register, on the chamber word of one, on an SF window word, or on PG_CTL of an SF page (R38, R414). -/
def sfDw (l : Loc) (o : Nat) (s : State) : Bool :=
  let p := l.page
  !l.void && pageLive p s &&
  (if l.off < 0x100 then l.off == 0x008 && ctlSf p
   else if l.off < 0x4000 then sfReg p l.off
   else if l.off < 0x8000 then (match winRef p l.off o (basedOn l s) with
     | some r => r.sf
     | none => false)
   else decide (0x8100 ≤ l.off) && decide (l.off < 0xC000) && sfReg p (l.off - 0x8000))

/-- A DW is forbidden by case 1 or 2 of R38, or by JTAG_LOCK (R480). -/
def barred (first l : Loc) (write : Bool) (o : Nat) (s : State) : Bool :=
  l.region != first.region || (if write then l.noWrite else l.noRead) ||
  (o == 0x7E && jtagLocked s && (write || l.page != 0x006))

/-- The answer of the last access. -/
def answer (err : Bool) (data : List Word) (s : State) : State := { s with resp := ⟨err, data⟩ }

/-- A request refused whole: the status bits, the record that names the first DW, the error answer (R38, R450). -/
def refuseAll (o n : Nat) (write : Bool) (first : Loc) (s : State) : State :=
  let s := first.stat.foldl (fun a p => if pageLive p a then ev p (statEvent 2) 1 (setStat p 2 a) else a) s
  let s := if isVf o then hifEv o 0x0110 1 s else s
  let s := logRefused write first.logPage first.logOff o ((n - 1) % 32 + b2n write * 256) s
  answer true (if write then [] else List.replicate n 0xFFFFFFFF) s

/-- A write refused only because of SF registers (R38). -/
def denySf (o : Nat) (first : Loc) (v : Word) (s : State) : State := answer true [] (ignore first.page first.off o 1 v s)

/-- The DWs of a read, in ascending order. -/
def readDws (ls : List Loc) (o : Nat) (s : State) : List Word × State :=
  ls.foldl (fun r l =>
    if l.void then (r.1 ++ [0], r.2)
    else let (w, t) := dwRead l.page l.off o (basedOn l r.2) r.2; (r.1 ++ [w], t)) ([], s)

/-- The DWs of a write, in ascending order; whether every one was taken whole. -/
def writeDws (ds : List (Loc × Word × Nat)) (o : Nat) (s : State) : Took :=
  ds.foldl (fun r d =>
    if d.1.void then (r.1, false)
    else let (t, b) := dwWrite d.1.page d.1.off o d.2.2 (basedOn d.1 r.1) d.2.1 r.1; (t, r.2 && b)) (s, true)

/-- A memory request of `n` DWs by an origin: a read, or a write of `dws` with byte enables `bes` (R37, R38). A view that does not
answer returns the error for every access and logs nothing (R458, R465). -/
def request (o page off n : Nat) (write : Bool) (dws : List Word) (bes : List Nat) (s : State) : Took :=
  let ls := (List.range n).map (fun i => locOf o page off i s)
  match ls.head? with
  | none => (s, true)
  | some first =>
    let bars := ls.map (fun l => barred first l write o s)
    let sfs := ls.map (fun l => write && !isMarshal o && sfDw l o s)
    let s := conTouch first.page o s
    if isVf o && !viewAnswers o s then (answer true (if write then [] else List.replicate n 0xFFFFFFFF) s, false)
    else if bars.any id then (refuseAll o n write first s, false)
    else if sfs.any id then (denySf o first (dws.getD 0 0) s, false)
    else if write then
      let r := writeDws ((List.range n).map (fun i => (ls.getD i {}, dws.getD i 0, bes.getD i 0xF))) o s
      (answer false [] r.1, r.2)
    else
      let (ws, t) := readDws ls o s
      (answer false ws t, true)

/-- DW i of a request names a register or a chamber word. -/
def holdsParity (l : Loc) (s : State) : Bool :=
  !l.void && pageLive l.page s &&
  (if l.off < 0x4000 then (regAt l.page l.off).isSome
   else decide (0x8100 ≤ l.off) && decide (l.off < 0xC000) && (regAt l.page (l.off - 0x8000)).isSome)

/-- A register or chamber word that a read has reached fails its parity: the page reports it, and the value returned is unstated
(PG_STAT.PARITY, R32, R67; DESIGN CHOICE, log entry 215). -/
def parityFound (o page off : Nat) (s : State) (i : Nat) : State :=
  let l := locOf o page off i s
  if s.resp.error || decide (s.resp.data.length ≤ i) || !holdsParity l s then s
  else
    let (v, s) := drawFree s
    ev l.page 0x0009 1 (setStat l.page 3 { s with resp := { s.resp with data := s.resp.data.set i (w32 v) } })

/-- A write of one DW with every byte enabled. -/
def write1 (o page off : Nat) (v : Word) (s : State) : State := (request o page off 1 true [v] [0xF] s).1

/-- A read of one DW. -/
def read1 (o page off : Nat) (s : State) : State := (request o page off 1 false [] [] s).1

/-- A command that is one register write. -/
def writeCmd (t o page off : Nat) (v : Word) (s : State) : Res := onLive (fun s => write1 o page off v (advance t s)) s

/-- A command that is one register write by an agent reached over PCIe or another serviceable path. -/
def readCmd (t o page off : Nat) (s : State) : Res := onLive (fun s => read1 o page off (advance t s)) s

/-- A field of PG_CTL is written, and the others with the values they have. -/
def ctlCmd (t o page : Nat) (f : Word → Word) (s : State) : Res :=
  onLive (fun s => let s := advance t s; write1 o page 0x008 (f (pgCtl page s)) s) s

/-! ## Change-log copy, counters and interrupts -/

/-- The next record to copy: the one at CTL_LOG_DMA_HEAD, or the oldest that the ring still holds when DMA_EN comes later than that (DESIGN
CHOICE, log entry 214). -/
def dmaNext (s : State) : Nat := max s.log.dmaHead (s.log.wrSeq - 65536)

/-- The bytes of a record. -/
def LogRec.bytes (r : LogRec) : Bytes := (r.words ++ [r.chain]).flatMap (toLE 4)

/-- LOG_DMA_COPY: the next record is copied into the host ring of CTL_LOG_DMA_SIZE records at CTL_LOG_DMA_ADDR, whose bits [11:0] are
zero, and the head follows it (R60). -/
def logDmaCopy (s : State) : State :=
  let sz := rf pgLog 0x128 0 5 s
  let n := dmaNext s
  if rb pgLog 0x100 0 s && decide (8 ≤ sz) && decide (sz ≤ 16) && decide (n < s.log.wrSeq) then
    match find? s.log.ring (n % 65536) with
    | some r =>
      let at_ := (rd pgLog 0x124 s).toNat * 2 ^ 32 + (rd pgLog 0x120 s).toNat / 4096 * 4096 + 32 * (n % 2 ^ sz)
      ev pgLog 0x0104 1 (hostPut 0 at_ r.bytes { s with log := { s.log with
        hostRing := ins s.log.hostRing (n % 2 ^ sz) r, dmaHead := n + 1 } })
    | none => s
  else s

/-- PM_OVERFLOW: counter k passes 2^48 - 1 by one occurrence of its event (R62, R63). -/
def pmOverflow (p k : Nat) (s : State) : State :=
  if pageLive p s && decide (k < 8) && pmRuns p s && look 0 s.regs.pm (p * 8 + k) == 2 ^ 48 - 1 && rf p (0x30 + 4 * k) 0 16 s != 0 then
    irqStep p (pmAdd p k 1) s
  else s

/-- PM_OVF_FREEZE: eight cycles after an overflow RUN clears (R63). -/
def pmOvfFreeze (p : Nat) (s : State) : State :=
  if s.regs.ovfPend.contains p then
    wf p 0x028 0 1 0 { s with regs := { s.regs with ovfPend := rem s.regs.ovfPend p } }
  else s

/-- IRQ_HOLDOFF_EXPIRY: the message of a vector that waits leaves; an armed vector had none to send (R65). -/
def irqHoldoffExpiry (vec : Nat) (s : State) : State :=
  if has s.irq.waiting vec && holdoffOver vec s then irqAfter (irqSend vec) s else s

/-! ## Meanings of chapter 2 -/

/-- MEMORY_REQUEST: one request of 1 to 16 DWs; `par` names the DWs of a read whose register or chamber word fails its parity. -/
def execMemoryRequest (t o page off : Nat) (write bad : Bool) (dws : List Word) (be par : List Nat) (s : State) : Res :=
  onService (fun s =>
    let s := advance t s
    if bad && decide (o < 0x40) then poisoned o s
    else
      let s := (request o page off dws.length write dws be s).1
      if write then s else par.foldl (parityFound o page off) s) s
def execRegisterWrite (t o page off : Nat) (v : Word) (be : Nat) (s : State) : Res :=
  onLive (fun s => (request o page off 1 true [v] [be] (advance t s)).1) s
def execRcRead (t o page off : Nat) (s : State) : Res := readCmd t o page off s
def execLoWordRead (t o page off : Nat) (s : State) : Res := readCmd t o page off s
def execPostedWriteLand (t page : Nat) (s : State) : Res := onLive (fun s => postedLand page (advance t s)) s
def execChamberWrite (t o page off : Nat) (v : Word) (be : Nat) (s : State) : Res :=
  onLive (fun s => (request o page off 1 true [v] [be] (advance t s)).1) s
def execSoftRst (t o page : Nat) (s : State) : Res := ctlCmd t o page (fun w => w ||| 2) s
def execSoftResetDone (t page : Nat) (s : State) : Res := onLive (fun s => softReset page (advance t s)) s
def execChamberSync (t o page : Nat) (s : State) : Res := ctlCmd t o page (fun w => w ||| 8) s
def execPageEnable (t o page : Nat) (s : State) : Res := ctlCmd t o page (fun w => w ||| 1) s
def execPageDisable (t o page : Nat) (s : State) : Res := ctlCmd t o page (fun w => w &&& 0xFFFFFFFE) s
def execLockMemberWrite (t o page : Nat) (member : Bool) (s : State) : Res :=
  ctlCmd t o page (fun w => setFld w 2 1 (b2n member)) s
def execLockBegin (t o : Nat) (s : State) : Res := writeCmd t o pgLock 0x100 1 s
def execLockGo (t o : Nat) (s : State) : Res := writeCmd t o pgLock 0x100 2 s
def execLockAbort (t o : Nat) (s : State) : Res := writeCmd t o pgLock 0x100 4 s
def execLockClear (t o : Nat) (s : State) : Res := writeCmd t o pgLock 0x100 8 s
def execTableWrite (t o page off : Nat) (v : Word) (be : Nat) (s : State) : Res :=
  onLive (fun s => (request o page off 1 true [v] [be] (advance t s)).1) s
def execLogRdSeqWrite (t o : Nat) (v : Word) (s : State) : Res := writeCmd t o pgLog 0x108 v s
def execLogDmaCopy (t : Nat) (s : State) : Res := onService (fun s => logDmaCopy (advance t s)) s
def execPmOverflow (t page k : Nat) (s : State) : Res := onLive (fun s => pmOverflow page k (advance t s)) s
def execPmOvfFreeze (t page : Nat) (s : State) : Res := onLive (fun s => pmOvfFreeze page (advance t s)) s
def execPmClear (t o page : Nat) (s : State) : Res :=
  onLive (fun s => let s := advance t s; write1 o page 0x028 (rd page 0x028 s ||| 0x10) s) s
def execSnap (t o : Nat) (s : State) : Res := writeCmd t o pgSnap 0x100 1 s
def execFreeze (t o : Nat) (s : State) : Res := writeCmd t o pgSnap 0x100 2 s
def execThaw (t o : Nat) (s : State) : Res := writeCmd t o pgSnap 0x100 4 s
def execEoi (t o vec : Nat) (s : State) : Res := writeCmd t o pgIrq (0x200 + 4 * (vec / 32 % 64)) (w32 (2 ^ (vec % 32))) s
def execIrqHoldoffExpiry (t target vec : Nat) (s : State) : Res :=
  onLive (fun s => irqHoldoffExpiry (target * 2048 + vec) (advance t s)) s

end Sys2Proof.Machine
end

