-- ==== Sys2Proof/Machine/RegCmd.lean ====
section
/-! DEFINITION. The commands that are one register access of a block's page: time, line interface, tables, memory, archive, pair, marshal, host interface and firmware; and the JTAG instructions (R515, R516). -/
namespace Sys2Proof.Machine

/-- A marshal write of a W1 or GO register. -/
def marshalWrite (t page off : Nat) (v : Word) (s : State) : Res := writeCmd t 0x50 page off v s

def execMarshalRequest (t : Nat) (s : State) : Res := marshalWrite t pgMsh 0x120 1 s

/-! ## Time (R80-R89) -/

def execServoModeWrite (t o : Nat) (v : Word) (s : State) : Res := writeCmd t o pgTim 0x114 v s
def execRefSelect (t o sel : Nat) (s : State) : Res := writeCmd t o pgRef 0x100 (w32 sel) s
def execTxtsPop (t o : Nat) (s : State) : Res := writeCmd t o pgPtp 0x124 1 s
def execEpochRun (t o : Nat) (s : State) : Res := writeCmd t o pgTim 0x134 1 s
def execTimStep (t o : Nat) (s : State) : Res := writeCmd t o pgTim 0x130 1 s
def execSetTime (t o : Nat) (s : State) : Res := writeCmd t o pgTim 0x130 2 s

/-! ## Line interface and SDH (R97, R100, R112, R113, R138) -/

def execLocalFault (t c cause : Nat) (s : State) : Res := onService (fun s => localFaultEffect c cause (advance t s)) s
def execRemoteFault (t c : Nat) (s : State) : Res := onService (fun s => remoteFaultEffect c (advance t s)) s
def execSendRf (t o c : Nat) (on : Bool) (s : State) : Res :=
  onLive (fun s => let s := advance t s; write1 o (licPage c) 0x118 (setFld (rd (licPage c) 0x118 s) 16 1 (b2n on)) s) s

/-- A baton lane changes between UP and not UP. -/
def batonLane (f : State → State) (n : Nat) (s : State) : State :=
  let was := (blane n s).st == 3
  let s := f s
  if was != ((blane n s).st == 3) then batonLaneChanged s else s

def execFlaneUp (t : Nat) (baton : Bool) (n : Nat) (locked : Bool) (s : State) : Res :=
  onService (fun s => let s := advance t s; if baton then batonLane (blaneUpEffect n locked) n s else flaneUpFab n locked s) s
def execFlaneDown (t : Nat) (baton : Bool) (n what : Nat) (s : State) : Res :=
  onService (fun s => let s := advance t s; if baton then batonLane (blaneDownEffect n what) n s else flaneDownFab n what s) s
def execLaneCtlWrite (t o page off : Nat) (v : Word) (s : State) : Res := writeCmd t o page off v s
def execPmAlignWrite (t o : Nat) (v : Word) (s : State) : Res := writeCmd t o 0x140 0x1000 v s

/-! ## Tables, histograms, seal units, basin (R185, R194, R226, R249, R274) -/

def execNotifyPop (t o : Nat) (s : State) : Res := writeCmd t o 0x170 0x140 1 s
def execCounterRead (t o page off : Nat) (s : State) : Res := readCmd t o page off s
def execHistClear (t o h : Nat) (s : State) : Res := writeCmd t o 0x186 (0x4000 + h % 64 * 256 + 12) 1 s
def execHistCountRead (t o h : Nat) (s : State) : Res := readCmd t o 0x186 (0x4000 + h % 64 * 256 + 40) s
def execSealReturn (t u : Nat) (s : State) : Res := marshalWrite t 0x18B 0x11C (w32 (2 ^ 31 + u % 64)) s
def execBasinFlushGo (t o : Nat) (s : State) : Res := writeCmd t o 0x190 0x128 1 s

/-! ## Memory and archive (R348, R359, R370, R383, R385) -/

def execRetrain (t o c : Nat) (s : State) : Res := writeCmd t o (memPage c) 0x100 1 s
def execDiagRead (t o c : Nat) (raw : Bool) (s : State) : Res := writeCmd t o (memPage c) 0x134 (w32 (1 + b2n raw * 2)) s
def execDropStaged (t o : Nat) (s : State) : Res := writeCmd t o pgArc 0x124 1 s
def execCloseNow (t o : Nat) (s : State) : Res := writeCmd t o pgArc 0x124 2 s
def execRetrievalGo (t o : Nat) (s : State) : Res := writeCmd t o pgArc 0x14C 1 s
def execRetrievalContinue (t o : Nat) (s : State) : Res := writeCmd t o pgArc 0x14C 2 s
def execReplayGo (t o : Nat) (s : State) : Res := writeCmd t o pgArc 0x168 1 s
def execReplayStop (t o : Nat) (s : State) : Res := writeCmd t o pgArc 0x168 2 s

/-! ## Paired operation, marshal, console, self-test (R392, R403, R406, R425, R433, R440) -/

def execPairPolicyWrite (t o : Nat) (v : Word) (s : State) : Res := writeCmd t o pgPair 0x100 v s
def execHandover (t o : Nat) (s : State) : Res := writeCmd t o pgPair 0x104 1 s
def execForceFault (t o : Nat) (s : State) : Res := writeCmd t o pgPair 0x104 2 s
def execResync (t o : Nat) (s : State) : Res := writeCmd t o pgPair 0x104 4 s
def execPetSubmit (t o : Nat) (s : State) : Res := writeCmd t o pgPet 0x100 1 s
def execPetCancel (t o : Nat) (s : State) : Res := writeCmd t o pgPet 0x100 2 s
def execBankCopyGo (t o : Nat) (s : State) : Res := writeCmd t o pgMsh 0x130 1 s
def execSealClaim (t o : Nat) (v : Word) (s : State) : Res := writeCmd t o pgCon 0x100 (v ||| 0x80000000) s
def execSealRelease (t o : Nat) (v : Word) (s : State) : Res := writeCmd t o pgCon 0x100 (v &&& 0x7FFFFFFF) s

/-- SEAL_CON_CMD.GO with the operation that SEAL_CON_CFG holds, when it is the one named (R434). -/
def conJob (t o op : Nat) (s : State) : Res :=
  onLive (fun s => let s := advance t s; if rf pgCon 0x104 0 2 s = op then write1 o pgCon 0x11C 1 s else s) s

def execGmacGen (t o : Nat) (s : State) : Res := conJob t o 0 s
def execGmacVerify (t o : Nat) (s : State) : Res := conJob t o 1 s
def execGcmEnc (t o : Nat) (s : State) : Res := conJob t o 2 s
def execGcmDec (t o : Nat) (s : State) : Res := conJob t o 3 s
def execStForce (t o : Nat) (v : Word) (s : State) : Res := writeCmd t o pgSt 0x114 (v ||| 0x80000000) s
def execStUnretire (t o : Nat) (v : Word) (s : State) : Res := writeCmd t o pgSt 0x118 (v ||| 0x80000000) s

/-! ## Host interface (R456, R462) -/

/-- The page and offset of a mailbox word: a VF's in its own view, the PF side's on page 0x01A. -/
def mbxPlace (o k : Nat) : Nat × Nat := if isVf o then (0, 0x1200 + 4 * (k % 8)) else (0x01A, 0x4200 + 4 * (k % 8))

def execMbxPost (t o k len : Nat) (s : State) : Res :=
  writeCmd t o (mbxPlace o k).1 (mbxPlace o k).2 (w32 (2 ^ 30 + len % 128 * 65536)) s
def execMailboxAck (t o k seq : Nat) (s : State) : Res :=
  writeCmd t o (mbxPlace o k).1 (mbxPlace o k).2 (w32 (2 ^ 31 + seq % 256 * 256)) s
def execDirtySwap (t o f : Nat) (s : State) : Res := writeCmd t o pgHif 0x124 (w32 (2 ^ 31 + f % 64)) s

/-- STOP is set in W0 of a function entry, whose commit takes what is staged (R462). -/
def execDmaStop (t o f : Nat) (s : State) : Res :=
  onLive (fun s => let s := advance t s; write1 o pgHif (0x4000 + 64 * (f % 64)) (tw tbFn (f % 64) 0 s ||| 8) s) s

/-! ## Firmware, flash, fuses (R468, R481-R485, R495) -/

def execResetArm (t o : Nat) (v : Word) (s : State) : Res := writeCmd t o pgFw 0x120 v s
def execSwReset (t o : Nat) (s : State) : Res := writeCmd t o pgFw 0x124 1 s
def execFwConfirm (t o : Nat) (s : State) : Res := writeCmd t o pgFw 0x10C 1 s
def execTryOther (t o : Nat) (s : State) : Res := writeCmd t o pgFw 0x10C 2 s
def execRecovery (t o : Nat) (s : State) : Res := writeCmd t o pgFw 0x10C 4 s
def execCheckOther (t o : Nat) (s : State) : Res := writeCmd t o pgFw 0x10C 8 s
def execFlashRead (t o : Nat) (s : State) : Res := writeCmd t o pgFw 0x134 1 s
def execFlashProgram (t o : Nat) (s : State) : Res := writeCmd t o pgFw 0x134 2 s
def execFlashErase (t o : Nat) (s : State) : Res := writeCmd t o pgFw 0x134 4 s
def execPkvVerify (t o : Nat) (root : Bool) (s : State) : Res := writeCmd t o pgFw 0x140 (w32 (1 + b2n root * 2)) s
def execFuseProg (t o : Nat) (v : Word) (s : State) : Res := writeCmd t o pgFuse 0x114 (v ||| 0x80000000) s

/-! ## JTAG (R515, R516) -/

def setJtag (f : Jtag → Jtag) (s : State) : State := { s with jtag := f s.jtag }

/-- An instruction that leaves the device in service. -/
def jtagPlain (ir : Nat) (s : State) : State := setJtag (fun j => { j with ir := ir, pinsFloat := false }) s

/-- An instruction that takes the device out of service from Update-IR (R516). -/
def jtagOut (ir : Nat) (float : Bool) (s : State) : State :=
  let s := setJtag (fun j => { j with ir := ir, outOfService := true, pinsFloat := float }) s
  s

/-- REGACC: one register access with origin 0x7E. While the device is in reset only page 0x006 answers, and any other access does not
complete (R478, R480, R515). -/
def regacc (w : Nat) (s : State) : State :=
  let s := jtagPlain 0x20 s
  let write := nbit w 63
  let page := nfld w 54 9
  let off := nfld w 40 14 * 4
  if held s && (write || page != 0x006) then setJtag (fun j => { j with status := 2 }) s
  else
    let s := (request 0x7E page off 1 write [w32 w] [0xF] s).1
    setJtag (fun j => { j with status := b2n s.resp.error, dr := if write then j.dr else (s.resp.data.getD 0 0).toNat }) s

/-- The identification register: its version is 1 on B0, and stated for no other revision (R515; DESIGN CHOICE, log entry 257). -/
def idcode (rev : Nat) : Nat :=
  (if rev = 0x4230 then 1 else Config.idVersion rev % 16) * 2 ^ 28 + 0x5120 * 2 ^ 12 + 0x2D7 * 2 + 1

def execIdcode (_t : Nat) (s : State) : Res :=
  .next (setJtag (fun j => { j with dr := idcode s.fixed.ident.rev }) (jtagPlain 0x01 s))
def execSamplePreload (_t : Nat) (s : State) : Res := .next (jtagPlain 0x02 s)
def execExtest (_t : Nat) (s : State) : Res := .next (jtagOut 0x03 false s)
def execExtestPulse (_t : Nat) (s : State) : Res := .next (jtagOut 0x04 false s)
def execExtestTrain (_t : Nat) (s : State) : Res := .next (jtagOut 0x05 false s)
def execHighz (_t : Nat) (s : State) : Res := .next (jtagOut 0x06 true s)
def execClamp (_t : Nat) (s : State) : Res := .next (jtagOut 0x07 false s)
def execRegacc (t w : Nat) (s : State) : Res := .next (owned s (regacc w (if held s then s else advance t s)))
def execDevreset (_t : Nat) (s : State) : Res :=
  .next (if jtagLocked s then jtagPlain 0xFF s else selfReset 4 (jtagPlain 0x21 s))
def execBypass (_t ir : Nat) (s : State) : Res := .next (jtagPlain (ir % 256) s)

end Sys2Proof.Machine
end

