-- ==== Sys2Proof/Machine/MshCmd.lean ====
section
/-! DEFINITION. The marshal's commands: their form, the ten checks, execution, responses, the standing orders and the STATUS message (R416-R424, R429-R431). -/
namespace Sys2Proof.Machine

/-- An operation of a command (R418). -/
inductive MshOp where
  | write (page off : Nat) (vals : List Word)
  | read (page off n : Nat)
  | bankCopy
  /-- The body of KEY_LOAD, from Slot to the GCM tag. -/
  | keyLoad (body : Bytes)
  | keyErase (slot : Nat)
  deriving DecidableEq, Repr

/-- `n` big-endian words from an offset. -/
def beWords (b : Bytes) (off n : Nat) : List Word := (List.range n).map (fun i => w32 (beAt b (off + 4 * i) 4))

/-- One operation of `size` bytes, head included; none when its form is not that of R418. -/
def mshOp (b : Bytes) (size : Nat) : Option MshOp :=
  match byteAt b 0 with
  | 0x01 => if 12 ≤ size && size % 4 = 0 && size ≤ 8 + 4096 then some (.write (beAt b 4 2) (beAt b 6 2) (beWords b 8 ((size - 8) / 4))) else none
  | 0x02 => if size = 12 then some (.read (beAt b 4 2) (beAt b 6 2) (beAt b 8 2)) else none
  | 0x03 => if size = 8 then some .bankCopy else none
  | 0x04 => if size = 68 || size = 84 then some (.keyLoad (sub b 4 (size - 4))) else none
  | 0x05 => if size = 8 then some (.keyErase (byteAt b 4)) else none
  | _ => none

/-- The operations of a body; none when their lengths do not sum to it exactly. -/
def mshOps : Nat → Bytes → Option (List MshOp)
  | 0, b => if b.isEmpty then some [] else none
  | n + 1, b =>
    if b.isEmpty then some []
    else
      let size := beAt b 2 2
      if size < 4 || b.length < size then none
      else match mshOp b size with
        | none => none
        | some op => (mshOps n (b.drop size)).map (op :: ·)

/-- Check 1: the form of a command from a source (0 petition, 1 and 2 towpath, 3 standing orders). -/
def mshForm (src : Nat) (m : Bytes) : Option (List MshOp) :=
  let towpath := src = 1 || src = 2
  let len := beAt m 30 2
  if m.length < 64 || (if towpath then 1500 else 8192) < m.length || len != m.length || beAt m 0 2 != 0x5450 || byteAt m 2 != 1 || byteAt m 3 != 1
  then none
  else match mshOps 1025 (sub m 48 (len - 64)) with
    | none => none
    | some ops =>
      let data := (ops.map (fun op => match op with
        | .read _ _ n => 4 * n
        | _ => 0)).sum
      if ops.length != beAt m 40 2 || ops.isEmpty || 1024 < ops.length || (if towpath then 1024 else 4096) < data then none else some ops

/-- A DW that a command may write: an SF register, the chamber word of one, an SF window entry, PG_CTL of an SF page; a lock-only
register of an enabled page is none (R414-R416). -/
def mshTarget (page off : Nat) (s : State) : Bool :=
  pageLive page s && decide (page < 512) && decide (off < 0x10000) && off % 4 == 0 &&
  (sfDw { page := page, off := off } 0x50 s ||
    ((decide (0x181 ≤ page) && decide (page ≤ 0x185) || page == 0x189 || page == 0x18A || page == 0x1A5) &&
      decide (0x4000 ≤ off) && decide (off < 0x8000))) &&
  !(lockOnly page off && rb page 0x008 0 s)

/-- Check 7 for one operation. -/
def mshOpTarget (op : MshOp) (s : State) : Bool :=
  match op with
  | .write page off vals => (List.range vals.length).all (fun i => mshTarget page (off + 4 * i) s)
  | .read page off n => pageLive page s && decide (page < 512) && off % 4 == 0 && decide (off + 4 * n ≤ 0x10000)
  | .bankCopy => true
  | .keyLoad b =>
    let u := byteAt b 1
    byteAt b 0 != 0 && u < 128 && (u &&& 0x0C == 0 || u == 4 || u == 8)
  | .keyErase slot => slot != 0

/-- The shadow bank (R200). -/
def shadowBank (s : State) : Option Nat :=
  let live := rf pgExp 0x100 0 1 s
  if bankNamed (1 - live) s then none else some (1 - live)

/-- Check 8: the first operation whose window write does not fall in the shadow bank, judged against the operations before it. -/
def mshBankBad (ops : List MshOp) (s : State) : Option Nat :=
  let start : Option Nat × Option Nat × Tab Word := (none, shadowBank s, [])
  (((ops.zip (List.range ops.length)).foldl (fun (r : Option Nat × Option Nat × Tab Word) e =>
    match e.1 with
    | .write page off vals => (vals.zip (List.range vals.length)).foldl (fun (r : Option Nat × Option Nat × Tab Word) v =>
        let x := off + 4 * v.2
        let exp := decide (0x181 ≤ page) && decide (page ≤ 0x185)
        if r.1.isSome then r
        else if exp && decide (0x4000 ≤ x) && decide (x < 0x8000) then
          (if some (fld (look (rd page 0x104 s) r.2.2 page) 31 1) = r.2.1 then r else (some e.2, r.2.1, r.2.2))
        else if exp && x == 0x104 then (r.1, r.2.1, ins r.2.2 page v.1)
        else if page == pgExp && x == 0x100 then (r.1, some (1 - fld v.1 0 1), r.2.2)
        else r) r
    | _ => r) start)).1

/-- Chamber offsets that a write covers. -/
def mshChamber (op : MshOp) : Option Nat :=
  match op with
  | .write page off vals => if (List.range vals.length).any (fun i => decide (0x8100 ≤ off + 4 * i) && decide (off + 4 * i < 0xC000)) then some page else none
  | _ => none

/-- Check 10: the key that a KEY_LOAD unwraps: 32 bytes with LEN256 = 1 and 16 otherwise (R431). -/
def mshUnwrap (b : Bytes) (s : State) : Option (List Nat) :=
  let k := keySlot (byteAt b 3) s
  let n := b.length - 48
  let iv := beAt b 20 12
  let ct := natsOf (sub b 32 n)
  if (n == 32) == (byteAt b 2 == 1) && k.valid && nbit k.uses 3 && gcmTag k.key iv (natsOf (b.take 20)) ct == beAt b (32 + n) 16 then some (gcmCrypt k.key iv ct) else none

/-- The index of the first operation that fails a test. -/
def firstOp (f : MshOp → Bool) (ops : List MshOp) : Option Nat := (List.range ops.length).find? (fun i => (ops.map f).getD i false)

/-- What the checks come to: RESULT, and the operation that failed. -/
abbrev Judged := Nat × Nat

/-- Checks 7 to 10 (R419). -/
def mshChecks (src : Nat) (lock : Bool) (ops : List MshOp) (s : State) : Judged :=
  match firstOp (fun op => !mshOpTarget op s) ops with
  | some i => (0x07, i)
  | none => match mshBankBad ops s with
    | some i => (0x08, i)
    | none => match firstOp (fun op => match mshChamber op with
        | some p => frozenPage p s
        | none => false) ops with
      | some i => (0x09, i)
      | none =>
        if lock && (src == 3 || !s.tim.run || s.lock.held.isSome || (lockBusy s && s.lock.ownerMarshal)) then (0x09, 0xFFFF)
        else match firstOp (fun op => match op with
            | .keyLoad b => (mshUnwrap b s).isNone
            | _ => false) ops with
          | some i => (0x0A, i)
          | none => (0x00, 0xFFFF)

/-- One DW written by a command. -/
def mshPut (o page off : Nat) (v : Word) (s : State) : State := (dwWrite page off o 0xF s v s).1

/-- One operation executes; READ data is gathered. `s0` is the state that the checks saw. -/
def mshExec (o : Nat) (s0 : State) (r : Bytes × State) (op : MshOp) : Bytes × State :=
  match op with
  | .write page off vals =>
    (r.1, (vals.zip (List.range vals.length)).foldl (fun a v => mshPut o page (off + 4 * v.2) v.1 a) r.2)
  | .read page off n =>
    (List.range n).foldl (fun (r : Bytes × State) i =>
      let (w, t) := dwRead page (off + 4 * i) o r.2 r.2
      (r.1 ++ toBE 4 w.toNat, t)) r
  | .bankCopy => (r.1, bankCopyDone (bankCopyGo r.2))
  | .keyLoad b =>
    let slot := byteAt b 0
    let k : KeySlot := { valid := true, key := (mshUnwrap b s0).getD [], keyid := beAt b 4 4, uses := byteAt b 1, ivFixed := beAt b 8 8,
                         ivCtr := beAt b 16 4, lastCounter := 0, loads := min 0xFFFF ((keySlot slot r.2).loads + 1) }
    (r.1, keyChange slot 0 o k r.2)
  | .keyErase slot => (r.1, keyErase slot 1 o r.2)

/-- FLAGS.LOCK: the lock request for every page whose chamber words the command wrote (R422). -/
def mshLockRequest (o epoch : Nat) (ops : List MshOp) (s : State) : State :=
  let pages := ops.filterMap mshChamber
  let s := (List.range 16).foldl (fun a i => mshPut o pgMsh (0x140 + 4 * i) (pageBits i (fun p => pages.contains p)) a) s
  let s := mshPut o pgMsh 0x128 (w32 (epoch / 2 ^ 32)) (mshPut o pgMsh 0x124 (w32 epoch) s)
  mshPut o pgMsh 0x120 1 s

/-- A response: header fields copied, RESULT, the index of the failing operation, READ data, and the tag under the key that verified the
command; UNAUTH and a tag of zeros when none did (R423). -/
def mshResponse (m : Bytes) (key : Option (List Nat)) (code idx : Nat) (data : Bytes) : Bytes :=
  let m := m ++ zeros (48 - m.length)
  let b := toBE 3 0x545001 ++ [0x02] ++ sub m 4 25 ++ toBE 1 (if key.isNone then 2 else 0) ++ toBE 2 (68 + data.length) ++ zeros 16 ++
    toBE 2 (code * 256) ++ toBE 2 idx ++ data
  b ++ (match key with
    | some k => toBE 16 (gmac k (0x80000000 * 2 ^ 64 + beAt m 20 8) (natsOf b))
    | none => zeros 16)

/-- A response goes to its requester (R425, R427). -/
def mshDeliver (c : MshCmd) (executing : Bool) (resp : Bytes) (s : State) : State :=
  if c.source = 0 then
    let s := setMsh (fun m => { m with petSt := 3, petResp := resp, petResult := byteAt resp 48 }) s
    if executing then raise pgPet 9 s else s
  else if c.source = 3 then s
  else tpSend (c.source == 2) c.sa resp s

/-- The end of a judged command: its registers, counters, record and response. -/
def mshClose (c : MshCmd) (o : Nat) (key : Option (List Nat)) (executing : Bool) (j : Judged) (data : Bytes) (s : State) : State :=
  let m := c.bytes ++ zeros (48 - c.bytes.length)
  let slot := byteAt m 28
  let ctr := beAt m 20 8
  let resp := mshResponse c.bytes key j.1 j.2 data
  let s := setMsh (fun x => { x with cmdResult := j.1, cmdSource := c.source, cmdSlot := slot }) s
  let s :=
    if j.1 = 0 then
      let s := setMsh (fun x => { x with cmdCtr := ctr, lasts := ins x.lasts slot ⟨ctr, beAt c.bytes (c.bytes.length - 16) 16, resp⟩ }) s
      raise pgMsh 9 (ev pgMsh 0x0100 1 (bump pgMsh 0x118 0 32 1 s))
    else raise pgMsh 10 (ev pgMsh 0x0101 1 (bump pgMsh 0x11C 0 32 1 s))
  let s := logDev pgMsh o 0x0301 (ctr % 2 ^ 32) (slot + j.1 * 2 ^ 8 + c.source * 2 ^ 16 + beAt m 40 2 % 2 ^ 14 * 2 ^ 18) s
  mshDeliver c executing resp s

/-- A command is judged and, when every check passes, executed whole (R419-R423). -/
def mshJudge (c : MshCmd) (s : State) : State :=
  let m := c.bytes
  let o := if c.source = 1 || c.source = 2 then 0x51 else 0x50
  let slot := byteAt m 28
  let k := keySlot slot s
  let ctr := beAt m 20 8
  let tag := beAt m (m.length - 16) 16
  match mshForm c.source m with
  | none => mshClose c o none false (0x01, 0xFFFF) [] s
  | some ops =>
    if beAt m 4 8 != s.fixed.ident.serial then mshClose c o none false (0x02, 0xFFFF) [] s
    else if beAt m 12 8 != (if c.source = 3 then 0 else s.msh.bootId) then mshClose c o none false (0x03, 0xFFFF) [] s
    else if !(k.valid && nbit k.uses 2) then mshClose c o none false (0x04, 0xFFFF) [] s
    else if gmac k.key ctr (natsOf (m.take (m.length - 16))) != tag then mshClose c o none false (0x05, 0xFFFF) [] s
    else
      let stored := match find? s.msh.lasts slot with
        | some x => if x.counter = ctr && x.tag = tag then some x.response else none
        | none => none
      let s := setKey slot { k with lastCounter := max k.lastCounter ctr } s
      match stored with
      | some resp => mshDeliver c false resp (ev pgMsh 0x0102 1 s)
      | none =>
        if ctr ≤ k.lastCounter then mshClose c o (some k.key) false (0x06, 0xFFFF) [] s
        else
          let lock := byteAt m 29 % 2 == 1
          let j := mshChecks c.source lock ops s
          if j.1 != 0 then mshClose c o (some k.key) true j [] s
          else
            let (data, t) := ops.foldl (mshExec o s) ([], s)
            let t := if lock then mshLockRequest o (beAt m 32 8) ops t else t
            mshClose c o (some k.key) true j data t

/-- COMMAND_JUDGE: the marshal takes the next command; none before its standing orders have ended, none when halted (R428, R441, R490). -/
def commandJudge (s : State) : State :=
  match s.msh.queue with
  | [] => s
  | c :: rest =>
    if s.msh.st = 2 || !s.boot.ordersEnded then s
    else mshJudge c (setMsh (fun m => { m with queue := rest, petSt := if c.source = 0 then 2 else m.petSt }) s)

/-! ## Standing orders (R424) -/

/-- The commands of a standing orders image, each as long as its LEN says; what is left short is one command of bad form. -/
def standingCmds : Nat → Bytes → List Bytes
  | 0, _ => []
  | n + 1, b =>
    if b.isEmpty then []
    else
      let len := beAt b 30 2
      if len < 64 || b.length < len then [b] else b.take len :: standingCmds n (b.drop len)

/-- The orders in sequence from number i; the first refused order stops them. -/
def runOrders : Nat → List Bytes → State → State
  | _, [], s => s
  | i, b :: rest, s =>
    let s := mshJudge ⟨3, b, 0⟩ s
    if s.msh.cmdResult = 0 then runOrders (i + 1) rest s
    else raise pgMsh 12 (setMsh (fun m => { m with standingFail := true, failIndex := i % 256 }) s)

/-- Slot 0 as the fuses give it: 256 bits, AUTH and WRAP, KEYID 0; invalid on a RETURNED part (R430, R479). -/
def fuseKey (s : State) : KeySlot :=
  if lifecycle s = 3 then {}
  else { valid := true, key := (upto 56 8).flatMap (fun w => natsOf (toBE 4 (fuse w s).toNat)), uses := 12 }

/-- STANDING_ORDERS (no MSH_BOOT_ID is drawn from a random source that has failed, R441): SRAM test, key store, slot 0, BOOT_ID, the orders, and what their end releases (R392, R424, R490, R491). -/
def standingOrders (sramBad : Bool) (s : State) : State :=
  if s.boot.ordersEnded || s.msh.st != 0 || !(s.boot.active.isSome || s.boot.recovery) then s
  else if sramBad then mshHalt 2 s
  else
    let s := setKey 0 (fuseKey s) (setMsh (fun m => { m with keys := [], rngOk := !nbit m.fault 3 }) s)
    let (x, s) := drawFree s
    let s := if s.msh.rngOk then setMsh (fun m => { m with bootId := x % 2 ^ 64 }) s else s
    let s := if s.boot.recovery then s else runOrders 0 (standingCmds s.boot.standing.length s.boot.standing) s
    let s := setMsh (fun m => { m with st := 1, standingDone := true }) s
    let s := setBoot (fun b => { b with ordersEnded := true, msOrders := min 65535 (upNs s / 1000000) }) s
    muteRelease (s.boot.recovery || s.msh.standingFail) s

/-! ## STATUS (R429) -/

/-- A STATUS message with sequence number `seq`, and its tag under the key of NOTICE_SLOT. -/
def statusMessage (seq : Nat) (s : State) : Bytes :=
  let slot := rf pgTp 0x100 8 8 s
  let k := keySlot slot s
  let ok := k.valid && nbit k.uses 6
  let w (p off : Nat) : Bytes := toBE 4 (shown p off s).toNat
  let b := toBE 3 0x545001 ++ [0x03] ++ toBE 8 s.fixed.ident.serial ++ toBE 8 s.msh.bootId ++ toBE 8 seq ++ toBE 1 slot ++ toBE 1 (b2n (!ok) * 2) ++
    toBE 2 104 ++ zeros 16 ++ toBE 8 (epochNow s) ++ w pgMsh 0x100 ++ w pgPair 0x110 ++ w pgSt 0x108 ++ w pgMsh 0x12C ++ w 0x180 0x010 ++
    toBE 4 s.msh.lastEvent ++ toBE 8 s.msh.cmdCtr
  b ++ (if ok then toBE 16 (gmac k.key (0x40000000 * 2 ^ 64 + seq) (natsOf b)) else zeros 16)

/-- The periodic STATUS message is due (R429). -/
def statusPeriod (s : State) : Bool := decide (s.msh.statusAt + rf pgTp 0x100 16 16 s * 1000000 * 2 ^ 32 ≤ s.tim.up)

/-- STATUS_SEND: one message on every UP lane, to MSH_TP_PEER, for a DEVICE_EVENT that awaits one or for the period. -/
def statusSend (s : State) : State :=
  if s.msh.st != 1 || rf pgTp 0x100 16 16 s = 0 || !(s.msh.upA || s.msh.upB) || !(s.msh.statusDue || statusPeriod s) then s
  else
    let s := setMsh (fun m => { m with
      statusSeq := (m.statusSeq + 1) % 2 ^ 32
      statusDue := false
      statusAt := if statusPeriod s then s.tim.up else m.statusAt }) s
    let msg := statusMessage s.msh.statusSeq s
    let s := if s.msh.upA then tpSend false (tpPeer s) msg s else s
    let s := if s.msh.upB then tpSend true (tpPeer s) msg s else s
    ev pgTp 0x0102 1 s

/-! ## Meanings -/

def execCommandJudge (t : Nat) (s : State) : Res := onLive (fun s => commandJudge (advance t s)) s
def execStandingOrders (t : Nat) (sramBad : Bool) (s : State) : Res := onLive (fun s => standingOrders sramBad (advance t s)) s
def execStatusSend (t : Nat) (s : State) : Res := onLive (fun s => statusSend (advance t s)) s

end Sys2Proof.Machine
end

