-- ==== Sys2Proof/Machine/Boundary.lean ====
section
/-! DEFINITION. The preannouncement of an epoch boundary and the boundary itself, with everything that is bound to it (R20-R22, R64, R87-R89). -/
namespace Sys2Proof.Machine

/-! ## Freeze and snapshot (R64) -/

/-- A waiting command is bound to the boundary whose preannouncement is issued now. -/
def snapBind (s : State) : State :=
  match s.snap.bound, s.snap.waiting with
  | none, some c => { s with snap := { s.snap with bound := some c, waiting := none } }
  | _, _ => s

/-- One page copies its counters, and its cycle counter as it stood at the boundary, stamped `at_`. -/
def snapPage (n at_ p : Nat) (s : State) : State :=
  { s with regs := { s.regs with
    pmSnap := (List.range 8).foldl (fun a k => put 0 a (p * 8 + k) (look 0 s.regs.pm (p * 8 + k))) s.regs.pmSnap
    cycSnap := put 0 s.regs.cycSnap p (cycUp p (s.tim.up - (s.tim.now - at_ * 65536)))
    snapEpoch := put 0 s.regs.snapEpoch p n } }

/-- Pages with SNAP_FOLLOW = 1. -/
def snapPages (s : State) : List Nat :=
  s.regs.live.filterMap (fun e => if e.1 % 65536 == 0x28 && bitOf e.2 2 then some (e.1 / 65536) else none)

/-- The counters of every domain but those that missed the boundary stop, or start again (R22, R64). -/
def frozenSet (on : Bool) (miss : List Nat) (s : State) : State :=
  let acts := epochDomains.filter (fun d => !domainMissed miss d)
  { s with snap := { s.snap with
    frozen := on
    doms := if on then acts.foldl (fun a d => Sys2Proof.Machine.add a d) s.snap.doms else s.snap.doms.filter (fun d => !acts.contains d) } }

/-- The bound command acts at the boundary that opens epoch n: SNAP first, then FREEZE or THAW. What they count of themselves is judged
at the boundary, so it is in no SNAP and stands under the FREEZE. -/
def snapAct (n at_ : Nat) (miss : List Nat) (s : State) : State :=
  match s.snap.bound with
  | none => s
  | some c =>
    let s := { s with snap := { s.snap with bound := none } }
    let s := if c.snap then
        (snapPages s).foldl (fun a p => if pageMissed miss p then a else snapPage n at_ p a) { s with snap := { s.snap with epoch := n } }
      else s
    let s := if c.freeze then frozenSet true miss s else if c.thaw then frozenSet false miss s else s
    let s := if c.snap then ev pgSnap 0x0100 1 s else s
    if c.freeze then ev pgSnap 0x0101 1 s else s

/-! ## The boundary -/

/-- EPOCH_PREANNOUNCE: 20 us before a boundary its number, stamp, lock and step are sent; `miss` names the first pages of the domains that
do not come to hold it (R20, R22, R46, R88). -/
def preannounce (miss : List Nat) (s : State) : State :=
  if !s.tim.run || s.tim.issued.isSome then s
  else
    let n := s.tim.nextIssue
    snapBind (lockPre n (preIssue miss s))

/-- The self-test part of a boundary: heats change at every 16th (R438). -/
def heatAt (n : Nat) (miss : List Nat) (s : State) : State :=
  if n % 16 = 0 && !pageMissed miss pgSt then heatBoundary s else s

/-- The link's counts of uncorrectable flits restart on each receiving die that holds the preannouncement; what was checked at or after
the boundary is the new epoch's (R19, R21, R22). -/
def linkRestart (miss : List Nat) (s : State) : State :=
  let next (e : Nat × Nat) : Bool := !domainMissed miss (if e.1 < 64 then 601 else 600)
  { s with link := { s.link with
    uncorr := (s.link.uncorr.filter (fun e => !next e)).foldl (fun a e => put 0 a e.1 (look 0 a e.1 + e.2)) s.link.uncorrNext
    uncorrNext := [] } }

/-- EPOCH_BOUNDARY: an issued boundary is reached, and each domain that holds it carries out what is bound to it (R21, R22, R87). The
snapshot comes first, since what the blocks judge at the boundary lies after it (R64). -/
def epochBoundary (s : State) : State :=
  match s.tim.issued with
  | none => s
  | some b =>
    let miss := s.tim.missPages
    let last := s.tim.inForce.getD (b.epoch - 1)
    let s := advance b.at_ s
    let s := if pageMissed miss pgSnap then s else snapAct b.epoch b.at_ miss s
    let s := if pageMissed miss pgLog then s else batchClose (fun _ => true) s
    let s := boundaryOpen b s
    let s := miss.foldl (fun a p => epochMiss p a) s
    let s := lockBoundary b.epoch b.at_ miss s
    let s := if b.step.isSome then gatesRestart (s.tim.nextIssue * epochU) (lockSkipped s) else s
    let s := if pageMissed miss pgSdh then s else sdhBoundary b.epoch last s
    let s := if pageMissed miss pgPair then s else pairBoundary s
    let s := heatAt b.epoch miss s
    linkRestart miss s

def execEpochPreannounce (miss : List Nat) (s : State) : Res := onLive (fun s => preannounce miss s) s
def execEpochBoundary (s : State) : Res := onLive epochBoundary s

end Sys2Proof.Machine
end

