-- ==== Sys2Proof/Machine/Startup.lean ====
section
/-! DEFINITION. The start-up configuration: the ROM applies its records one after another (R492). -/
namespace Sys2Proof.Machine

/-- A start-up record that was not taken whole, or a WAIT that timed out: counted, its index kept, CFG_ERR raised (R492). -/
def cfgError (s : State) : State :=
  raise pgFw 13 (ev pgFw 0x0105 1 (setBoot (fun b => { b with
    cfgErr := min 65535 (b.cfgErr + 1), cfgErrFirst := if b.cfgErrSet then b.cfgErrFirst else min 65535 b.startIdx, cfgErrSet := true }) s))

/-- Microseconds have passed since the ROM came to its record. -/
def startWaited (us : Nat) (s : State) : Bool := decide (s.boot.startAt + us * 1000 * 2 ^ 32 ≤ s.tim.up)

/-- The record is complete, and the ROM comes to the next. -/
def startNext (s : State) : State := setBoot (fun b => { b with startIdx := b.startIdx + 1, startAt := s.tim.up }) s

/-- STARTUP_RECORD: the ROM applies the next record with origin 0x7F. A WAIT for a page goes on while the page is in INIT, 200 ms at
most, and a WAIT of a time for that time, 100,000 us at most; a WRITE that was taken whole is counted as applied (log entry 255). -/
def startupRecord (timeout : Bool) (s : State) : State :=
  match s.boot.active.isSome, s.boot.startup[s.boot.startIdx]? with
  | true, some r =>
    if r.op = 0 then
      (if r.off = 0xFFFF then startNext s
       else
         let w := request 0x7F r.page r.off 1 true [w32 r.value] [0xF] s
         startNext (if w.2 then ev pgFw 0x0104 1 w.1 else cfgError w.1))
    else if r.op = 1 then
      (if (readyOf r.page s).1 != 1 then startNext s
       else if timeout && startWaited 200000 s then startNext (cfgError s) else s)
    else if startWaited (min r.value 100000) s then startNext s
    else s
  | _, _ => s

def execStartupRecord (t : Nat) (timeout : Bool) (s : State) : Res := onLive (fun s => startupRecord timeout (advance t s)) s

end Sys2Proof.Machine
end

