-- ==== Sys2Proof/Machine/Receive.lean ====
section
/-! DEFINITION. Frame reception: the MAC's checks, preemption reassembly, PAUSE and PFC, stamps, and the frame's way into the pipelines (R72-R76, R102-R110, R128, R140-R153, R362, R522). -/
namespace Sys2Proof.Machine

/-! ## Stamps and the way into the pipelines -/

/-- A frame starts to arrive: its stamp and generation, and whether the port is up for traffic (R72, R522). -/
def rxStart (c t v : Nat) (s : State) : RxF × State :=
  let st := rxStamp c t v s
  let off := !chUp c s
  ({ stamp := st, gen := genOf st s, off := off, fragAt := st }, if off then ev (licPage c) 0x011B 1 s else s)

/-- PORT_CFG.PTP_EN of a channel's calibration entry. -/
def ptpOn (c : Nat) (s : State) : Bool := tb tbCal c 5 0 s

/-- The stamping of a received PTP frame (R76); a Pdelay_Req's stamp is kept for the answer (R77). -/
def ptpRx (c id : Nat) (s : State) : State :=
  let f := frm id s
  let p := parseOf f s
  if p.type = 0x88F7 && ptpOn c s then
    let s := ev pgPtp 0x0100 1 s
    match p.ptp with
    | some (2, _, _) => { s with tim := { s.tim with pdReq := ins s.tim.pdReq c (f.stamp, beAt f.bytes (p.typeEnd + 30) 2) } }
    | _ => s
  else if p.ptpUdp then ev pgPtp 0x0105 1 s
  else s

/-- A frame of a channel enters the pipelines: at 128 bytes, or at its end (R140, R141). -/
def rxPass (c : Nat) (r : RxF) (fin bad : Bool) (s : State) : RxF × State :=
  let id := s.lic.nextFrame
  let s := newFrm { src := c, bytes := r.bytes, stamp := r.stamp, gen := r.gen, bad := bad, ended := fin } s
  let s := setArc (fun a => { a with taps := ins a.taps id { chan := c, stamp := r.stamp, gen := r.gen } }) s
  ({ r with id := some id }, dispatchable id (ptpRx c id s))

/-- Bytes arrive: those beyond MAX_LEN are discarded (R102), and an express frame may pass its MAXLEN (R207). -/
def rxBytes (c : Nat) (r : RxF) (b : Bytes) (s : State) : RxF × State :=
  let new := b.take (fld (rdG r.gen (licPage c) 0x104 s) 0 14 - r.bytes.length)
  let s := match r.id with
    | none => s
    | some i => expGrow i (setFrm i (fun f => if f.ended then f else { f with bytes := f.bytes ++ new }) s)
  ({ r with bytes := r.bytes ++ new, len := r.len + b.length }, s)

/-- The frame carries Ethertype 0x8808. -/
def macCtl (r : RxF) : Bool := beAt r.bytes 12 2 == 0x8808

/-- The frame has not ended: once 128 bytes are in, it is dispatchable (R141). -/
def rxOpen (c : Nat) (r : RxF) (s : State) : RxF × State :=
  if r.id.isNone && !r.off && !macCtl r && decide (128 ≤ r.bytes.length) then rxPass c r false false s else (r, s)

/-! ## PAUSE and PFC (R107-R110) -/

/-- The first stamp at or after the end of `q` quanta that follow the last of `len` bytes whose first bit is stamped `st`, at the
port's MAC rate (R108). -/
def holdEnd (c q st len : Nat) (s : State) : Nat :=
  st + ((len * 8 + q * 512) * 1000 * 65536 + max 1 (macMbps (chSpeed c s)) - 1) / max 1 (macMbps (chSpeed c s))

/-- A bulk class takes a pause request of `q` quanta that the frame `r` carries; 0 ends the hold (R109). The time runs from the last bit of
the frame's last fragment (R108). -/
def holdClass (c k q : Nat) (r : RxF) (s : State) : State :=
  setPort c (fun p => { p with hold := if q = 0 then del p.hold k else ins p.hold k (holdEnd c q r.fragAt (r.len - r.fragFrom) s) }) s

/-- A PAUSE frame holds all eight bulk classes (R110). -/
def pauseAct (c q : Nat) (r : RxF) (s : State) : State :=
  let s := (List.range 8).foldl (fun a k => holdClass c k q r a) s
  ev (licPage c) 0x010E 1 (setPort c (fun p => { p with linkPaused := q != 0 }) s)

/-- The largest time that the enabled priorities of a PFC frame ask for class Bk; none when none names it (R109). -/
def pfcTime (c k : Nat) (b : Bytes) (s : State) : Option Nat :=
  let ps := (prioritiesOf c k s).filter (fun i => nbit (beAt b 16 2) i)
  if ps.isEmpty then none else some ((ps.map (fun i => beAt b (18 + 2 * i) 2)).foldl max 0)

/-- A PFC frame holds the bulk classes that its enabled priorities name; express classes refuse (R109, R110). -/
def pfcAct (c : Nat) (r : RxF) (s : State) : State :=
  let b := r.bytes
  let refused := ((List.range 8).filter (fun i => nbit (beAt b 16 2) i && decide (8 ≤ rf (licPage c) 0x110 (4 * i) 4 s))).length
  let s := if refused = 0 then s else ev (licPage c) 0x0110 refused s
  ev (licPage c) 0x010F 1 ((List.range 8).foldl (fun a k => match pfcTime c k b a with
    | some q => holdClass c k q r a
    | none => a) s)

/-- A complete MAC control frame with a valid FCS acts, or is discarded (R107). -/
def macControlRx (c : Nat) (r : RxF) (s : State) : State :=
  let cfg := rd (licPage c) 0x104 s
  let op := beAt r.bytes 14 2
  if beAt r.bytes 0 6 = 0x0180C2000001 && op = 0x0001 && bitOf cfg 16 then pauseAct c (beAt r.bytes 16 2) r s
  else if beAt r.bytes 0 6 = 0x0180C2000001 && op = 0x0101 && bitOf cfg 17 then pfcAct c r s
  else ev (licPage c) 0x0111 1 s

/-! ## The frame's end -/

/-- The receive point records a frame that never reached the pipelines (R362). -/
def rxUnclassed (c : Nat) (r : RxF) (bad frags : Bool) (s : State) : State :=
  capture (2 * c) { stamp := r.stamp, bad := bad, preempted := frags, gen := r.gen, bytes := r.bytes, len := r.len } s

/-- The end status of a frame of a pair that was not judged before it (R236, R237): a bulk duplicate is noted for check 1 of R263; an express
one is discarded if nothing of it is committed, and else is a late duplicate, for what its verdict lets through. A held copy that is new
is held no longer. -/
def pairEnd (i g : Nat) (b : Bytes) (bad : Bool) (s : State) : State :=
  match find? s.exp.redWait i with
  | none => s
  | some w =>
    let (dup, s) := redEnd i g (frameData b) bad s
    match find? s.exp.frames i with
    | none =>
      if dup.isSome && frmLive i s then setExp (fun e => { e with bulkDup := Sys2Proof.Machine.add e.bulkDup i }) (dupDiscard w.pair s) else s
    | some x =>
      match dup with
      | none => setXf i (fun x => { x with held := false }) s
      | some q =>
        if x.copies.any (fun c => c.committed && !c.gone) then
          (if (frm i s).bad then s
           else raise pgDup 10 (pairCount w.pair 8 (ev pgDup 0x0106 1 (setExp (fun e => { e with lateLast := w.pair + q * 2 ^ 16 }) s))))
        else expDrop i (dupDiscard w.pair s)

/-- The end of a frame that the pipelines have: its mark, the FCS that a rewrite left to the end, the length check, the judgement of a pair's
copy, the learn requests that wait, and the capture record (R102, R153, R179, R183, R236, R362). -/
def rxEnded (i : Nat) (r : RxF) (bad frags : Bool) (s : State) : State :=
  let s := frmCounted i r.bytes.length <| setFrm i (fun f => if f.ended then { f with bad := f.bad || bad } else { f with
      bad := bad
      ended := true
      bytes := if f.rew then frameData f.bytes ++ fcsOf (frameData f.bytes) else f.bytes }) s
  let s := lengthCheck i r.len s
  let s := pairEnd i r.gen r.bytes bad s
  let bad := bad || (frm i s).bad
  tapSettle (tapNote i (fun x => { x with fin := some (r.bytes, r.len, bad, frags) }) (learnFrameEnd i bad s))

/-- The end of a frame: the checks of R102 in their order, and what follows each. -/
def rxFinish (c : Nat) (r : RxF) (good frags : Bool) (s : State) : State :=
  if r.off then rxUnclassed c r true frags s
  else if r.len < 64 then rxUnclassed c r true frags (ev (licPage c) 0x0103 1 s)
  else
    let cut := decide (r.bytes.length < r.len)
    let bad := cut || !good
    let s :=
      if cut then ev (licPage c) 0x0104 1 s
      else if !good then ev (licPage c) 0x0102 1 s
      else ev (licPage c) 0x0101 r.len (ev (licPage c) 0x0100 1 s)
    if macCtl r then
      let s := rxUnclassed c r bad frags s
      if bad then s else macControlRx c r s
    else match r.id with
      | some i => rxEnded i r bad frags s
      | none =>
        let (r, s) := rxPass c r true bad s
        rxEnded (r.id.getD 0) r bad frags s

/-- The unfinished frame of the reassembly context is discarded (R106); one that began while the port was not up for traffic has been counted
at its beginning (R522). -/
def ctxDiscard (c evt : Nat) (s : State) : State :=
  match (port c s).ctx with
  | none => ev (licPage c) evt 1 s
  | some x =>
    let s := setPort c (fun p => { p with ctx := none }) s
    let s := if x.f.off then s else ev (licPage c) evt 1 s
    match x.f.id with
    | some i => rxEnded i x.f true true s
    | none => rxUnclassed c x.f true true s

/-! ## Arrivals (R106) -/

/-- Bytes of the whole frame in reception. -/
def rxWhole (c : Nat) (b : Bytes) (fin : FragEnd) (s : State) : State :=
  match (port c s).rx with
  | none => s
  | some r =>
    let (r, s) := rxBytes c r b s
    let stop (s : State) : State := setPort c (fun p => { p with rx := none, now := .none }) s
    match fin with
    | .open_ =>
      let (r, s) := rxOpen c r s
      setPort c (fun p => { p with rx := some r, now := .whole }) s
    | .fcs => rxFinish c r true false (stop s)
    | .mcrc => rxFinish c r false false (stop s)
    | .neither => rxFinish c r false false (stop s)

/-- Bytes of a fragment of the context's frame (R106). -/
def rxFrag (c : Nat) (b : Bytes) (fin : FragEnd) (s : State) : State :=
  match (port c s).ctx with
  | none => s
  | some x =>
    let (r, s) := rxBytes c x.f b s
    let keep (now : RxNow) (s : State) : State :=
      let (r, s) := rxOpen c r s
      setPort c (fun p => { p with ctx := some { x with f := r }, now := now }) s
    match fin with
    | .open_ => keep .frag s
    | .mcrc => keep .none s
    | .fcs => rxFinish c r true true (setPort c (fun p => { p with ctx := none, now := .none })
        (if r.off then s else ev (licPage c) 0x0109 1 s))
    | .neither => ctxDiscard c 0x0102 (setPort c (fun p => { p with ctx := some { x with f := r }, now := .none }) s)

/-- What is in reception ends in neither an FCS nor an mCRC: another delimiter has come. -/
def rxBreak (c : Nat) (s : State) : State :=
  match (port c s).now with
  | .none => s
  | .junk => setPort c (fun p => { p with now := .none }) s
  | .whole => rxWhole c [] .neither s
  | .frag => rxFrag c [] .neither s

/-- A valid verify mPacket is answered; a valid respond mPacket ends verification as SUCCEEDED (R104). -/
def rxVerify (c : Nat) (valid : Bool) (s : State) : State :=
  if valid && (port c s).st = .up then setPort c (fun p => { p with responds := p.responds + 1 }) s else s

def rxRespond (c : Nat) (valid : Bool) (s : State) : State :=
  if valid && (port c s).st = .up && (port c s).verify = 2 then
    raise (licPage c) 11 (setPort c (fun p => { p with verify := 3, active := true }) s)
  else s

/-- Bytes that a network channel receives: `t` is the internal stamp of the first bit after the delimiter, `v` the value V of
R73, `b` the frame's bytes without an mCRC (R72, R102, R106). -/
def frameReceive (c t : Nat) (smd : Smd) (b : Bytes) (fin : FragEnd) (v : Nat) (s : State) : State :=
  match smd with
  | .more => (match (port c s).now with
    | .none => s
    | .whole => rxWhole c b fin s
    | .frag => rxFrag c b fin s
    | .junk => if fin = .open_ then s else setPort c (fun p => { p with now := .none }) s)
  | .whole =>
    let (r, s) := rxStart c t v (rxBreak c s)
    let s := if !r.off && rb (licPage c) 0x108 0 s then ev (licPage c) 0x0108 1 s else s
    rxWhole c b fin (setPort c (fun p => { p with rx := some r, now := .whole }) s)
  | .start =>
    let s := rxBreak c s
    let s := if (port c s).ctx.isSome then ctxDiscard c 0x010A s else s
    let (r, s) := rxStart c t v s
    rxFrag c b fin (setPort c (fun p => { p with ctx := some ⟨r, 0⟩, now := .frag }) s)
  | .cont k =>
    let s := rxBreak c s
    (match (port c s).ctx with
     | some x =>
       if x.expect = k then
         let f := { x.f with fragAt := rxStamp c t v s, fragFrom := x.f.len }
         rxFrag c b fin (setPort c (fun p => { p with ctx := some { f := f, expect := (k + 1) % 4 }, now := .frag }) s)
       else setPort c (fun p => { p with now := if fin = .open_ then .junk else .none }) (ctxDiscard c 0x010B s)
     | none =>
       setPort c (fun p => { p with now := if fin = .open_ then .junk else .none })
         (if chUp c s then ev (licPage c) 0x010B 1 s else s))
  | .verify => rxVerify c (fin == .mcrc) (rxBreak c s)
  | .respond => rxRespond c (fin == .mcrc) (rxBreak c s)

/-- FRAME_RECEIVE (R102): a network channel receives a frame, or a part of it. -/
def execFrameReceive (t c : Nat) (smd : Smd) (b : Bytes) (fin : FragEnd) (v : Nat) (s : State) : Res :=
  onService (fun s =>
    let s := advance t s
    if (channels s).contains c && macMbps (chSpeed c s) != 0 then frameReceive c t smd b fin v s else s) s

/-! ## The steps that complete receive records -/

/-- PIPELINE_RELEASE (R147). -/
def execPipelineRelease (t : Nat) (badAct badCnt : Bool) (s : State) : Res :=
  onService (fun s => tapSettle (pipelineRelease badAct badCnt (advance t s))) s

/-- REORDER_COMPLETION (R148). -/
def execReorderCompletion (t src seq : Nat) (x : Bool) (s : State) : Res :=
  onService (fun s => tapSettle (reorderCompletion src seq x (advance t s))) s

/-- REORDER_TIMEOUT (R149). -/
def execReorderTimeout (t src : Nat) (s : State) : Res :=
  onService (fun s => tapSettle (reorderTimeout src (advance t s))) s

/-- EXPRESS_LOOKUP (R204). -/
def execExpressLookup (t bus : Nat) (bad : List Nat) (s : State) : Res :=
  onService (fun s => tapSettle (expressLookup bus bad (advance t s))) s

/-- VERDICT (R213). -/
def execVerdict (t id : Nat) (s : State) : Res := onService (fun s => tapSettle (verdict id (advance t s))) s

/-! ## Pseudowire packets -/

/-- PW_PAYLOAD_CLOSE (R128): the packet of a payload that has closed enters the pipelines, complete, with the close as its
reference instant (R140). -/
def pwPayloadClose (pw : Nat) (s : State) : State :=
  match pwClose pw s with
  | none => s
  | some (b, ch, s) =>
    let id := s.lic.nextFrame
    dispatchable id (lengthCheck id b.length (newFrm { src := 256 + ch, bytes := b, stamp := nowStamp s, gen := s.lock.gen } s))

def execPwPayloadClose (t pw : Nat) (s : State) : Res := onService (fun s => pwPayloadClose pw (advance t s)) s

end Sys2Proof.Machine
end

