-- ==== Sys2Proof/Machine/Transmit.lean ====
section
/-! DEFINITION. Frame transmission: the choice of the next frame, gates, preemption, PTP insertion, false starts, and a frame's last bit (R77-R79, R98, R102-R105, R111, R203, R212, R213, R219, R239, R240, R284, R300). -/
namespace Sys2Proof.Machine

/-! ## PTP on transmit (R77-R79) -/

/-- The frame is one of the boundary clock: injected by firmware, on a port that takes part in it, in its domain. -/
def bcFrame (c src dom : Nat) (s : State) : Bool :=
  src == 288 && rb pgPtp 0x100 0 s && tb tbCal c 5 1 s && rf pgPtp 0x100 8 8 s == dom

/-- The transmit stamp of an event message of firmware's own that is not inserted enters the device FIFO: a Sync or Delay_Req of the
boundary clock, and a Pdelay_Req or a two-step Pdelay_Resp of any port, the peer-to-peer transparent clock's included (R75, R78). -/
def ptpTwoStep (m : Nat) (bc : Bool) (s : State) : Bool :=
  (bc && ((m == 0 && rb pgPtp 0x100 1 s) || m == 1)) || m == 2 || (m == 3 && !rb pgPtp 0x100 2 s)

/-- The correctionField of a PTP message whose header starts at `o` grows by `n` units of 2^-16 ns. -/
def addCorr (d : Bytes) (o n : Nat) : Bytes := splice d (o + 8) (toBE 8 ((beAt d (o + 8) 8 + n) % 2 ^ 64))

/-- The turnaround time of a Pdelay_Resp: its transmit stamp less the receive stamp of the request that it answers; open when
no such request was stamped (R77, log entry 16). -/
def turnaround (c seq tx : Nat) (s : State) : Nat × State :=
  match find? s.tim.pdReq c with
  | some (rx, q) => if q = seq then (tx - rx, s) else drawFree s
  | none => drawFree s

/-- What the egress MAC writes into a PTP frame with transmit stamp `tx`, and what it counts and keeps (R77-R79). -/
def ptpTx (c tx : Nat) (f : Frm) (d : Bytes) (s : State) : Bytes × State :=
  let p := parse (parseCfg f.gen s) d
  match p.ptp with
  | none => (d, s)
  | some (m, dom, _) =>
    let o := p.typeEnd
    if p.type ≠ 0x88F7 || !ptpOn c s then (d, s)
    else
      let s := ev pgPtp 0x0101 1 s
      if f.src = 288 then
        let bc := bcFrame c f.src dom s
        if ptpTwoStep m bc s then (d, txtsPush ⟨c, m, beAt d (o + 30) 2, dom, tx⟩ s)
        else if m = 0 && bc then
          (splice d (o + 34) (toBE 6 (stSec tx) ++ toBE 4 (stNs tx)), ev pgPtp 0x0102 1 s)
        else if m = 3 then
          let (n, s) := turnaround c (beAt d (o + 30) 2) tx s
          (addCorr d o n, ev pgPtp 0x0102 1 s)
        else (d, s)
      else if f.src < 256 && m = 0 && tcDomain dom s && ptpOn f.src s then
        (addCorr d o (tx - f.stamp + (tw tbCal f.src 4 s).toNat * 256), ev pgPtp 0x0103 1 s)
      else (d, s)

/-- The bytes that leave, with the FCS recomputed where the egress MAC changed the frame (R77, R102). -/
def ptpBytes (c tx : Nat) (f : Frm) (b : Bytes) (s : State) : Bytes × State :=
  let (d, s) := ptpTx c tx f (frameData b) s
  (if d = frameData b then b else d ++ fcsOf d, s)

/-! ## The next express frame (R212) -/

/-- A copy that waits for the transmit MAC of a channel. -/
structure XWait where
  cls : Nat
  order : Nat
  id : Nat
  n : Nat
  deriving DecidableEq, Repr

/-- The released copies for a channel that have not started. -/
def xWaits (c : Nat) (s : State) : List XWait :=
  s.exp.frames.flatMap (fun e => e.2.copies.zipIdx.filterMap (fun y =>
    if y.1.dst == .chan c && y.1.committed && !y.1.started && !y.1.gone then some ⟨e.2.cls, y.1.order, e.1, y.2⟩ else none))

/-- `a` goes before `b`: the lower class, then the earlier admission (R212). -/
def XWait.before (a b : XWait) : Bool := decide (a.cls < b.cls) || (a.cls == b.cls && decide (a.order < b.order))

/-- The express frame that a channel sends next. -/
def nextX (c : Nat) (s : State) : Option XWait :=
  (xWaits c s).foldl (fun a x => match a with
    | none => some x
    | some y => if x.before y then some x else some y) none

/-- The delimiter with which a frame of a class begins: while ACTIVE = 1 a bulk frame is preemptable and every other frame express; otherwise
every frame is sent whole with an SFD (R103). -/
def startOf (p : Port) (cls : Nat) : TxStart :=
  if !p.active then .sfd else if 8 ≤ cls && cls < 16 then .smdS p.smdNo else .smdE

/-- The frame was begun as a preemptable frame (R103, R105). -/
def TxStart.preemptable (x : TxStart) : Bool :=
  match x with
  | .smdS _ => true
  | .smdC _ _ => true
  | _ => false

/-- A frame's transmission begins. -/
def txBegin (c t id cls copy len : Nat) (s : State) : State :=
  let tx := txStamp c t s
  setPort c (fun p => { p with
    tx := some { id := id, cls := cls, done := 0, closed := false, copy := copy, stamp := tx, fragAt := tx, len := len
                 mbps := macMbps (chSpeed c s), start := startOf p cls }
    smdNo := if (startOf p cls).preemptable then (p.smdNo + 1) % 4 else p.smdNo }) s

/-- An express frame begins. -/
def txExpress (c t : Nat) (x : XWait) (s : State) : State :=
  if pdelayStops (frm x.id s).src (parseOf (frm x.id s) s).ptp s then copyDone x.id x.n s
  else
    txBegin c t x.id x.cls x.n 0 (setXf x.id (fun y => { y with
      copies := y.copies.mapIdx (fun i z => if i = x.n then { z with started := true } else z) }) s)

/-! ## PAUSE and PFC frames (R111) -/

/-- The oldest PAUSE or PFC frame that the pacer requested begins. -/
def txControl (c t : Nat) (s : State) : State :=
  match (port c s).ctl with
  | [] => s
  | b :: r =>
    let id := s.lic.nextFrame
    let s := newFrm { src := c, bytes := b, gen := s.lock.gen, mir := true } (setPort c (fun p => { p with ctl := r }) s)
    txBegin c t id 16 0 b.length s

/-! ## The next bulk frame (R108, R111, R239, R240, R300) -/

/-- The data of a bulk frame without the RCT or tag it arrived with (R240). -/
def bulkData (c : Nat) (f : Frm) (s : State) : Bytes :=
  let d := frameData f.bytes
  let p := parse (parseCfg f.gen s) d
  if ringPass c f p s then d else stripRed f d p s

/-- The pair whose CH_A a channel is, for a frame that is sent into it (R239). -/
def pairSends (c : Nat) (f : Frm) (s : State) : Option PairView :=
  match pairInto c f s with
  | some (v, false) => some v
  | _ => none

/-- Length of a bulk frame on the wire, DA to FCS. -/
def bulkLen (c id : Nat) (s : State) : Nat :=
  let f := frm id s
  let d := bulkData c f s
  let n := match pairSends c f s with
    | some v => (addRed f.gen v.p false 0 d s).length
    | none => d.length
  n + 4

/-- Heads of the egress staging by class, in grant order: class and frame (R300). -/
def stageHeads (c : Nat) (s : State) : List (Nat × Nat) :=
  let l := (port c s).stage.filterMap (fun e => e.2.head?.map (fun i => (e.1, i)))
  l.mergeSort (fun a b => decide (a.2 ≤ b.2))

/-- A bulk frame of class Bk and `len` bytes may start with transmit stamp `tx`: 0 yes, 1 no, 2 deferred by the length rule
(R108, R300). -/
def mayStart (c k len tx : Nat) (s : State) : Nat :=
  if classHeld c k s || !gateOpen c k s then 1
  else if (port c s).active then 0
  else match gateCloses c k s with
    | some u => if u < tx + len * 8000 * 65536 / max 1 (macMbps (chSpeed c s)) then 2 else 0
    | none => 0

/-- The first frame in grant order whose class may start; each frame that the length rule defers is counted once (R300). -/
def pickBulk (c tx : Nat) : List (Nat × Nat) → State → Option (Nat × Nat) × State
  | [], s => (none, s)
  | (k, id) :: r, s =>
    match mayStart c k (bulkLen c id s) tx s with
    | 0 => (some (k, id), s)
    | 2 =>
      let s := if (port c s).deferred.contains id then s
        else ev pgPcr 0x0110 1 (setPort c (fun p => { p with deferred := p.deferred ++ [id] }) s)
      pickBulk c tx r s
    | _ => pickBulk c tx r s

/-- CH_A starts a bulk frame of its pair: the number is taken, and the copy for CH_B is staged or dropped (R232, R238, R239). -/
def stageCopy (v : PairView) (k : Nat) (f : Frm) (d : Bytes) (s : State) : Bytes × State :=
  let sa := beAt d 6 6
  let s := proxyLearn v f.src sa s
  let (q, s) := pairTake v.p s
  let a := addRed f.gen v.p false q d s
  let b := addRed f.gen v.p true q d s
  let l := look [] s.exp.stageB v.p
  let used := (l.map (fun x => x.2.length)).sum
  let s := if used + b.length + 4 ≤ 65536 then
      ev pgDup 0x010F 1 (setExp (fun e => { e with stageB := put [] e.stageB v.p (l ++ [(k, b ++ fcsOf b)]) }) s)
    else raise pgDup 11 (pairCount v.p 14 (ev pgDup 0x010E 1 s))
  (a, pairCount v.p 0 (ev pgDup 0x010F 1 s))

/-- A staged bulk frame begins: the bytes as the egress writes them (R77, R234, R239, R240). -/
def txBulk (c t k id : Nat) (s : State) : State :=
  let f := frm id s
  let len := f.bytes.length
  let s := setPort c (fun p => { p with
    stage := put [] p.stage k ((look [] p.stage k).drop 1), deferred := p.deferred.filter (fun i => !(i == id)) }) s
  let x : TxF := { id := id, cls := 8 + k, done := 0, closed := false, len := len }
  if pdelayStops f.src (parseOf f s).ptp s then txDone c x s
  else
    let d := bulkData c f s
    match pairSends c f s with
    | some v =>
      if danhForeign v (beAt d 6 6) s then txDone c x (pairCount v.p 15 (ev pgDup 0x0115 1 s))
      else
        let (d, s) := stageCopy v k f d s
        txBegin c t id (8 + k) 0 len (setFrm id (fun f => { f with bytes := d ++ fcsOf d }) s)
    | none =>
      let b := if d = frameData f.bytes then f.bytes else d ++ fcsOf d
      let (b, s) := ptpBytes c (txStamp c t s) f b s
      txBegin c t id (8 + k) 0 len (setFrm id (fun f => { f with bytes := b }) s)

/-- The staged copies of the pair whose CH_B a channel is (R239). -/
def pairCopies (c : Nat) (s : State) : Option (Nat × Nat × Bytes) :=
  match pairOf s.lock.gen c s with
  | some (v, true) => ((look [] s.exp.stageB v.p).head?).map (fun x => (v.p, x.1, x.2))
  | _ => none

/-- CH_B begins the oldest staged copy of its pair. -/
def txCopy (c t p k : Nat) (b : Bytes) (s : State) : State :=
  let id := s.lic.nextFrame
  let f : Frm := { src := c, bytes := b, gen := s.lock.gen, mir := true }
  let s := pairCount p 1 (newFrm f (setExp (fun e => { e with stageB := put [] e.stageB p ((look [] e.stageB p).drop 1) }) s))
  let s := match txMirror c s with
    | some m => mirrorForkOf m f s
    | none => s
  txBegin c t id (8 + k) 0 b.length s

/-- The delimiter of a frame's next fragment (R103). -/
def nextFrag (x : TxStart) : TxStart :=
  match x with
  | .smdS n => .smdC n 0
  | .smdC n k => .smdC n ((k + 1) % 4)
  | y => y

/-- The suspended frame resumes while its gate is open (R105, R300). -/
def txResume (c t : Nat) (x : TxF) (s : State) : State :=
  if gateOpen c (x.cls - 8) s then
    setPort c (fun p => { p with susp := none, tx := some { x with closed := false, fragAt := txStamp c t s, start := nextFrag x.start } }) s
  else s

/-- A bulk frame boundary: the suspended frame, then the staging in grant order, then the copies of a pair. -/
def txBulkNext (c t : Nat) (s : State) : State :=
  match (port c s).susp with
  | some x => txResume c t x s
  | none =>
    match pickBulk c (txStamp c t s) (stageHeads c s) s with
    | (some (k, id), s) => txBulk c t k id s
    | (none, s) =>
      match pairCopies c s with
      | some (p, k, b) => if mayStart c k b.length (txStamp c t s) s = 0 then txCopy c t p k b s else s
      | none => s

/-- The transmit MAC of a channel is at a frame boundary: idle, on a port up for traffic. -/
def txIdle (c : Nat) (s : State) : Bool :=
  (channels s).contains c && macMbps (chSpeed c s) != 0 && chUp c s && (port c s).tx.isNone

/-- FRAME_TRANSMIT (R212): the next frame of a channel is chosen and begins; `t` is its internal stamp. -/
def frameTransmit (c t : Nat) (s : State) : State :=
  if !txIdle c s then s
  else match nextX c s with
    | some x => txExpress c t x s
    | none => if (port c s).ctl.isEmpty then txBulkNext c t s else txControl c t s

def execFrameTransmit (t c : Nat) (s : State) : Res := onService (fun s => frameTransmit c t (advance t s)) s

/-- PAUSE_TRANSMIT (R111): a PAUSE or PFC frame begins, ahead of every bulk frame and behind every express frame. -/
def pauseTransmit (c t : Nat) (s : State) : State :=
  if txIdle c s && (nextX c s).isNone then txControl c t s else s

def execPauseTransmit (t c : Nat) (s : State) : Res := onService (fun s => pauseTransmit c t (advance t s)) s

/-! ## Preemption (R105) -/

/-- Something asks for the line: an express or MAC control frame is ready, or the gate of the frame's class has closed
(R105, R300). -/
def preemptAsked (c : Nat) (x : TxF) (s : State) : Bool :=
  (nextX c s).isSome || !(port c s).ctl.isEmpty || !gateOpen c (x.cls - 8) s

/-- Bytes of the frame in transmission sent by the earliest boundary at or after now that R105 allows. -/
def preemptPoint (c : Nat) (x : TxF) (s : State) : Nat :=
  max (x.done + ((txStamp c (nowStamp s) s - x.fragAt) * x.mbps + 8000 * 65536 - 1) / (8000 * 65536))
    (x.done + 64 * (1 + rf (licPage c) 0x108 9 2 s) - 4)

/-- The mCRC that closes a fragment: the FCS over the frame's bytes so far, its 16 low bits inverted, as IEEE 802.3br has it (PRESUMED, log
entry 221). -/
def mcrcOf (sent : Bytes) : Bytes :=
  match fcsOf sent with
  | [a, b, c, d] => [a, b, ~~~c, ~~~d]
  | l => l

/-- PREEMPT_FRAGMENT (R105): the fragment in transmission of a frame begun as a preemptable one is closed with its mCRC at the first
boundary allowed at or after `t`, the instant at which an express frame became ready; with no such boundary the frame completes. -/
def preemptFragment (c : Nat) (s : State) : State :=
  match (port c s).tx with
  | none => s
  | some x =>
    let n := preemptPoint c x s
    let b := (frm x.id s).bytes
    if x.start.preemptable && preemptAsked c x s && decide (n + 64 ≤ b.length) then
      ev pgExp 0x0112 1 (ev (licPage c) 0x010C 1 (setPort c (fun p => { p with
        tx := none
        susp := some { x with done := n, closed := true }
        last := some ⟨(b.take n).drop x.done ++ mcrcOf (b.take n), .mcrc, x.fragAt, x.start, nlaneOut c s⟩ }) s))
    else s

def execPreemptFragment (t c : Nat) (s : State) : Res := onService (fun s => preemptFragment c (advance t s)) s

/-! ## A frame's last bit -/

/-- The counts of a frame that has left, its capture record, and what the port last sent (R114, R362, R363). -/
def txCount (c : Nat) (x : TxF) (g : Nat) (b : Bytes) (bad : Bool) (s : State) : State :=
  let s := ev (licPage c) 0x0106 b.length (ev (licPage c) 0x0105 1 s)
  let s := if x.cls = 16 then ev (licPage c) 0x0112 1 s else s
  let s := if bad then ev (licPage c) 0x0107 1 s else s
  let s := capture (2 * c + 1)
    { stamp := x.stamp, cls := txCls x, bad := bad, falseStart := bad, preempted := x.done != 0, gen := g, bytes := b, len := b.length } s
  setPort c (fun p => { p with
    tx := none, last := some ⟨b.drop x.done, if bad then .inverted else .fcs, x.fragAt, x.start, nlaneOut c s⟩ }) s

/-- The trailer or tag written into a pair's copy is counted (R238, R253). -/
def redWritten (z : XCopy) (s : State) : State :=
  match z.pair with
  | some (p, lanB, _) => pairCount p (b2n lanB) (ev pgDup 0x010F 1 s)
  | none => s

/-- An express frame's last bit: a verdict that has not come is bad with cause VERDICT_LATE; a bad one inverts the FCS
(R203, R213, R219, R225). -/
def txEndExpress (c : Nat) (x : TxF) (s : State) : State :=
  match find? s.exp.frames x.id with
  | none => setPort c (fun p => { p with tx := none }) s
  | some y =>
    if !(frm x.id s).ended then s
    else
      let s := if y.verdict.isNone then verdictBad x.id 6 (ev pgExp 0x0115 1 s) else s
      match find? s.exp.frames x.id with
      | none => setPort c (fun p => { p with tx := none }) s
      | some y =>
        let f := frm x.id s
        let good := y.verdict == some true
        let b := match y.copies[x.copy]? with
          | some z => copyBytes y z f s
          | none => f.bytes
        let (b, s) := if good then ptpBytes c x.stamp f b s else (falseBytes y b, s)
        let s := ev pgExp 0x0101 b.length (match y.copies[x.copy]? with
          | some z => redWritten z s
          | none => s)
        let s := if good then histCount (8 * c + y.cls) y.contract x.stamp f.stamp s else s
        let s := match txMirror c s with
          | some m => mirrorForkOf m { f with bytes := b, bad := !good, ended := true } s
          | none => s
        copyDone x.id x.copy (txCount c x f.gen b (!good) s)

/-- FRAME_TRANSMIT_END (R203): the last bit of the frame in transmission leaves the MDI. -/
def frameTransmitEnd (c : Nat) (s : State) : State :=
  match (port c s).tx with
  | none => s
  | some x =>
    if x.cls < 8 then tapSettle (txEndExpress c x s)
    else
      let f := frm x.id s
      txDone c x (txCount c x f.gen f.bytes false s)

def execFrameTransmitEnd (t c : Nat) (s : State) : Res := onService (fun s => frameTransmitEnd c (advance t s)) s

end Sys2Proof.Machine
end

