-- ==== Sys2Proof/Machine/DieLink.lean ====
section
/-! DEFINITION. The die-to-die link: what a flit's check finds and what becomes of what it carries, replay on channels S and M, and the D2D fault state (R13-R19). -/
namespace Sys2Proof.Machine

/-- The channels of the link (R14). -/
inductive DieChan where
  | chD | chX | chC | chS | chM
  deriving DecidableEq, Repr

/-- The channel of a slice (R14). -/
def sliceChan (n : Nat) : DieChan :=
  if n < 54 then .chD else if n < 60 then .chX else if n < 62 then .chC else if n = 62 then .chS else .chM

/-- The number of a channel in the keys of the link's counts. -/
def dieChanNo (c : DieChan) : Nat :=
  match c with
  | .chD => 0 | .chX => 1 | .chC => 2 | .chS => 3 | .chM => 4

def setLink (f : DieLink → DieLink) (s : State) : State := { s with link := f s.link }

/-- The key of a channel and direction: 0 is FE to TM, 1 is TM to FE. -/
def dieKey (dir : Nat) (c : DieChan) : Nat := dir % 2 * 8 + dieChanNo c

/-- A count of the link rises. -/
def dieCount (t : Tab Nat) (k n : Nat) : Tab Nat := put 0 t k (look 0 t k + n)

/-- The barges of a frame that wait on an F-lane are discarded. Where its first has left, the frame is a false start: its last barge goes with
a bad verdict after what was sent, and the false start is recorded unless the verdict was bad before (R18, R219, R327). -/
def loseBarges (f id : Nat) (s : State) : State :=
  let mine (b : Barge) : Bool := b.fid == id && b.own.isSome
  let gone := (fabLane f s).xq.filter mine
  match gone.head?, gone.find? (·.eof) with
  | some a, some z =>
    if a.sof then setFLane f (fun l => { l with xq := l.xq.filter (fun b => !mine b) }) s
    else
      let s := setFLane f (fun l => { l with
        xq := l.xq.flatMap (fun b => if !mine b then [b] else if b.eof then [{ b with bad := true }] else []) }) s
      if z.bad then s
      else match a.own with
        | none => s
        | some o =>
          raise pgExp 9 (ev pgExp 0x0107 1 (fsRecord (a.con % 4096 + 5 * 2 ^ 12 + o.src % 512 * 2 ^ 16)
            (b2n o.mcast * 2 ^ 11 + 2 ^ 12 + min (o.pos + z.pay.length - 4) 0xFFFF * 2 ^ 16) o.stamp s))
  | _, _ => s

/-- An express frame loses its bytes at the receiving die: from the fabric it ends with cause D2D, toward the fabric its copies
are discarded, and what of them waits on a lane (R18, R218). -/
def loseExpress (dir id : Nat) (s : State) : State :=
  if dir % 2 = 1 then verdictBad id 5 s
  else
    let s := (s.fab.lanes.map (·.1)).foldl (fun a f => loseBarges f id a) s
    copiesDrop id (fun c => match c.dst with
      | .fab .. => true
      | _ => false) s

/-- The channel whose egress staging holds a frame, and its class. -/
def stagedAt (id : Nat) (s : State) : Option (Nat × Nat) :=
  s.lic.port.findSome? (fun e => (e.2.stage.find? (fun q => q.2.contains id)).map (fun q => (e.1, q.1)))

/-- A bulk frame is discarded at the receiving die: on its way to the basin, or to its channel's staging, which returns its
credit (R18, R284). -/
def loseBulk (id : Nat) (s : State) : State :=
  match stagedAt id s with
  | some (c, k) =>
    let s := setPort c (fun p => { p with stage := put [] p.stage k ((look [] p.stage k).filter (fun i => !(i == id))) }) s
    txDone c { id := id, cls := 8 + k, done := 0, closed := false, len := (frm id s).bytes.length } s
  | none => if frmLive id s then dropArriving id s else s

/-- A frame with a byte in an uncorrectable flit, or at the wrong channel, is discarded. -/
def loseFrame (dir id : Nat) (express : Bool) (s : State) : State :=
  if express then loseExpress dir id s else loseBulk id s

/-- A capture record is discarded with its flit (R18, R367). -/
def loseRecord (id : Nat) (s : State) : State :=
  let s := setArc (fun a => { a with epochs := del a.epochs id }) s
  captureLost 0x120 0x0105 (if frmLive id s then dropArriving id s else s)

/-- What a good flit delivers: a frame at the wrong channel is discarded and counted (R13). -/
def deliverItem (dir : Nat) (c : DieChan) (s : State) (i : FlitItem) : State :=
  match i with
  | .frame id express _ =>
    if (c == .chX && !express) || (c == .chD && express) then
      loseFrame dir id express (setLink (fun l => { l with wrong := dieCount l.wrong (dieKey dir c) 1 }) s)
    else s
  | .record .. => s
  | .message .. => setLink (fun l => { l with delivered := dieCount l.delivered (dieKey dir c) 1 }) s

/-- What an uncorrectable flit of channels D, X and C loses (R18). -/
def loseItem (dir : Nat) (c : DieChan) (s : State) (i : FlitItem) : State :=
  match i with
  | .frame id express _ =>
    loseFrame dir id express (setLink (fun l => { l with lostFrames := dieCount l.lostFrames (dieKey dir c) 1 }) s)
  | .record id _ => loseRecord id s
  | .message .. => s

/-- The 17th uncorrectable flit of a slice in an epoch puts the link in the D2D fault state (R19). -/
def dieFault (dir slice n : Nat) (s : State) : State :=
  let s := raise 0x003 9 (setLink (fun l => { l with fault := true }) s)
  pairTrigger 0x02 (logDev 0x003 0x7F 0x0110 (slice % 64 + dir % 2 * 256) n s)

/-- An uncorrectable flit is counted for its slice and direction, in the epoch in which the receiving die checks it: one checked at or
after the issued boundary opens the next epoch's count (R19, R21). -/
def dieUncorr (dir slice : Nat) (s : State) : State :=
  let k := 64 * (dir % 2) + slice
  let next := match s.tim.issued with
    | some b => decide (b.at_ ≤ nowStamp s)
    | none => false
  let s := setLink (fun l => if next then { l with uncorrNext := dieCount l.uncorrNext k 1 } else { l with uncorr := dieCount l.uncorr k 1 }) s
  let n := look 0 (if next then s.link.uncorrNext else s.link.uncorr) k
  if n = 17 then dieFault dir slice n s else s

/-! ## Slots and slices (R15, R16) -/

/-- What a slot of channel M's group of eight may carry: the safety slot 0 marshal traffic alone, slot 1 preannouncements, lock apply
commands and time corrections, slots 2 to 7 register, interrupt and change-log traffic; no slot is lent to another use (R15). -/
def slotCarries (slot : Nat) (m : LinkMsg) : Bool :=
  match slot, m with
  | 0, .safety => true
  | 0, _ => false
  | 1, .timing => true
  | 1, _ => false
  | _, .register => true
  | _, .interrupt => true
  | _, .logEntry => true
  | _, _ => false

/-- The items that a flit of the channel holds: on channel M the messages of its slot's use, where an unused slot is empty (R15); on
channel S status. -/
def flitHolds (c : DieChan) (slot : Nat) (items : List FlitItem) : List FlitItem :=
  match c with
  | .chM => items.filter (fun i => match i with
      | .message m _ => slotCarries slot m
      | _ => false)
  | .chS => items.filter (fun i => match i with
      | .message m _ => m == .status
      | _ => false)
  | _ => items

/-- The first slice of a channel and how many it has (R14). -/
def chanSlices (c : DieChan) : Nat × Nat :=
  match c with
  | .chD => (0, 54)
  | .chX => (54, 6)
  | .chC => (60, 2)
  | .chS => (62, 1)
  | .chM => (63, 1)

/-- What one flit of channel D, X or C does at its turn. -/
def flitItems (dir : Nat) (c : DieChan) (f : Bool × List FlitItem) (s : State) : State :=
  f.2.foldl (if f.1 then loseItem dir c else deliverItem dir c) s

/-- The flits of a channel that have come are delivered in the order sent: striped across its slices in ascending order, each slice's
own flits oldest first; `n` bounds how many can be (R16). -/
def flitDrain : Nat → Nat → DieChan → State → State
  | 0, _, _, s => s
  | n + 1, dir, c, s =>
    let place := look 0 s.link.nextPlace (dieKey dir c)
    let k := 64 * (dir % 2) + (chanSlices c).1 + place
    match look [] s.link.early k with
    | [] => s
    | f :: fs =>
      let s := setLink (fun l => { l with
        early := put [] l.early k fs, nextPlace := put 0 l.nextPlace (dieKey dir c) ((place + 1) % (chanSlices c).2) }) s
      flitDrain n dir c (flitItems dir c f s)

/-- A flit of channel D, X or C comes on a slice: it is delivered, or waits for those sent before it (R16). -/
def flitStriped (dir slice : Nat) (c : DieChan) (bad : Bool) (items : List FlitItem) (s : State) : State :=
  let k := 64 * (dir % 2) + slice
  let s := setLink (fun l => { l with early := put [] l.early k (look [] l.early k ++ [(bad, items)]) }) s
  flitDrain ((s.link.early.map (fun e => e.2.length)).sum) dir c s

/-- The sender of channel S or M keeps its last 64 flits (R18). -/
def keepFlit (k : Nat) (items : List FlitItem) (s : State) : State :=
  setLink (fun l =>
    let b := look [] l.replayBuf k ++ [items]
    { l with replayBuf := put [] l.replayBuf k (b.drop (b.length - 64)) }) s

/-- A flit waits for the replay: the uncorrectable one, or one sent after it (R16, R18). -/
def holdFlit (k : Nat) (items : List FlitItem) (s : State) : State :=
  setLink (fun l => { l with awaiting := put [] l.awaiting k (look [] l.awaiting k ++ [items]) }) s

/-- A flit of channel S or M: delivered in order, or held while a replay is awaited (R16, R18). -/
def flitOrdered (dir : Nat) (c : DieChan) (bad : Bool) (items : List FlitItem) (s : State) : State :=
  let k := dieKey dir c
  let items := flitHolds c (look 0 s.link.slotsSent k % 8) items
  let s := keepFlit k items (setLink (fun l => { l with slotsSent := dieCount l.slotsSent k 1 }) s)
  if bad || !(look [] s.link.awaiting k).isEmpty then holdFlit k items s
  else items.foldl (deliverItem dir c) s

/-- FLIT_RECEIVE (R18): the receiving die checks one flit and delivers, corrects or discards what it carries. -/
def flitReceive (dir slice : Nat) (chk : FlitCheck) (items : List FlitItem) (s : State) : State :=
  let c := sliceChan slice
  let bad := chk == .uncorrectable
  let s := if chk = .corrected then setLink (fun l => { l with corrected := dieCount l.corrected (dieKey dir c) 1 }) s else s
  let s := if bad then dieUncorr dir slice s else s
  if c = .chS || c = .chM then flitOrdered dir c bad items s
  else flitStriped dir slice c bad items s

def execFlitReceive (t dir slice : Nat) (chk : FlitCheck) (items : List FlitItem) (s : State) : Res :=
  onLive (fun s => if slice < 64 then tapSettle (flitReceive dir slice chk items (advance t s)) else advance t s) s

/-- FLIT_REPLAY (R18): the sender resends from its replay buffer, and what was held is delivered in the order sent. -/
def flitReplay (dir slice : Nat) (s : State) : State :=
  let c := sliceChan slice
  let k := dieKey dir c
  if c ≠ .chS && c ≠ .chM then s
  else
    let l := look [] s.link.awaiting k
    let sent := (look [] s.link.replayBuf k).drop ((look [] s.link.replayBuf k).length - l.length)
    (sent.flatMap id).foldl (deliverItem dir c) (setLink (fun x => { x with awaiting := put [] x.awaiting k [] }) s)

def execFlitReplay (t dir slice : Nat) (s : State) : Res :=
  onLive (fun s => if slice < 64 then flitReplay dir slice (advance t s) else advance t s) s

end Sys2Proof.Machine
end

