-- ==== Sys2Proof/Machine/Dispatch.lean ====
section
/-! DEFINITION. The dispatch: one arm for each command, each a direct call of its meaning. -/
namespace Sys2Proof.Machine

/-- The effect of a command on everything but the queue. -/
def exec (i : Instr) (s : State) : Host.Outcome State Fault Refusal :=
  match i with
  | .flitReceive t dir slice chk items => Sys2Proof.Machine.execFlitReceive t dir slice chk items s
  | .flitReplay t dir slice => Sys2Proof.Machine.execFlitReplay t dir slice s
  | .epochPreannounce miss => Sys2Proof.Machine.execEpochPreannounce miss s
  | .epochBoundary => Sys2Proof.Machine.execEpochBoundary s
  | .memoryRequest t o page off write bad dws be par => Sys2Proof.Machine.execMemoryRequest t o page off write bad dws be par s
  | .registerWrite t o page off v be => Sys2Proof.Machine.execRegisterWrite t o page off v be s
  | .rcRead t o page off => Sys2Proof.Machine.execRcRead t o page off s
  | .loWordRead t o page off => Sys2Proof.Machine.execLoWordRead t o page off s
  | .postedWriteLand t page => Sys2Proof.Machine.execPostedWriteLand t page s
  | .chamberWrite t o page off v be => Sys2Proof.Machine.execChamberWrite t o page off v be s
  | .softRst t o page => Sys2Proof.Machine.execSoftRst t o page s
  | .softResetDone t page => Sys2Proof.Machine.execSoftResetDone t page s
  | .chamberSync t o page => Sys2Proof.Machine.execChamberSync t o page s
  | .pageEnable t o page => Sys2Proof.Machine.execPageEnable t o page s
  | .pageDisable t o page => Sys2Proof.Machine.execPageDisable t o page s
  | .lockMemberWrite t o page member => Sys2Proof.Machine.execLockMemberWrite t o page member s
  | .lockBegin t o => Sys2Proof.Machine.execLockBegin t o s
  | .lockGo t o => Sys2Proof.Machine.execLockGo t o s
  | .lockAbort t o => Sys2Proof.Machine.execLockAbort t o s
  | .lockClear t o => Sys2Proof.Machine.execLockClear t o s
  | .marshalRequest t => Sys2Proof.Machine.execMarshalRequest t s
  | .preemptTimeout t => Sys2Proof.Machine.execPreemptTimeout t s
  | .levellingResult t => Sys2Proof.Machine.execLevellingResult t s
  | .levelTimeout t => Sys2Proof.Machine.execLevelTimeout t s
  | .lockConfirm t => Sys2Proof.Machine.execLockConfirm t s
  | .oldCopyRelease t => Sys2Proof.Machine.execOldCopyRelease t s
  | .tableWrite t o page off v be => Sys2Proof.Machine.execTableWrite t o page off v be s
  | .logRdSeqWrite t o v => Sys2Proof.Machine.execLogRdSeqWrite t o v s
  | .logDmaCopy t => Sys2Proof.Machine.execLogDmaCopy t s
  | .pmOverflow t page k => Sys2Proof.Machine.execPmOverflow t page k s
  | .pmOvfFreeze t page => Sys2Proof.Machine.execPmOvfFreeze t page s
  | .pmClear t o page => Sys2Proof.Machine.execPmClear t o page s
  | .snap t o => Sys2Proof.Machine.execSnap t o s
  | .freeze t o => Sys2Proof.Machine.execFreeze t o s
  | .thaw t o => Sys2Proof.Machine.execThaw t o s
  | .eoi t o vec => Sys2Proof.Machine.execEoi t o vec s
  | .irqHoldoffExpiry t target vec => Sys2Proof.Machine.execIrqHoldoffExpiry t target vec s
  | .servoInput t => Sys2Proof.Machine.execServoInput t s
  | .servoSourceTimeout t => Sys2Proof.Machine.execServoSourceTimeout t s
  | .holdoverLimit t => Sys2Proof.Machine.execHoldoverLimit t s
  | .servoModeWrite t o v => Sys2Proof.Machine.execServoModeWrite t o v s
  | .replicaCorrection t err => Sys2Proof.Machine.execReplicaCorrection t err s
  | .refSelect t o sel => Sys2Proof.Machine.execRefSelect t o sel s
  | .referenceSwitch t ok => Sys2Proof.Machine.execReferenceSwitch t ok s
  | .referenceLoss t ref => Sys2Proof.Machine.execReferenceLoss t ref s
  | .txtsPop t o => Sys2Proof.Machine.execTxtsPop t o s
  | .rclkSquelch t outB => Sys2Proof.Machine.execRclkSquelch t outB s
  | .rclkResume t outB => Sys2Proof.Machine.execRclkResume t outB s
  | .ppsInEdge raw => Sys2Proof.Machine.execPpsInEdge raw s
  | .ppsOutEdge t => Sys2Proof.Machine.execPpsOutEdge t s
  | .epochRun t o => Sys2Proof.Machine.execEpochRun t o s
  | .timStep t o => Sys2Proof.Machine.execTimStep t o s
  | .setTime t o => Sys2Proof.Machine.execSetTime t o s
  | .lanesReady t c locks => Sys2Proof.Machine.execLanesReady t c locks s
  | .an37Complete t c pause => Sys2Proof.Machine.execAn37Complete t c pause s
  | .adaptTimeout t c => Sys2Proof.Machine.execAdaptTimeout t c s
  | .portUp t c skew => Sys2Proof.Machine.execPortUp t c skew s
  | .laneLoss t n signal => Sys2Proof.Machine.execLaneLoss t n signal s
  | .localFault t c cause => Sys2Proof.Machine.execLocalFault t c cause s
  | .remoteFault t c => Sys2Proof.Machine.execRemoteFault t c s
  | .localFaultClear t c => Sys2Proof.Machine.execLocalFaultClear t c s
  | .remoteFaultClear t c => Sys2Proof.Machine.execRemoteFaultClear t c s
  | .sendRf t o c on => Sys2Proof.Machine.execSendRf t o c on s
  | .frameReceive t c smd b fin v => Sys2Proof.Machine.execFrameReceive t c smd b fin v s
  | .pauseExpiry t c k => Sys2Proof.Machine.execPauseExpiry t c k s
  | .verifyTimeout t c => Sys2Proof.Machine.execVerifyTimeout t c s
  | .preemptFragment t c => Sys2Proof.Machine.execPreemptFragment t c s
  | .pauseTransmit t c => Sys2Proof.Machine.execPauseTransmit t c s
  | .frameTransmit t c => Sys2Proof.Machine.execFrameTransmit t c s
  | .frameTransmitEnd t c => Sys2Proof.Machine.execFrameTransmitEnd t c s
  | .flaneUp t baton n locked => Sys2Proof.Machine.execFlaneUp t baton n locked s
  | .flaneDown t baton n what => Sys2Proof.Machine.execFlaneDown t baton n what s
  | .laneCtlWrite t o page off v => Sys2Proof.Machine.execLaneCtlWrite t o page off v s
  | .eyeUpdate t grp n eye corr unc sym => Sys2Proof.Machine.execEyeUpdate t grp n eye corr unc sym s
  | .sdhFrame t ch line => Sys2Proof.Machine.execSdhFrame t ch line s
  | .losEntry t ch => Sys2Proof.Machine.execLosEntry t ch s
  | .consequentAction t ch => Sys2Proof.Machine.execConsequentAction t ch s
  | .tuMultiframe t trib => Sys2Proof.Machine.execTuMultiframe t trib s
  | .sdhTxFrame t ch => Sys2Proof.Machine.execSdhTxFrame t ch s
  | .pwPayloadClose t pw => Sys2Proof.Machine.execPwPayloadClose t pw s
  | .jbPlayout t pw => Sys2Proof.Machine.execJbPlayout t pw s
  | .pmSecond t ch => Sys2Proof.Machine.execPmSecond t ch s
  | .binComplete t => Sys2Proof.Machine.execBinComplete t s
  | .pmAlignWrite t o v => Sys2Proof.Machine.execPmAlignWrite t o v s
  | .dispatch t => Sys2Proof.Machine.execDispatch t s
  | .pipeIdle t => Sys2Proof.Machine.execPipeIdle t s
  | .pipelineRelease t badAct badCnt => Sys2Proof.Machine.execPipelineRelease t badAct badCnt s
  | .reorderCompletion t src seq x => Sys2Proof.Machine.execReorderCompletion t src seq x s
  | .reorderTimeout t src => Sys2Proof.Machine.execReorderTimeout t src s
  | .scanSlot t bad => Sys2Proof.Machine.execScanSlot t bad s
  | .bulkLookup t id bad => Sys2Proof.Machine.execBulkLookup t id bad s
  | .learnCommit t => Sys2Proof.Machine.execLearnCommit t s
  | .notifyPop t o => Sys2Proof.Machine.execNotifyPop t o s
  | .ageVisit t flow now => Sys2Proof.Machine.execAgeVisit t flow now s
  | .ftbAdd t tab bad => Sys2Proof.Machine.execFtbAdd t tab bad s
  | .ftbDelete t tab bad => Sys2Proof.Machine.execFtbDelete t tab bad s
  | .ftbSearch t tab bad => Sys2Proof.Machine.execFtbSearch t tab bad s
  | .ftbNext t tab bad => Sys2Proof.Machine.execFtbNext t tab bad s
  | .ftbFlush t tab => Sys2Proof.Machine.execFtbFlush t tab s
  | .lpmLookup t tab bad => Sys2Proof.Machine.execLpmLookup t tab bad s
  | .walkClose t tab => Sys2Proof.Machine.execWalkClose t tab s
  | .walkTimeout t tab => Sys2Proof.Machine.execWalkTimeout t tab s
  | .portDownFlush t => Sys2Proof.Machine.execPortDownFlush t s
  | .nodeRebuild t => Sys2Proof.Machine.execNodeRebuild t s
  | .tableScan t tab idx route bad => Sys2Proof.Machine.execTableScan t tab idx route bad s
  | .counterRead t o page off => Sys2Proof.Machine.execCounterRead t o page off s
  | .expressLookup t bus bad => Sys2Proof.Machine.execExpressLookup t bus bad s
  | .commitment t id n => Sys2Proof.Machine.execCommitment t id n s
  | .verdict t id => Sys2Proof.Machine.execVerdict t id s
  | .repinHoldEnd t id n => Sys2Proof.Machine.execRepinHoldEnd t id n s
  | .histClear t o h => Sys2Proof.Machine.execHistClear t o h s
  | .histCountRead t o h => Sys2Proof.Machine.execHistCountRead t o h s
  | .nodeAge t k => Sys2Proof.Machine.execNodeAge t k s
  | .sealVerdict t u ext cmp => Sys2Proof.Machine.execSealVerdict t u ext cmp s
  | .sealReturn t u => Sys2Proof.Machine.execSealReturn t u s
  | .berthRequest t r id => Sys2Proof.Machine.execBerthRequest t r id s
  | .bulkAdmit t id => Sys2Proof.Machine.execBulkAdmit t id s
  | .berthFree t party idx deep => Sys2Proof.Machine.execBerthFree t party idx deep s
  | .moverStart t => Sys2Proof.Machine.execMoverStart t s
  | .moverStop t => Sys2Proof.Machine.execMoverStop t s
  | .deepWriteConfirm t => Sys2Proof.Machine.execDeepWriteConfirm t s
  | .deepRead t q => Sys2Proof.Machine.execDeepRead t q s
  | .basinFlushGo t o => Sys2Proof.Machine.execBasinFlushGo t o s
  | .downFlush t => Sys2Proof.Machine.execDownFlush t s
  | .flushDone t => Sys2Proof.Machine.execFlushDone t s
  | .agerVisit t q => Sys2Proof.Machine.execAgerVisit t q s
  | .grant t p bad => Sys2Proof.Machine.execGrant t p bad s
  | .creditReturn t => Sys2Proof.Machine.execCreditReturn t s
  | .refillVisit t lvl bad => Sys2Proof.Machine.execRefillVisit t lvl bad s
  | .gateNotice t c => Sys2Proof.Machine.execGateNotice t c s
  | .gateApply t c => Sys2Proof.Machine.execGateApply t c s
  | .gateMiss t c => Sys2Proof.Machine.execGateMiss t c s
  | .pfcJudge t c => Sys2Proof.Machine.execPfcJudge t c s
  | .bargeReceive t f cw r => Sys2Proof.Machine.execBargeReceive t f cw r s
  | .bargeSend t f => Sys2Proof.Machine.execBargeSend t f s
  | .helloSend t f => Sys2Proof.Machine.execHelloSend t f s
  | .helloTimeout t f => Sys2Proof.Machine.execHelloTimeout t f s
  | .pairHoldExpiry t f => Sys2Proof.Machine.execPairHoldExpiry t f s
  | .floodRefresh t ty => Sys2Proof.Machine.execFloodRefresh t ty s
  | .floodForget t ty orig => Sys2Proof.Machine.execFloodForget t ty orig s
  | .masterAssign t => Sys2Proof.Machine.execMasterAssign t s
  | .routeCompute t => Sys2Proof.Machine.execRouteCompute t s
  | .expressFrameTimeout t f => Sys2Proof.Machine.execExpressFrameTimeout t f s
  | .gapRule t c => Sys2Proof.Machine.execGapRule t c s
  | .ackSend t c => Sys2Proof.Machine.execAckSend t c s
  | .treeFrameTimeout t f => Sys2Proof.Machine.execTreeFrameTimeout t f s
  | .unreachTimeout t v => Sys2Proof.Machine.execUnreachTimeout t v s
  | .trainingDone t c fail rwin wwin lane repaired => Sys2Proof.Machine.execTrainingDone t c fail rwin wwin lane repaired s
  | .retrain t o c => Sys2Proof.Machine.execRetrain t o c s
  | .driftCheck t c moves rwin wwin lane => Sys2Proof.Machine.execDriftCheck t c moves rwin wwin lane s
  | .memReadRequest t req addr n => Sys2Proof.Machine.execMemReadRequest t req addr n s
  | .memWriteRequest t req addr b => Sys2Proof.Machine.execMemWriteRequest t req addr b s
  | .commandIssue t c => Sys2Proof.Machine.execCommandIssue t c s
  | .readReturn t c req ce ue => Sys2Proof.Machine.execReadReturn t c req ce ue s
  | .refresh t c bank temp => Sys2Proof.Machine.execRefresh t c bank temp s
  | .patrolScrub t c => Sys2Proof.Machine.execPatrolScrub t c s
  | .diagRead t o c raw => Sys2Proof.Machine.execDiagRead t o c raw s
  | .diagReadDone t c ecc syn err => Sys2Proof.Machine.execDiagReadDone t c ecc syn err s
  | .recordStage t id => Sys2Proof.Machine.execRecordStage t id s
  | .closeMsTimeout t => Sys2Proof.Machine.execCloseMsTimeout t s
  | .closeNow t o => Sys2Proof.Machine.execCloseNow t o s
  | .dropStaged t o => Sys2Proof.Machine.execDropStaged t o s
  | .extentAssign t => Sys2Proof.Machine.execExtentAssign t s
  | .segmentQueue t k => Sys2Proof.Machine.execSegmentQueue t k s
  | .atpAck t => Sys2Proof.Machine.execAtpAck t s
  | .atpMissing t => Sys2Proof.Machine.execAtpMissing t s
  | .atpRefused t => Sys2Proof.Machine.execAtpRefused t s
  | .ackTimeout t k => Sys2Proof.Machine.execAckTimeout t k s
  | .atpProbe t => Sys2Proof.Machine.execAtpProbe t s
  | .probeAck t => Sys2Proof.Machine.execProbeAck t s
  | .retrievalGo t o => Sys2Proof.Machine.execRetrievalGo t o s
  | .retrievalContinue t o => Sys2Proof.Machine.execRetrievalContinue t o s
  | .retrievalDone t => Sys2Proof.Machine.execRetrievalDone t s
  | .replayGo t o => Sys2Proof.Machine.execReplayGo t o s
  | .replayStop t o => Sys2Proof.Machine.execReplayStop t o s
  | .replayFrame t => Sys2Proof.Machine.execReplayFrame t s
  | .pairPolicyWrite t o v => Sys2Proof.Machine.execPairPolicyWrite t o v s
  | .batonTally t lane b => Sys2Proof.Machine.execBatonTally t lane b s
  | .rangeResend t => Sys2Proof.Machine.execRangeResend t s
  | .linkWaitExpiry t => Sys2Proof.Machine.execLinkWaitExpiry t s
  | .beatSend t => Sys2Proof.Machine.execBeatSend t s
  | .recordBuild t => Sys2Proof.Machine.execRecordBuild t s
  | .recordLate t => Sys2Proof.Machine.execRecordLate t s
  | .recordApply t => Sys2Proof.Machine.execRecordApply t s
  | .batonLoss t => Sys2Proof.Machine.execBatonLoss t s
  | .faultDeclared t mateServo mateUp => Sys2Proof.Machine.execFaultDeclared t mateServo mateUp s
  | .matePgLow t => Sys2Proof.Machine.execMatePgLow t s
  | .silence t edge => Sys2Proof.Machine.execSilence t edge s
  | .takeover t => Sys2Proof.Machine.execTakeover t s
  | .handover t o => Sys2Proof.Machine.execHandover t o s
  | .handoverInstant t => Sys2Proof.Machine.execHandoverInstant t s
  | .forceFault t o => Sys2Proof.Machine.execForceFault t o s
  | .resync t o => Sys2Proof.Machine.execResync t o s
  | .fullCopy t => Sys2Proof.Machine.execFullCopy t s
  | .syncDone t => Sys2Proof.Machine.execSyncDone t s
  | .towpathFrame t laneB b => Sys2Proof.Machine.execTowpathFrame t laneB b s
  | .petSubmit t o => Sys2Proof.Machine.execPetSubmit t o s
  | .petCancel t o => Sys2Proof.Machine.execPetCancel t o s
  | .commandJudge t => Sys2Proof.Machine.execCommandJudge t s
  | .bankCopyGo t o => Sys2Proof.Machine.execBankCopyGo t o s
  | .standingOrders t sramBad => Sys2Proof.Machine.execStandingOrders t sramBad s
  | .statusSend t => Sys2Proof.Machine.execStatusSend t s
  | .sealClaim t o v => Sys2Proof.Machine.execSealClaim t o v s
  | .sealRelease t o v => Sys2Proof.Machine.execSealRelease t o v s
  | .gmacGen t o => Sys2Proof.Machine.execGmacGen t o s
  | .gmacVerify t o => Sys2Proof.Machine.execGmacVerify t o s
  | .gcmEnc t o => Sys2Proof.Machine.execGcmEnc t o s
  | .gcmDec t o => Sys2Proof.Machine.execGcmDec t o s
  | .consoleJobDone t => Sys2Proof.Machine.execConsoleJobDone t s
  | .consoleLeaseExpiry t => Sys2Proof.Machine.execConsoleLeaseExpiry t s
  | .heatIdleTimeout t => Sys2Proof.Machine.execHeatIdleTimeout t s
  | .heatResult t diff => Sys2Proof.Machine.execHeatResult t diff s
  | .stForce t o v => Sys2Proof.Machine.execStForce t o v s
  | .stUnretire t o v => Sys2Proof.Machine.execStUnretire t o v s
  | .lockstepMismatch t => Sys2Proof.Machine.execLockstepMismatch t s
  | .marshalClockLoss t => Sys2Proof.Machine.execMarshalClockLoss t s
  | .sramScrub t ces ue => Sys2Proof.Machine.execSramScrub t ces ue s
  | .keySlotScrub t slot bad => Sys2Proof.Machine.execKeySlotScrub t slot bad s
  | .memtestCell t bad => Sys2Proof.Machine.execMemtestCell t bad s
  | .rngHealthFail t => Sys2Proof.Machine.execRngHealthFail t s
  | .doorbell t f off v whole bad => Sys2Proof.Machine.execDoorbell t f off v whole bad s
  | .rxDma t u desc reads => Sys2Proof.Machine.execRxDma t u desc reads s
  | .txDma t u desc data reads => Sys2Proof.Machine.execTxDma t u desc data reads s
  | .dmaError t u data tx => Sys2Proof.Machine.execDmaError t u data tx s
  | .dmaTimeout t u tx => Sys2Proof.Machine.execDmaTimeout t u tx s
  | .itrExpiry t u => Sys2Proof.Machine.execItrExpiry t u s
  | .mbxPost t o k len => Sys2Proof.Machine.execMbxPost t o k len s
  | .mailboxAck t o k seq => Sys2Proof.Machine.execMailboxAck t o k seq s
  | .vfFlr t v => Sys2Proof.Machine.execVfFlr t v s
  | .vfFlrDone t v => Sys2Proof.Machine.execVfFlrDone t v s
  | .pfFlr t => Sys2Proof.Machine.execPfFlr t s
  | .hotReset t => Sys2Proof.Machine.execHotReset t s
  | .dirtySwap t o f => Sys2Proof.Machine.execDirtySwap t o f s
  | .swapComplete t f => Sys2Proof.Machine.execSwapComplete t f s
  | .dmaStop t o f => Sys2Proof.Machine.execDmaStop t o f s
  | .dmaStopped t f => Sys2Proof.Machine.execDmaStopped t f s
  | .pcieLinkChange t up speed width vfs => Sys2Proof.Machine.execPcieLinkChange t up speed width vfs s
  | .deviceReset t pg => Sys2Proof.Machine.execDeviceReset t pg s
  | .resetRelease t mode => Sys2Proof.Machine.execResetRelease t mode s
  | .resetArm t o v => Sys2Proof.Machine.execResetArm t o v s
  | .swReset t o => Sys2Proof.Machine.execSwReset t o s
  | .resetSelfRelease t mode => Sys2Proof.Machine.execResetSelfRelease t mode s
  | .fuseSenseDone t seen => Sys2Proof.Machine.execFuseSenseDone t seen s
  | .bankCheck t err => Sys2Proof.Machine.execBankCheck t err s
  | .startupRecord t timeout => Sys2Proof.Machine.execStartupRecord t timeout s
  | .pageStateChange t p pass => Sys2Proof.Machine.execPageStateChange t p pass s
  | .fwConfirm t o => Sys2Proof.Machine.execFwConfirm t o s
  | .tryOther t o => Sys2Proof.Machine.execTryOther t o s
  | .recovery t o => Sys2Proof.Machine.execRecovery t o s
  | .checkOther t o => Sys2Proof.Machine.execCheckOther t o s
  | .checkDone t err => Sys2Proof.Machine.execCheckDone t err s
  | .flashRead t o => Sys2Proof.Machine.execFlashRead t o s
  | .flashProgram t o => Sys2Proof.Machine.execFlashProgram t o s
  | .flashErase t o => Sys2Proof.Machine.execFlashErase t o s
  | .flashDone t err => Sys2Proof.Machine.execFlashDone t err s
  | .pkvVerify t o root => Sys2Proof.Machine.execPkvVerify t o root s
  | .verifyDone t => Sys2Proof.Machine.execVerifyDone t s
  | .fuseProg t o v => Sys2Proof.Machine.execFuseProg t o v s
  | .burnDone t failed => Sys2Proof.Machine.execBurnDone t failed s
  | .railUndervoltage t rail uv => Sys2Proof.Machine.execRailUndervoltage t rail uv s
  | .pllLockLoss t => Sys2Proof.Machine.execPllLockLoss t s
  | .thermTrip t => Sys2Proof.Machine.execThermTrip t s
  | .idcode t => Sys2Proof.Machine.execIdcode t s
  | .samplePreload t => Sys2Proof.Machine.execSamplePreload t s
  | .extest t => Sys2Proof.Machine.execExtest t s
  | .extestPulse t => Sys2Proof.Machine.execExtestPulse t s
  | .extestTrain t => Sys2Proof.Machine.execExtestTrain t s
  | .highz t => Sys2Proof.Machine.execHighz t s
  | .clamp t => Sys2Proof.Machine.execClamp t s
  | .regacc t w => Sys2Proof.Machine.execRegacc t w s
  | .devreset t => Sys2Proof.Machine.execDevreset t s
  | .bypass t ir => Sys2Proof.Machine.execBypass t ir s
  | .losExit t ch => Sys2Proof.Machine.execLosExit t ch s
  | .towpathLinkChange t laneB up an => Sys2Proof.Machine.execTowpathLinkChange t laneB up an s
  | .managementCoreReset t c => Sys2Proof.Machine.execManagementCoreReset t c s
  | .rstArmExpiry t => Sys2Proof.Machine.execRstArmExpiry t s
  | .bankCopyDone t => Sys2Proof.Machine.execBankCopyDone t s

end Sys2Proof.Machine
end

