-- ==== Sys2Proof/WellFormed.lean ====
section
/-! DEFINITION. Well-formed commands: every operand that numbers something of the device numbers one that exists. -/
namespace Sys2Proof

/-- The origin codes that R54 does not reserve. -/
def originOk (o : Nat) : Bool :=
  decide (o ≤ 0x43) || o == 0x50 || o == 0x51 || o == 0x60 || o == 0x70 || o == 0x71 || o == 0x7E || o == 0x7F

/-- A page of the register space (R29). -/
def pageOk (p : Nat) : Bool := decide (p < 512)

/-- A DW offset within a page (R29). -/
def offsetOk (off : Nat) : Bool := decide (off < 65536) && off % 4 == 0

/-- The byte enables of one DW (R37). -/
def beOk (be : Nat) : Bool := decide (be < 16)

/-- A lane of group 0 (N-lanes), 1 (F-lanes) or 2 (baton lanes) (R3). -/
def laneOk (grp n : Nat) : Bool := decide (grp < 3) && decide (n < (if grp = 2 then 8 else 256))

/-- The bytes that an item takes of a flit's 62 (R14). -/
def flitItemBytes : FlitItem → Nat
  | .frame _ _ n | .record _ n | .message _ n => n

/-- The command's operands are in range, for the larger variant (R3). -/
def Instr.wf (i : Instr) : Bool :=
  match i with
  | .flitReceive _ dir slice _ items => decide (dir < 2) && decide (slice < 64) && decide ((items.map flitItemBytes).sum ≤ 62)
  | .flitReplay _ dir slice => decide (dir < 2) && decide (slice < 64)
  | .epochPreannounce miss => miss.all pageOk
  | .epochBoundary => true
  | .memoryRequest _ o page off _ _ dws be par => originOk o && pageOk page && offsetOk off && decide (1 ≤ dws.length) && decide (dws.length ≤ 16) && decide (be.length = dws.length) && be.all beOk && par.all (fun i => decide (i < dws.length))
  | .registerWrite _ o page off _ be => originOk o && pageOk page && offsetOk off && beOk be
  | .rcRead _ o page off => originOk o && pageOk page && offsetOk off
  | .loWordRead _ o page off => originOk o && pageOk page && offsetOk off
  | .postedWriteLand _ page => pageOk page
  | .chamberWrite _ o page off _ be => originOk o && pageOk page && offsetOk off && beOk be
  | .softRst _ o page => originOk o && pageOk page
  | .softResetDone _ page => pageOk page
  | .chamberSync _ o page => originOk o && pageOk page
  | .pageEnable _ o page => originOk o && pageOk page
  | .pageDisable _ o page => originOk o && pageOk page
  | .lockMemberWrite _ o page _ => originOk o && pageOk page
  | .lockBegin _ o => originOk o
  | .lockGo _ o => originOk o
  | .lockAbort _ o => originOk o
  | .lockClear _ o => originOk o
  | .marshalRequest _ => true
  | .preemptTimeout _ => true
  | .levellingResult _ => true
  | .levelTimeout _ => true
  | .lockConfirm _ => true
  | .oldCopyRelease _ => true
  | .tableWrite _ o page off _ be => originOk o && pageOk page && offsetOk off && beOk be
  | .logRdSeqWrite _ o _ => originOk o
  | .logDmaCopy _ => true
  | .pmOverflow _ page k => pageOk page && decide (k < 8)
  | .pmOvfFreeze _ page => pageOk page
  | .pmClear _ o page => originOk o && pageOk page
  | .snap _ o => originOk o
  | .freeze _ o => originOk o
  | .thaw _ o => originOk o
  | .eoi _ o vec => originOk o && decide (vec < 2048)
  | .irqHoldoffExpiry _ target vec => decide (target < 2) && decide (vec < 2048)
  | .servoInput _ => true
  | .servoSourceTimeout _ => true
  | .holdoverLimit _ => true
  | .servoModeWrite _ o _ => originOk o
  | .replicaCorrection _ _ => true
  | .refSelect _ o sel => originOk o && decide (sel < 4)
  | .referenceSwitch _ ok => decide (ok < 8)
  | .referenceLoss _ ref => decide (ref < 3)
  | .txtsPop _ o => originOk o
  | .rclkSquelch _ _ => true
  | .rclkResume _ _ => true
  | .ppsInEdge _ => true
  | .ppsOutEdge _ => true
  | .epochRun _ o => originOk o
  | .timStep _ o => originOk o
  | .setTime _ o => originOk o
  | .lanesReady _ c locks => decide (c < 256) && decide (locks < 16)
  | .an37Complete _ c _ => decide (c < 256)
  | .adaptTimeout _ c => decide (c < 256)
  | .portUp _ c _ => decide (c < 256)
  | .laneLoss _ n _ => decide (n < 256)
  | .localFault _ c cause => decide (c < 256) && decide (cause < 4)
  | .remoteFault _ c => decide (c < 256)
  | .localFaultClear _ c => decide (c < 256)
  | .remoteFaultClear _ c => decide (c < 256)
  | .sendRf _ o c _ => originOk o && decide (c < 256)
  | .frameReceive _ c _ _ _ _ => decide (c < 256)
  | .pauseExpiry _ c k => decide (c < 256) && decide (k < 9)
  | .verifyTimeout _ c => decide (c < 256)
  | .preemptFragment _ c => decide (c < 256)
  | .pauseTransmit _ c => decide (c < 256)
  | .frameTransmit _ c => decide (c < 256)
  | .frameTransmitEnd _ c => decide (c < 256)
  | .flaneUp _ baton n _ => laneOk (if baton then 2 else 1) n
  | .flaneDown _ baton n what => laneOk (if baton then 2 else 1) n && decide (what < 3)
  | .laneCtlWrite _ o page off _ => originOk o && pageOk page && offsetOk off
  | .eyeUpdate _ grp n eye _ _ _ => laneOk grp n && decide (eye < 256)
  | .sdhFrame _ ch _ => decide (ch < 32)
  | .losEntry _ ch => decide (ch < 32)
  | .consequentAction _ ch => decide (ch < 32)
  | .tuMultiframe _ trib => decide (trib < 16128)
  | .sdhTxFrame _ ch => decide (ch < 32)
  | .pwPayloadClose _ pw => decide (pw < 16384)
  | .jbPlayout _ pw => decide (pw < 16384)
  | .pmSecond _ ch => decide (ch < 32)
  | .binComplete _ => true
  | .pmAlignWrite _ o _ => originOk o
  | .dispatch _ => true
  | .pipeIdle _ => true
  | .pipelineRelease .. => true
  | .reorderCompletion _ src _ _ => decide (src < 289)
  | .reorderTimeout _ src => decide (src < 289)
  | .scanSlot _ _ => true
  | .bulkLookup _ _ _ => true
  | .learnCommit _ => true
  | .notifyPop _ o => originOk o
  | .ageVisit _ _ _ => true
  | .ftbAdd _ _ _ => true
  | .ftbDelete _ _ _ => true
  | .ftbSearch _ _ _ => true
  | .ftbNext _ _ _ => true
  | .ftbFlush _ _ => true
  | .lpmLookup .. => true
  | .walkClose _ _ => true
  | .walkTimeout _ _ => true
  | .portDownFlush _ => true
  | .nodeRebuild _ => true
  | .tableScan _ _ _ _ _ => true
  | .counterRead _ o page off => originOk o && pageOk page && offsetOk off
  | .expressLookup .. => true
  | .commitment _ _ _ => true
  | .verdict _ _ => true
  | .repinHoldEnd _ _ _ => true
  | .histClear _ o h => originOk o && decide (h < 64)
  | .histCountRead _ o h => originOk o && decide (h < 64)
  | .nodeAge _ k => decide (k < 16384)
  | .sealVerdict _ u _ _ => decide (u < 64)
  | .sealReturn _ u => decide (u < 64)
  | .berthRequest _ _ _ => true
  | .bulkAdmit _ _ => true
  | .berthFree _ _ _ _ => true
  | .moverStart _ => true
  | .moverStop _ => true
  | .deepWriteConfirm _ => true
  | .deepRead _ q => decide (q < 1049088)
  | .basinFlushGo _ o => originOk o
  | .downFlush _ => true
  | .flushDone _ => true
  | .agerVisit _ q => decide (q < 1049088)
  | .grant _ p _ => decide (p < 1280)
  | .creditReturn _ => true
  | .refillVisit _ lvl _ => decide (lvl < 5)
  | .gateNotice _ c => decide (c < 256)
  | .gateApply _ c => decide (c < 256)
  | .gateMiss _ c => decide (c < 256)
  | .pfcJudge _ c => decide (c < 256)
  | .bargeReceive _ f _ _ => decide (f < 256)
  | .bargeSend _ f => decide (f < 256)
  | .helloSend _ f => decide (f < 256)
  | .helloTimeout _ f => decide (f < 256)
  | .pairHoldExpiry _ f => decide (f < 256)
  | .floodRefresh _ ty => decide (ty < 256)
  | .floodForget _ _ _ => true
  | .masterAssign _ => true
  | .routeCompute _ => true
  | .expressFrameTimeout _ f => decide (f < 256)
  | .gapRule _ c => decide (c < 256)
  | .ackSend _ c => decide (c < 256)
  | .treeFrameTimeout _ f => decide (f < 256)
  | .unreachTimeout _ v => decide (v < 1024)
  | .trainingDone _ c _ _ _ _ _ => decide (c < 12)
  | .retrain _ o c => originOk o && decide (c < 12)
  | .driftCheck _ c _ _ _ _ => decide (c < 12)
  | .memReadRequest _ _ _ _ => true
  | .memWriteRequest _ _ _ _ => true
  | .commandIssue _ c => decide (c < 12)
  | .readReturn _ c _ _ _ => decide (c < 12)
  | .refresh _ c _ _ => decide (c < 12)
  | .patrolScrub _ c => decide (c < 12)
  | .diagRead _ o c _ => originOk o && decide (c < 12)
  | .diagReadDone _ c _ _ _ => decide (c < 12)
  | .recordStage _ _ => true
  | .closeMsTimeout _ => true
  | .closeNow _ o => originOk o
  | .dropStaged _ o => originOk o
  | .extentAssign _ => true
  | .segmentQueue _ k => decide (k < 256)
  | .atpAck _ => true
  | .atpMissing _ => true
  | .atpRefused _ => true
  | .ackTimeout _ k => decide (k < 256)
  | .atpProbe _ => true
  | .probeAck _ => true
  | .retrievalGo _ o => originOk o
  | .retrievalContinue _ o => originOk o
  | .retrievalDone _ => true
  | .replayGo _ o => originOk o
  | .replayStop _ o => originOk o
  | .replayFrame _ => true
  | .pairPolicyWrite _ o _ => originOk o
  | .batonTally _ lane _ => decide (lane < 8)
  | .rangeResend _ => true
  | .linkWaitExpiry _ => true
  | .beatSend _ => true
  | .recordBuild _ => true
  | .recordLate _ => true
  | .recordApply _ => true
  | .batonLoss _ => true
  | .faultDeclared _ _ _ => true
  | .matePgLow _ => true
  | .silence _ _ => true
  | .takeover _ => true
  | .handover _ o => originOk o
  | .handoverInstant _ => true
  | .forceFault _ o => originOk o
  | .resync _ o => originOk o
  | .fullCopy _ => true
  | .syncDone _ => true
  | .towpathFrame _ _ _ => true
  | .petSubmit _ o => originOk o
  | .petCancel _ o => originOk o
  | .commandJudge _ => true
  | .bankCopyGo _ o => originOk o
  | .standingOrders _ _ => true
  | .statusSend _ => true
  | .sealClaim _ o _ => originOk o
  | .sealRelease _ o _ => originOk o
  | .gmacGen _ o => originOk o
  | .gmacVerify _ o => originOk o
  | .gcmEnc _ o => originOk o
  | .gcmDec _ o => originOk o
  | .consoleJobDone _ => true
  | .consoleLeaseExpiry _ => true
  | .heatIdleTimeout _ => true
  | .heatResult _ _ => true
  | .stForce _ o _ => originOk o
  | .stUnretire _ o _ => originOk o
  | .lockstepMismatch _ => true
  | .marshalClockLoss _ => true
  | .sramScrub _ _ _ => true
  | .keySlotScrub _ slot _ => decide (slot < 256)
  | .memtestCell _ _ => true
  | .rngHealthFail _ => true
  | .doorbell _ f _ _ _ _ => decide (f < 64)
  | .rxDma _ u _ _ => decide (u < 512)
  | .txDma _ u _ _ _ => decide (u < 512)
  | .dmaError _ u _ _ => decide (u < 512)
  | .dmaTimeout _ u _ => decide (u < 512)
  | .itrExpiry _ u => decide (u < 512)
  | .mbxPost _ o k len => originOk o && decide (k < 8) && decide (len < 65)
  | .mailboxAck _ o k _ => originOk o && decide (k < 8)
  | .vfFlr _ v => decide (1 ≤ v) && decide (v < 64)
  | .vfFlrDone _ v => decide (1 ≤ v) && decide (v < 64)
  | .pfFlr _ => true
  | .hotReset _ => true
  | .dirtySwap _ o f => originOk o && decide (f < 64)
  | .swapComplete _ f => decide (f < 64)
  | .dmaStop _ o f => originOk o && decide (f < 64)
  | .dmaStopped _ f => decide (f < 64)
  | .pcieLinkChange _ _ _ _ vfs => decide (vfs < 64)
  | .deviceReset _ _ => true
  | .resetRelease _ mode => decide (mode < 4)
  | .resetArm _ o _ => originOk o
  | .swReset _ o => originOk o
  | .resetSelfRelease _ mode => decide (mode < 4)
  | .fuseSenseDone _ _ => true
  | .bankCheck _ _ => true
  | .startupRecord _ _ => true
  | .pageStateChange _ p _ => pageOk p
  | .fwConfirm _ o => originOk o
  | .tryOther _ o => originOk o
  | .recovery _ o => originOk o
  | .checkOther _ o => originOk o
  | .checkDone _ _ => true
  | .flashRead _ o => originOk o
  | .flashProgram _ o => originOk o
  | .flashErase _ o => originOk o
  | .flashDone _ _ => true
  | .pkvVerify _ o _ => originOk o
  | .verifyDone _ => true
  | .fuseProg _ o _ => originOk o
  | .burnDone _ _ => true
  | .railUndervoltage .. => true
  | .pllLockLoss _ => true
  | .thermTrip _ => true
  | .idcode _ => true
  | .samplePreload _ => true
  | .extest _ => true
  | .extestPulse _ => true
  | .extestTrain _ => true
  | .highz _ => true
  | .clamp _ => true
  | .regacc _ _ => true
  | .devreset _ => true
  | .bypass _ ir => decide (ir < 256)
  | .losExit _ ch => decide (ch < 32)
  | .towpathLinkChange _ _ _ _ => true
  | .managementCoreReset _ c => decide (c < 4)
  | .rstArmExpiry _ => true
  | .bankCopyDone _ => true

end Sys2Proof
end

