-- ==== Sys2Proof/Safety.lean ====
section
/-! DEFINITION. The terms in which claims are stated: a command that completes, a register write that nothing refuses, what a command leaves as it was, and the invariant of every step. -/
namespace Sys2Proof.Machine

/-- The command completes in a state of which `Q` holds. -/
def Runs (i : Instr) (s : State) (Q : State → Prop) : Prop := ∃ u, exec i s = .next u ∧ Q u

/-- A one-DW access of an origin other than a VF comes to page `p` of a live device: the page exists, JTAG is not locked out, and the change
log can take the record (R30, R38, R59, R480). -/
structure Admitted (o p : Nat) (s : State) : Prop where
  live : held s = false
  notVf : isVf o = false
  page : pageLive p s = true
  pageLt : p < 512
  jtag : (o == 0x7E && jtagLocked s) = false
  log : heldOrigin p o s = false

/-- The access reaches a register from offset 0x100 that the origin may touch (R33-R38). -/
structure Reaches (o p off : Nat) (s : State) : Prop extends Admitted o p s where
  ge : 0x100 ≤ off
  lt : off < 0x4000
  sf : isMarshal o = true ∨ sfReg p off = false

/-- The access reaches PG_CTL of a page that no lock cycle has frozen (R34, R44, R414). -/
structure ReachesCtl (o p : Nat) (s : State) : Prop extends Admitted o p s where
  sf : isMarshal o = true ∨ ctlSf p = false
  unfrozen : frozenPage p s = false

/-- The commands that act while the device is in reset or held by its fuses: the reset pins, the supplies, the release, fuse sensing, and
JTAG (R466, R478, R507, R515). -/
def actsHeld (c : Instr) : Bool :=
  match c with
  | .deviceReset .. => true
  | .railUndervoltage .. => true
  | .pllLockLoss .. => true
  | .resetRelease .. => true
  | .resetSelfRelease .. => true
  | .fuseSenseDone .. => true
  | .idcode .. => true
  | .samplePreload .. => true
  | .extest .. => true
  | .extestPulse .. => true
  | .extestTrain .. => true
  | .highz .. => true
  | .clamp .. => true
  | .regacc .. => true
  | .devreset .. => true
  | .bypass .. => true
  | _ => false

/-- No frame is on its way through the MAC of a channel. -/
def quietMac (c : Nat) (s : State) : Bool :=
  (port c s).tx.isNone && (port c s).susp.isNone && (port c s).rx.isNone && (port c s).ctx.isNone

/-- The parts of the state. -/
inductive Part where
  | link | lock | snap | resp | tim | boot | fixed | jtag | lic | sdh | pac | ftb | exp | bas | pcr | fab | mem | arc | pair | msh | hif
  | regs | free
  deriving DecidableEq, Repr

/-- A part of the state is as it was. Time moves with every command, so of the time unit everything else counts; of the registers,
every register from offset 0x100 but those of the log's page, every PG_CTL, the tables, the chamber and the latches; of the marshal
everything but the last event it reports and the STATUS message due for it, of the host interface everything but the messages sent. The
change log, the counters, the interrupt state and the common headers, which events and accepted writes change, are outside the parts. -/
def same (p : Part) (a b : State) : Prop :=
  match p with
  | .link => b.link = a.link
  | .lock => b.lock = a.lock
  | .snap => b.snap = a.snap
  | .resp => b.resp = a.resp
  | .tim => { b.tim with now := a.tim.now, up := a.tim.up } = a.tim
  | .boot => b.boot = a.boot
  | .fixed => b.fixed = a.fixed
  | .jtag => b.jtag = a.jtag
  | .lic => b.lic = a.lic
  | .sdh => b.sdh = a.sdh
  | .pac => b.pac = a.pac
  | .ftb => b.ftb = a.ftb
  | .exp => b.exp = a.exp
  | .bas => b.bas = a.bas
  | .pcr => b.pcr = a.pcr
  | .fab => b.fab = a.fab
  | .mem => b.mem = a.mem
  | .arc => b.arc = a.arc
  | .pair => b.pair = a.pair
  | .msh => { b.msh with lastEvent := a.msh.lastEvent, statusDue := a.msh.statusDue } = a.msh
  | .hif => { b.hif with msgs := a.hif.msgs } = a.hif
  | .regs => { b.regs with live := a.regs.live, pm := a.regs.pm, ovfPend := a.regs.ovfPend } = a.regs ∧
      (∀ q off, q ≠ 2 → 0x100 ≤ off → off < 65536 → rd q off b = rd q off a) ∧ ∀ q, rd q 8 b = rd q 8 a
  | .free => b.free = a.free

/-- Every part but those named is as it was. -/
def KeepsBut (ps : List Part) (a b : State) : Prop := ∀ p, p ∉ ps → same p a b

/-- Every table and every register but those named, the common headers and those of the log's page reads as it did. -/
def RegsBut (l : List (Nat × Nat)) (a b : State) : Prop :=
  b.regs.tbl = a.regs.tbl ∧ ∀ q off, (q, off) ∉ l → q ≠ 2 → 0x100 ≤ off → off < 65536 → rd q off b = rd q off a

/-- The device runs only while DEV_RST_N and DEV_PG are high (R466), and every waiting command is well formed. -/
def Inv (s : State) : Prop :=
  (s.boot.inReset = true ∨ (s.boot.rstN = true ∧ s.boot.devPg = true)) ∧ ∀ c ∈ s.pending, c.wf = true

end Sys2Proof.Machine
end

