-- ==== Sys2Proof/Certificates/Slice0/Obligations.lean ====
section
/-! DEFINITION. The statements for the provers: the machine as a whole, the completion and the frame of the commands of each family, and the rules of the spec that say what they do. -/
open Sys2Proof Sys2Proof.Machine

/-! ## The machine as a whole -/

/-- A step takes the command at the front of the queue and runs it with the rest still waiting. -/
def Obligations.StepRunsFront : Prop :=
  ∀ (c : Instr) (rest : List Instr) (s : State), s.pending = c :: rest → step s = exec c { s with pending := rest }

/-- With no command waiting, five cycles of domain 607 without adjustment add exactly 8 ns (R68), and nothing else changes. That an empty
queue lets one cycle pass is the model's choice (log entry 17). -/
def Obligations.IdleCyclesAddEightNs : Prop :=
  ∀ s : State, s.pending = [] → held s = false → rd pgTim 0x110 s = 0 → s.tim.frac = 0 →
    ∃ u, Sys2Proof.core.run 5 s = .next u ∧ u.tim.now = s.tim.now + 8 * 2 ^ 32 ∧ u.tim.frac = 0 ∧ u.pending = [] ∧ KeepsBut [] s u

/-- The device runs only while both reset pins are high, and every waiting command is well formed: every step keeps this. -/
def Obligations.StepKeepsInv : Prop := ∀ s u : State, Inv s → step s = .next u → Inv u

/-- The invariant holds right after reset. -/
def Obligations.ResetMeetsInv : Prop := Inv State.reset

/-- While the device is in reset, or held by its fuses, every command but the reset pins, the supplies, the release, fuse sensing and JTAG
leaves it exactly as it is (R466, R478). -/
def Obligations.HeldDeviceIgnores : Prop :=
  ∀ (c : Instr) (s : State), held s = true → actsHeld c = false → exec c s = .next s

/-- Every command answers a next state: none stops the device. -/
def Obligations.EveryCommandAnswers : Prop := ∀ (c : Instr) (s : State), ∃ u, exec c s = .next u ∧ u.pending = s.pending

/-- Right after reset is released the master counter holds zero (R68), every register and table word holds its reset value, nothing is
staged, dirty, latched or counted, the lock engine is idle, and the change log holds the RESET record alone (R56). -/
def Obligations.ResetState : Prop :=
  State.reset.tim.now = 0 ∧ State.reset.tim.run = false ∧ (∀ p off, rd p off State.reset = resetOf (rkey p off)) ∧
    (∀ x i w, tw x i w State.reset = tblReset (tkey x i w)) ∧ State.reset.regs = {} ∧ State.reset.lock = {} ∧ State.reset.pending = [] ∧
    State.reset.log.wrSeq = 1 ∧ (∃ r, find? State.reset.log.ring 0 = some r ∧ r.type = 0x08 ∧ r.offset = 1 ∧ r.seq = 0)
/-! ## Time, references and epochs -/

/-- The servo (R81, R83). An input taken in mode 1 or 2 adds KI × ofs to the integral, sets TIM_FREQ_ADJ to (I + KP × ofs) clamped to
200 ppm, and moves STATE by the table: from FREE and HOLDOVER to ACQUIRING, with the integral starting at 0 and at the frozen
adjustment; between ACQUIRING and LOCKED after N inputs in a row within THR, or outside it. No input for SRC_TIMEOUT takes LOCKED to HOLDOVER with
the mean adjustment kept, and ACQUIRING to FREE; LIMIT minutes of HOLDOVER end in FREE with the adjustment frozen. A write of MODE 0
returns STATE to FREE, and any other leaves it. The rounding of the loop and of the mean is the model's (log entry 216). -/
def Obligations.ServoCommands : Prop :=
  (∀ t s ofs, held s = false → s.tim.pendOfs = some ofs → servoDrives s = true →
    (let ki := fld (rd pgTim 0x114 s) 12 8
     let kp := fld (rd pgTim 0x114 s) 4 8
     let start : Int := match s.tim.servo with
       | .free => 0
       | .holdover => sgn (rd pgTim 0x110 s).toNat 32 * 4096
       | _ => s.tim.acc
     let inside := -(rf pgTim 0x11C 0 12 s * 256 : Int) ≤ ofs ∧ ofs ≤ (rf pgTim 0x11C 0 12 s * 256 : Int)
     let need := rf pgTim 0x11C 12 4 s + 1
     Runs (.servoInput t) s (fun u => u.tim.pendOfs = none ∧ u.tim.lastInput = (advance t s).tim.up ∧ u.tim.lastOfs = ofs ∧
       u.tim.acc = start + ki * ofs ∧ rd pgTim 0x110 u = w32 (unsgn (adjClamp ((start + ki * ofs + kp * ofs * 16) / 4096)) 32) ∧
       (s.tim.servo = .free ∨ s.tim.servo = .holdover → u.tim.servo = .acquiring) ∧
       (s.tim.servo = .acquiring → u.tim.servo = if inside ∧ need ≤ s.tim.inRun + 1 then .locked else .acquiring) ∧
       (s.tim.servo = .locked → u.tim.servo = if ¬inside ∧ need ≤ s.tim.outRun + 1 then .acquiring else .locked) ∧
       KeepsBut [.tim, .regs] s u ∧ RegsBut [(pgTim, 0x110)] s u))) ∧
  (∀ t s, held s = false → s.tim.servo = .locked →
    Runs (.servoSourceTimeout t) s (fun u => u.tim.servo = .holdover ∧ rd pgTim 0x110 u = w32 (unsgn (adjClamp (adjMean s)) 32) ∧
      u.tim.holdStart = (advance t s).tim.up ∧ KeepsBut [.tim, .regs] s u ∧ RegsBut [(pgTim, 0x110)] s u)) ∧
  (∀ t s, held s = false → s.tim.servo = .acquiring →
    Runs (.servoSourceTimeout t) s (fun u => u.tim.servo = .free ∧ KeepsBut [.tim] s u)) ∧
  (∀ t s, held s = false → s.tim.servo = .holdover →
    Runs (.holdoverLimit t) s (fun u => u.tim.servo = .free ∧ rd pgTim 0x110 u = rd pgTim 0x110 s ∧ KeepsBut [.tim] s u)) ∧
  (∀ t o v s, Reaches o pgTim 0x114 s →
    Runs (.servoModeWrite t o v) s (fun u => servoMode u = fld v 0 2 ∧ u.tim.servo = (if fld v 0 2 = 0 then .free else s.tim.servo) ∧
      KeepsBut [.tim, .regs, .resp] s u ∧ RegsBut [(pgTim, 0x114)] s u))

/-- References and pins (R70, R80, R84-R86, R513): the replica's error is reported; SEL starts a change of reference and code 3 is ignored;
the switch takes the reference asked for, reports the three inputs and the lock, and does not step the time; a lost reference leaves the
adjustment. A recovered-clock output with EN and SQUELCH_EN whose lane has no signal or lock is squelched, and resumes once the lane has
both. A first edge at the enabled 1PPS input is stamped less its offset. The 1PPS output and the 10 MHz output rise at the edge of the
second less TIM_PPS_OUT_OFS, the first for WIDTH µs, when they are enabled and the servo state allows it. -/
def Obligations.ReferenceCommands : Prop :=
  (∀ t err s, held s = false → Runs (.replicaCorrection t err) s (fun u => u.tim.replicaErr = err ∧ KeepsBut [.tim] s u)) ∧
  (∀ t o sel s, Reaches o pgRef 0x100 s → sel < 3 → sel ≠ rf pgRef 0x100 0 2 s →
    Runs (.refSelect t o sel) s (fun u => u.tim.refPending = some sel ∧ u.tim.refActive = s.tim.refActive ∧ rf pgRef 0x100 0 2 u = sel ∧
      KeepsBut [.tim, .regs, .resp] s u ∧ RegsBut [(pgRef, 0x100)] s u)) ∧
  (∀ t o s, Reaches o pgRef 0x100 s →
    Runs (.refSelect t o 3) s (fun u => rd pgRef 0x100 u = rd pgRef 0x100 s ∧ KeepsBut [.regs, .resp] s u ∧ RegsBut [] s u)) ∧
  (∀ t ok s, held s = false →
    Runs (.referenceSwitch t ok) s (fun u => u.tim.refActive = s.tim.refPending.getD s.tim.refActive ∧ u.tim.refPending = none ∧
      u.tim.refStat = ok % 8 + b2n (nbit ok u.tim.refActive || nbit s.tim.refStat 3) * 8 ∧
      u.tim.now = (advance t s).tim.now ∧ KeepsBut [.tim] s u)) ∧
  (∀ t r s, held s = false → r < 3 → nbit s.tim.refStat r = true →
    Runs (.referenceLoss t r) s (fun u => u.tim.refStat = s.tim.refStat - 2 ^ r ∧ rd pgTim 0x110 u = rd pgTim 0x110 s ∧ KeepsBut [.tim] s u)) ∧
  (∀ t s, held s = false → bitOf (rclkCfg false s) 20 = true → bitOf (rclkCfg false s) 21 = true → s.tim.sqA = false →
    rclkLaneOk false s = false →
    Runs (.rclkSquelch t false) s (fun u => u.tim.sqA = true ∧ u.tim.sqB = s.tim.sqB ∧ rclkDriven false u = false ∧ KeepsBut [.tim] s u)) ∧
  (∀ t s, held s = false → bitOf (rclkCfg true s) 20 = true → bitOf (rclkCfg true s) 21 = true → s.tim.sqB = false →
    rclkLaneOk true s = false →
    Runs (.rclkSquelch t true) s (fun u => u.tim.sqB = true ∧ u.tim.sqA = s.tim.sqA ∧ rclkDriven true u = false ∧ KeepsBut [.tim] s u)) ∧
  (∀ t outB s, held s = false → rclkLaneOk outB s = true →
    Runs (.rclkResume t outB) s (fun u => (if outB then u.tim.sqB else u.tim.sqA) = false ∧
      (if outB then u.tim.sqA = s.tim.sqA else u.tim.sqB = s.tim.sqB) ∧ KeepsBut [.tim] s u)) ∧
  (∀ raw s, held s = false → rb pgRef 0x11C 0 s = true → s.tim.ppsIn = none → s.tim.servo ≠ .locked →
    Runs (.ppsInEdge raw) s (fun u => u.tim.ppsIn = some (shiftStamp raw (-(sgn (rd pgRef 0x120 s).toNat 32))) ∧
      rd pgRef 0x130 u = rd pgRef 0x130 s ∧ KeepsBut [.tim] s u)) ∧
  (∀ t s, held s = false → (let w := rd pgRef 0x110 s
    bitOf w 0 = true ∧ (bitOf w 1 = false ∨ s.tim.servo = .locked ∨ s.tim.servo = .holdover)) →
    Runs (.ppsOutEdge t) s (fun u => u.tim.ppsOut = some (ppsEdgeAt t s) ∧
      u.tim.ppsFall = ppsEdgeAt t s + fld (rd pgRef 0x110 s) 8 16 * 1000 * nsU ∧ KeepsBut [.tim] s u)) ∧
  (∀ t s, held s = false → (let m := rd pgRef 0x118 s
    bitOf m 0 = true ∧ (bitOf m 1 = false ∨ s.tim.servo = .locked ∨ s.tim.servo = .holdover)) →
    Runs (.ppsOutEdge t) s (fun u => u.tim.tenmOut = some (ppsEdgeAt t s) ∧ KeepsBut [.tim] s u))

/-- R85: an edge at the enabled 1PPS input is stamped less TIM_PPS_IN_OFS. One that arrives within 500 ms of the last accepted edge, or lies
more than 100 ms from a whole second while LOCKED, is rejected and counted in TIM_PPS_IN_REJ; any other updates the stamp and, in mode 2,
feeds the servo. -/
def Obligations.PpsInputEdge : Prop :=
  ∀ raw s, held s = false → rb pgRef 0x11C 0 s = true →
    (let e := shiftStamp raw (-(sgn (rd pgRef 0x120 s).toNat 32))
     let rejected := (s.tim.ppsIn.isSome = true ∧ (advance raw s).tim.up < s.tim.ppsUp + 500000000 * 2 ^ 32) ∨
       (s.tim.servo = .locked ∧ 100000000 * nsU < e % secU ∧ 100000000 * nsU < secU - e % secU)
     Runs (.ppsInEdge raw) s (fun u =>
       (rejected → u.tim.ppsIn = s.tim.ppsIn ∧ u.tim.ppsUp = s.tim.ppsUp ∧ u.tim.pendOfs = s.tim.pendOfs ∧
         (rd pgRef 0x130 u).toNat = satAdd (rd pgRef 0x130 s).toNat 1 (2 ^ 32 - 1)) ∧
       (¬rejected → u.tim.ppsIn = some e ∧ u.tim.ppsUp = (advance raw s).tim.up ∧ rd pgRef 0x130 u = rd pgRef 0x130 s ∧
         u.tim.pendOfs = (if servoMode s = 2 then some (secondOfs e) else s.tim.pendOfs)) ∧
       KeepsBut [.tim, .regs] s u ∧ RegsBut [(pgRef, 0x130)] s u))

/-- RUN, STEP, SET and the head of the stamp FIFO (R78, R88, R89). RUN starts the generator at the first boundary whose preannouncement
instant is not past, and does nothing more when it is set. STEP waits with its amount while RUN = 1 and moves the time at once before
it; it is discarded while paired or while a step is pending. SET loads the time before RUN and is discarded after it. POP removes the head of
the stamp FIFO. -/
def Obligations.EpochRegisterCommands : Prop :=
  (∀ t o s, Reaches o pgTim 0x134 s → s.tim.run = false →
    Runs (.epochRun t o) s (fun u => u.tim.run = true ∧
      (advance t s).tim.now + 20000 * 2 ^ 32 ≤ u.tim.nextIssue * 125000 * 2 ^ 32 ∧
      u.tim.nextIssue * 125000 * 2 ^ 32 < (advance t s).tim.now + 145000 * 2 ^ 32 ∧
      KeepsBut [.tim, .regs, .resp] s u ∧ RegsBut [(pgTim, 0x134)] s u)) ∧
  (∀ t o s, Reaches o pgTim 0x134 s → s.tim.run = true →
    Runs (.epochRun t o) s (fun u => KeepsBut [.regs, .resp] s u ∧ RegsBut [(pgTim, 0x134)] s u)) ∧
  (∀ t o s, Reaches o pgTim 0x130 s → s.tim.run = true → s.tim.step = none → s.lock.paired = false →
    Runs (.timStep t o) s (fun u => u.tim = { (advance t s).tim with step := some (stepAmount s) } ∧ KeepsBut [.tim, .resp] s u)) ∧
  (∀ t o s, Reaches o pgTim 0x130 s → s.tim.run = false → s.tim.step = none → s.lock.paired = false →
    Runs (.timStep t o) s (fun u => u.tim = { (advance t s).tim with now := (advance t s).tim.now + stepAmount s * 65536 } ∧
      KeepsBut [.resp] s u)) ∧
  (∀ t o s, Reaches o pgTim 0x130 s → (s.lock.paired = true ∨ s.tim.step.isSome = true) →
    Runs (.timStep t o) s (fun u => u.tim = (advance t s).tim ∧ KeepsBut [.resp] s u)) ∧
  (∀ t o s, Reaches o pgTim 0x130 s →
    Runs (.setTime t o) s (fun u => u.tim = (if s.tim.run then (advance t s).tim else { (advance t s).tim with now := stepAmount s * 65536 }) ∧
      KeepsBut [.resp] s u)) ∧
  (∀ t o s, Reaches o pgPtp 0x124 s →
    Runs (.txtsPop t o) s (fun u => u.tim = { (advance t s).tim with txts := s.tim.txts.drop 1 } ∧ KeepsBut [.tim, .resp] s u))

/-- The preannouncement carries the boundary's number, its stamp and the committed step, and binds a waiting snapshot command (R64, R88);
with no lock waiting for this epoch it changes nothing else. As the boundary is reached its epoch is in force, with no lock bound to it; a
step that it carries moves the time on by its amount, and without one the next number follows (R87, R89). The counts of uncorrectable
flits are those of the new epoch alone, when no domain missed it (R19). -/
def Obligations.EpochBoundaries : Prop :=
  (∀ miss s, held s = false → s.tim.run = true → s.tim.issued = none → s.lock.st ≠ .level → s.lock.st ≠ .ready →
    Runs (.epochPreannounce miss) s (fun u =>
      u.tim.issued = some ⟨s.tim.nextIssue, s.tim.nextIssue * 125000 * 65536, s.tim.step⟩ ∧ u.tim.missPages = miss ∧
      u.tim.now = max s.tim.now ((s.tim.nextIssue * 125000 - 20000) * 2 ^ 32) ∧
      (s.snap.bound = none → u.snap = { s.snap with bound := s.snap.waiting, waiting := none }) ∧
      (s.snap.bound.isSome = true → u.snap = s.snap) ∧ KeepsBut [.tim, .snap] s u)) ∧
  (∀ s b, held s = false → s.tim.issued = some b → s.lock.st ≠ .ready → b.step = none →
    Runs .epochBoundary s (fun u => u.tim.inForce = some b.epoch ∧ u.tim.issued = none ∧ u.tim.missPages = [] ∧
      u.tim.nextIssue = b.epoch + 1 ∧ u.tim.now = max s.tim.now (b.at_ * 65536) ∧
      (s.tim.missPages = [] → u.link.uncorr = s.link.uncorrNext ∧ u.link.uncorrNext = []) ∧
      KeepsBut [.link, .lock, .snap, .tim, .sdh, .pac, .ftb, .pair, .msh, .regs] s u ∧ u.regs.tbl = s.regs.tbl)) ∧
  (∀ s b d, held s = false → s.tim.issued = some b → s.lock.st ≠ .ready → b.step = some d →
    Runs .epochBoundary s (fun u => u.tim.inForce = some b.epoch ∧ u.tim.issued = none ∧ u.tim.step = none ∧
      u.tim.now = max s.tim.now (b.at_ * 65536) + d * 65536 ∧
      KeepsBut [.link, .lock, .snap, .tim, .sdh, .pac, .pcr, .ftb, .pair, .msh, .regs] s u ∧ u.regs.tbl = s.regs.tbl))

/-- What a boundary does to the time base: its epoch is in force and the next number follows; a step that it carries moves the time on by d
from T, and the next boundary is the first multiple of 125 µs at or after T + d + 20 µs (R87, R89). -/
def Obligations.BoundaryOpensEpoch : Prop :=
  (∀ b s, b.step = none → (boundaryOpen b s).tim.inForce = some b.epoch ∧ (boundaryOpen b s).tim.nextIssue = b.epoch + 1 ∧
    (boundaryOpen b s).tim.now = max s.tim.now (b.at_ * 65536) ∧ (boundaryOpen b s).tim.issued = none ∧ KeepsBut [.tim] s (boundaryOpen b s)) ∧
  (∀ b d s, b.step = some d → (boundaryOpen b s).tim.inForce = some b.epoch ∧
    (boundaryOpen b s).tim.now = max s.tim.now (b.at_ * 65536) + d * 65536 ∧
    (boundaryOpen b s).tim.step = none ∧
    (b.at_ + d + 20000 * 65536 ≤ (boundaryOpen b s).tim.nextIssue * 125000 * 65536) ∧
    (boundaryOpen b s).tim.nextIssue * 125000 * 65536 < b.at_ + d + 145000 * 65536 ∧ KeepsBut [.tim] s (boundaryOpen b s))

/-! ## Ports and lanes -/

/-- The port state machine of R97, with what R99 and R113 add. ACQUIRE ends as its powered lanes are ready, with Clause 37 complete where
AN37_EN asks for it; adaptation that does not complete counts and starts again. ALIGN ends in UP with lock on lanes of the right polarity and
a skew of at most 180 ns, and a larger skew keeps it. A lane lost in ALIGN or LOCAL_FAULT leads to ACQUIRE, in any other state only the
locks fall. A local fault leads from UP and REMOTE_FAULT to LOCAL_FAULT, a remote fault from UP to REMOTE_FAULT, and each fault's end to
ALIGN; a lane already lost leads on to ACQUIRE. The fault statements are for a port with no frame on its way through the MAC. -/
def Obligations.PortStateCommands : Prop :=
  (∀ t c locks s, held s = false → (port c s).st = .acquire → (∀ n ∈ upto c (chLanes c s), (nlane n s).powered = true) →
    (rb (licPage c) 0x100 8 s = false ∨ (port c s).anDone = true) →
    Runs (.lanesReady t c locks) s (fun u => (port c u).st = .align ∧ (∀ n ∈ upto c (chLanes c s),
      (nlane n u).signal = true ∧ (nlane n u).cdr = true ∧ (nlane n u).adapt = true) ∧
      (port c u).blockLock = ((upto c (chLanes c s)).all (fun n => polOk 0 n s) && nbit locks 0) ∧
      KeepsBut [.lic, .regs] s u ∧ RegsBut [(licPage c, 0x120)] s u)) ∧
  (∀ t c pause s, held s = false → chSpeed c s = 1 → rb (licPage c) 0x100 8 s = true → (port c s).st = .acquire → lanesReady c s = true →
    Runs (.an37Complete t c pause) s (fun u =>
      (port c u).st = .align ∧ (port c u).anDone = true ∧ (port c u).anPause = pause ∧ KeepsBut [.lic, .regs] s u ∧
      RegsBut [(licPage c, 0x120)] s u)) ∧
  (∀ t c n s, held s = false → (port c s).st = .acquire → n ∈ upto c (chLanes c s) → (nlane n s).adapt = false →
    Runs (.adaptTimeout t c) s (fun u => u = owned s (ev (licPage c) 0x011A 1 (advance t s)) ∧ KeepsBut [] s u)) ∧
  (∀ t c skew s, held s = false → (port c s).st = .align → (∀ n ∈ upto c (chLanes c s), polOk 0 n s = true) →
    Runs (.portUp t c skew) s (fun u => (port c u).st = (if skew ≤ 180 then .up else .align) ∧
      (port c u).blockLock = true ∧ (port c u).fecLock = true ∧ (skew ≤ 180 → (port c u).lfRx = false ∧ (port c u).rfRx = false) ∧
      KeepsBut [.lic, .regs] s u ∧ RegsBut [(licPage c, 0x120)] s u)) ∧
  (∀ t n c signal s, held s = false → laneOwner n s = some c →
    Runs (.laneLoss t n signal) s (fun u => (nlane n u).cdr = false ∧ (signal = true → (nlane n u).signal = false) ∧
      ((port c s).st = .align ∨ (port c s).st = .localFault → (port c u).st = .acquire) ∧
      ((port c s).st ≠ .align → (port c s).st ≠ .localFault → (port c u).st = (port c s).st ∧ KeepsBut [.lic] s u) ∧
      (port c u).blockLock = false ∧ KeepsBut [.lic, .regs] s u ∧ RegsBut [(licPage c, 0x120)] s u)) ∧
  (∀ t c cause s, held s = false → s.jtag.outOfService = false → ((port c s).st = .up ∨ (port c s).st = .remoteFault) → quietMac c s = true →
    Runs (.localFault t c cause) s (fun u => (port c u).st = (if laneMissing c s then .acquire else .localFault) ∧ (port c u).lfRx = true ∧
      (cause = 0 → (port c u).blockLock = false) ∧ (cause = 1 → (port c u).amLock = false) ∧ (cause = 2 → (port c u).fecLock = false) ∧
      KeepsBut [.lic, .regs, .ftb, .bas] s u ∧ RegsBut [(licPage c, 0x120)] s u)) ∧
  (∀ t c s, held s = false → s.jtag.outOfService = false → (port c s).st = .up → quietMac c s = true →
    Runs (.remoteFault t c) s (fun u => (port c u).st = .remoteFault ∧ (port c u).rfRx = true ∧
      KeepsBut [.lic, .regs, .ftb, .bas] s u ∧ RegsBut [(licPage c, 0x120)] s u)) ∧
  (∀ t c s, held s = false → (port c s).st = .localFault →
    Runs (.localFaultClear t c) s (fun u => (port c u).st = (if laneMissing c s then .acquire else .align) ∧ (port c u).lfRx = false ∧
      KeepsBut [.lic, .regs] s u ∧ RegsBut [(licPage c, 0x120)] s u)) ∧
  (∀ t c s, held s = false → (port c s).st = .remoteFault →
    Runs (.remoteFaultClear t c) s (fun u => (port c u).st = (if laneMissing c s then .acquire else .align) ∧ (port c u).rfRx = false ∧
      KeepsBut [.lic, .regs] s u ∧ RegsBut [(licPage c, 0x120)] s u))

/-- Verification and pause (R104, R108). As a port enters UP, preemption off leaves verification off, DISABLE_VERIFY makes preemption active
at once, and otherwise a verify mPacket is sent. A pause time that has run out frees its class and no other. A verify time that passes sends
again up to three times in all and then fails. -/
def Obligations.VerifyAndPauseCommands : Prop :=
  (∀ t c skew s, held s = false → (port c s).st = .align → (∀ n ∈ upto c (chLanes c s), polOk 0 n s = true) → skew ≤ 180 →
    Runs (.portUp t c skew) s (fun u =>
      (bitOf (rd (licPage c) 0x108 s) 0 = false → (port c u).verify = 0 ∧ (port c u).active = false) ∧
      (bitOf (rd (licPage c) 0x108 s) 0 = true → bitOf (rd (licPage c) 0x108 s) 1 = true → (port c u).verify = 0 ∧ (port c u).active = true) ∧
      (bitOf (rd (licPage c) 0x108 s) 0 = true → bitOf (rd (licPage c) 0x108 s) 1 = false →
        (port c u).verify = 2 ∧ (port c u).active = false ∧ (port c u).tries = 1) ∧
      KeepsBut [.lic, .regs] s u ∧ RegsBut [(licPage c, 0x120)] s u)) ∧
  (∀ t c k e s, held s = false → find? (port c s).hold k = some e → e ≤ nowStamp (advance t s) →
    Runs (.pauseExpiry t c k) s (fun u => find? (port c u).hold k = none ∧ (∀ j, j ≠ k → find? (port c u).hold j = find? (port c s).hold j) ∧
      KeepsBut [.lic] s u)) ∧
  (∀ t c s, held s = false → (port c s).verify = 2 → (port c s).st = .up → (port c s).tries < 3 →
    Runs (.verifyTimeout t c) s (fun u => (port c u).verify = 2 ∧ (port c u).tries = (port c s).tries + 1 ∧ KeepsBut [.lic] s u)) ∧
  (∀ t c s, held s = false → (port c s).verify = 2 → (port c s).st = .up → 3 ≤ (port c s).tries →
    Runs (.verifyTimeout t c) s (fun u => (port c u).verify = 4 ∧ (port c u).active = false ∧ KeepsBut [.lic] s u))

/-- Lanes (R100, R112, R113). SEND_RF takes its value, on a port with no frame on its way through the MAC. A lane control write that no
rule refuses stores its value and starts what the change asks for; taps above full swing are discarded. An F-lane or baton lane in ADAPT or
FEC_ALIGN that adapts goes to FEC_ALIGN, and to UP with codeword lock on the right polarity; a loss in FEC_ALIGN or UP returns it to ADAPT
(an F-lane without a place in the fabric). An adapted, powered receiver reports its EYE and the codewords that its FEC could not correct. -/
def Obligations.LaneCommands : Prop :=
  (∀ t o c on s, Reaches o (licPage c) 0x118 s → c < 256 → quietMac c s = true →
    Runs (.sendRf t o c on) s (fun u => rb (licPage c) 0x118 16 u = on ∧
      KeepsBut [.lic, .regs, .resp, .ftb, .bas] s u ∧ RegsBut [(licPage c, 0x118), (licPage c, 0x120)] s u)) ∧
  (∀ t o c off v r s, Reaches o (licPage c) off s → regAt (licPage c) off = some r → r.acc = .rw → c < 256 → licRefuses off v = false →
    exec (.laneCtlWrite t o (licPage c) off v) s = .next (owned s (answer false [] (regStore (licPage c) off o r v (advance t s))))) ∧
  (∀ t o c off v r s, Reaches o (licPage c) off s → (off = 0x204 ∨ off = 0x304 ∨ off = 0x404) → regAt (licPage c) off = some r →
    c < 256 → licRefuses off v = false →
    Runs (.laneCtlWrite t o (licPage c) off v) s (fun u => rd (licPage c) off u = regNext (licPage c) off r (rd (licPage c) off s) v s ∧
      KeepsBut [.regs, .resp] s u ∧ RegsBut [(licPage c, off)] s u)) ∧
  (∀ t o c off v r s, Reaches o (licPage c) off s → regAt (licPage c) off = some r → c < 256 → licRefuses off v = true → r.acc = .rw →
    Runs (.laneCtlWrite t o (licPage c) off v) s (fun u => KeepsBut [.resp] s u)) ∧
  (∀ t n locked s, held s = false → s.jtag.outOfService = false → ((flane n s).st = 1 ∨ (flane n s).st = 2) →
    Runs (.flaneUp t false n locked) s (fun u => (flane n u).st = (if locked && polOk 1 n s then 3 else 2) ∧
      (flane n u).signal = true ∧ (flane n u).cdr = true ∧ (flane n u).adapt = true ∧ (∀ m, m ≠ n → flane m u = flane m s) ∧
      KeepsBut [.lic, .fab] s u)) ∧
  (∀ t n what s, held s = false → s.jtag.outOfService = false → ((flane n s).st = 2 ∨ (flane n s).st = 3) → (fabLane n s).st = 0 →
    Runs (.flaneDown t false n what) s (fun u => (flane n u).st = 1 ∧ (what = 0 → (flane n u).signal = false) ∧
      (what = 0 ∨ what = 1 → (flane n u).cdr = false ∧ (flane n u).adapt = false) ∧ (∀ m, m ≠ n → flane m u = flane m s) ∧
      KeepsBut [.lic] s u)) ∧
  (∀ t n locked s, held s = false → s.jtag.outOfService = false → ((blane n s).st = 1 ∨ (blane n s).st = 2) →
    Runs (.flaneUp t true n locked) s (fun u => (blane n u).st = (if locked && polOk 2 n s then 3 else 2) ∧
      (blane n u).signal = true ∧ (blane n u).cdr = true ∧ (blane n u).adapt = true ∧ KeepsBut [.lic] s u)) ∧
  (∀ t n what s, held s = false → s.jtag.outOfService = false → ((blane n s).st = 2 ∨ (blane n s).st = 3) →
    Runs (.flaneDown t true n what) s (fun u => (blane n u).st = 1 ∧ (what = 0 → (blane n u).signal = false) ∧
      (what = 0 ∨ what = 1 → (blane n u).cdr = false ∧ (blane n u).adapt = false) ∧ KeepsBut [.lic] s u)) ∧
  (∀ t n eye s, held s = false → (nlane n s).powered = true → (nlane n s).adapt = true →
    Runs (.eyeUpdate t 0 n eye 0 0 0) s (fun u => (nlane n u).eye = eye % 256 ∧ (∀ m, m ≠ n → nlane m u = nlane m s) ∧ KeepsBut [.lic] s u)) ∧
  (∀ t n eye corr unc sym s, held s = false → (flane n s).powered = true → (flane n s).adapt = true → (flane n s).st = 3 →
    Runs (.eyeUpdate t 1 n eye corr unc sym) s (fun u => (flane n u).eye = eye % 256 ∧
      rd (licPage n) 0x30C u = w32 (min ((rd (licPage n) 0x30C s).toNat + unc) (2 ^ 32 - 1)) ∧
      KeepsBut [.lic, .regs] s u ∧ RegsBut [(licPage n, 0x30C)] s u)) ∧
  (∀ t n eye corr unc sym s, held s = false → (blane n s).powered = true → (blane n s).adapt = true →
    Runs (.eyeUpdate t 2 n eye corr unc sym) s (fun u => (blane n u).eye = eye % 256 ∧ KeepsBut [.lic] s u))

/-- The MAC (R72, R102-R105, R111, R203, R212). The first bytes of a frame are held with its stamp and generation; a verify mPacket is
owed an answer, and a respond mPacket ends verification. PREEMPT_FRAGMENT closes the fragment of a frame begun as preemptable at the first
boundary allowed, with its mCRC. At a boundary an express frame goes first, then a PAUSE or PFC frame, then the suspended frame while its
gate is open. The last bit of a bulk or control frame leaves it as the last frame sent and the MAC idle. -/
def Obligations.MacCommands : Prop :=
  (∀ t c b v s, held s = false → s.jtag.outOfService = false → (channels s).contains c = true → macMbps (chSpeed c s) ≠ 0 →
    Runs (.frameReceive t c .whole b .open_ v) s (fun u => (port c u).now = .whole ∧ (port c u).rx.isSome = true)) ∧
  (∀ t c b v s, held s = false → s.jtag.outOfService = false → (channels s).contains c = true → macMbps (chSpeed c s) ≠ 0 →
    (port c s).now = .none → chUp c s = true → b.length < 128 →
    Runs (.frameReceive t c .whole b .open_ v) s (fun u => (port c u).now = .whole ∧
      (∃ r, (port c u).rx = some r ∧ r.stamp = rxStamp c t v s ∧ r.gen = genOf (rxStamp c t v s) s ∧ r.off = false ∧ r.id = none ∧
        r.len = b.length ∧ r.bytes = b.take (fld (rdG (genOf (rxStamp c t v s) s) (licPage c) 0x104 s) 0 14)) ∧
      (∀ d, d ≠ c → port d u = port d s) ∧ KeepsBut [.lic] s u)) ∧
  (∀ t c b v s, held s = false → s.jtag.outOfService = false → (channels s).contains c = true → macMbps (chSpeed c s) ≠ 0 →
    (port c s).now = .none → (port c s).st = .up →
    Runs (.frameReceive t c .verify b .mcrc v) s (fun u => (port c u).responds = (port c s).responds + 1 ∧ KeepsBut [.lic] s u)) ∧
  (∀ t c b v s, held s = false → s.jtag.outOfService = false → (channels s).contains c = true → macMbps (chSpeed c s) ≠ 0 →
    (port c s).now = .none → (port c s).st = .up → (port c s).verify = 2 →
    Runs (.frameReceive t c .respond b .mcrc v) s (fun u => (port c u).verify = 3 ∧ (port c u).active = true ∧ KeepsBut [.lic] s u)) ∧
  (∀ t c x s, held s = false → s.jtag.outOfService = false → (port c s).tx = some x → x.start.preemptable = true →
    preemptAsked c x (advance t s) = true → preemptPoint c x (advance t s) + 64 ≤ (frm x.id s).bytes.length →
    Runs (.preemptFragment t c) s (fun u => (port c u).tx = none ∧
      (port c u).susp = some { x with done := preemptPoint c x (advance t s), closed := true } ∧
      (∃ y, (port c u).last = some y ∧ y.tail = .mcrc ∧ y.start = x.start ∧
        y.bytes = ((frm x.id s).bytes.take (preemptPoint c x (advance t s))).drop x.done ++ mcrcOf ((frm x.id s).bytes.take (preemptPoint c x (advance t s)))) ∧
      KeepsBut [.lic] s u)) ∧
  (∀ t c b r s, held s = false → s.jtag.outOfService = false → txIdle c s = true → nextX c s = none → (port c s).ctl = b :: r →
    Runs (.pauseTransmit t c) s (fun u => (port c u).ctl = r ∧
      (∃ x, (port c u).tx = some x ∧ x.cls = 16 ∧ x.start = startOf (port c s) 16 ∧ x.stamp = txStamp c t (advance t s) ∧ (frm x.id u).bytes = b) ∧
      KeepsBut [.lic] s u)) ∧
  (∀ t c x s, held s = false → s.jtag.outOfService = false → txIdle c s = true → nextX c s = some x →
    pdelayStops (frm x.id s).src (parseOf (frm x.id s) s).ptp s = false →
    Runs (.frameTransmit t c) s (fun u => (∃ y, (port c u).tx = some y ∧ y.id = x.id ∧ y.cls = x.cls ∧ y.copy = x.n ∧
        y.stamp = txStamp c t (advance t s) ∧ y.start = startOf (port c s) x.cls) ∧
      (∀ d, d ≠ c → port d u = port d s) ∧ KeepsBut [.lic, .exp] s u)) ∧
  (∀ t c x s, held s = false → s.jtag.outOfService = false → txIdle c s = true → nextX c s = none → (port c s).ctl = [] →
    (port c s).susp = some x → gateOpen c (x.cls - 8) (advance t s) = true →
    Runs (.frameTransmit t c) s (fun u => (port c u).susp = none ∧
      (port c u).tx = some { x with closed := false, fragAt := txStamp c t (advance t s), start := nextFrag x.start } ∧ KeepsBut [.lic] s u)) ∧
  (∀ t c x s, held s = false → s.jtag.outOfService = false → (port c s).tx = some x → 8 ≤ x.cls →
    Runs (.frameTransmitEnd t c) s (fun u => (port c u).tx = none ∧
      (port c u).last = some ⟨(frm x.id s).bytes.drop x.done, .fcs, x.fragAt, x.start, nlaneOut c s⟩ ∧
      KeepsBut [.lic, .pcr, .arc, .regs] s u))

/-! ## Registers, the lock, the change log and the counters -/

/-- Reads and writes of registers (R33, R35-R39, R57, R71, R518). A write of a page of the parse, pacer-PFC and fabric blocks changes its
register's writable bits and nothing else, through any path; on every page but the log's and the console's a write that no rule refuses stores the register, and then starts what the block starts. A
write of an RWD register of an enabled or frozen page, or of less than a whole DW, changes no register; a WP write is held. A request that runs into another page is refused whole. An
RC register clears as it is read, the low word of the time latches the others, a held write lands, and a chamber write marks its word. -/
def Obligations.RegisterAccess : Prop :=
  (∀ t o p off v r s, Reaches o p off s → regAt p off = some r → (0x160 ≤ p ∧ p < 0x170 ∨ p = 0x1A6 ∨ 0x1B0 ≤ p ∧ p < 0x1C0) →
    (r.acc = .rw ∨ r.acc = .rwd ∧ rb p 8 0 s = false ∧ frozenPage p s = false) →
    Runs (.registerWrite t o p off v 15) s (fun u => rd p off u = regNext p off r (rd p off s) v s ∧
      KeepsBut [.regs, .resp] s u ∧ RegsBut [(p, off)] s u)) ∧
  (∀ t o p off v r s, Reaches o p off s → regAt p off = some r → p ≠ pgLog → p ≠ pgCon → regRefuses p off o v (advance t s) = [] →
    (r.acc = .rw ∨ r.acc = .rwd ∧ rb p 8 0 s = false ∧ frozenPage p s = false) →
    ∃ b, KeepsBut [.regs] (advance t s) b ∧ RegsBut [(p, off)] (advance t s) b ∧ rd p off b = regNext p off r (rd p off s) v (advance t s) ∧
      exec (.registerWrite t o p off v 15) s = .next (owned s (answer false []
        (startHook p off o (if r.mask = 0 then 0 else shown p off (advance t s)) (if r.mask = 0 then v else rd p off b) b)))) ∧
  (∀ t o p off v r s, Reaches o p off s → regAt p off = some r → r.acc = .rwd → (rb p 8 0 s = true ∨ frozenPage p s = true) → p ≠ pgCon →
    Runs (.registerWrite t o p off v 15) s (fun u => KeepsBut [.resp] s u)) ∧
  (∀ t o p off v be s, Reaches o p off s → be < 15 → p ≠ pgCon →
    Runs (.registerWrite t o p off v be) s (fun u => KeepsBut [.resp] s u)) ∧
  (∀ t o p off v r s, Reaches o p off s → regAt p off = some r → r.acc = .wp → find? s.regs.posted p = none → p ≠ pgCon →
    regRefuses p off o v (advance t s) = [] →
    Runs (.registerWrite t o p off v 15) s (fun u => find? u.regs.posted p = some (off, v, o) ∧ KeepsBut [.regs, .resp] s u ∧ RegsBut [] s u)) ∧
  (∀ t o p off v r par s, Reaches o p off s → regAt p off = some r → (0x160 ≤ p ∧ p < 0x170 ∨ p = 0x1A6 ∨ 0x1B0 ≤ p ∧ p < 0x1C0) →
    s.jtag.outOfService = false → (r.acc = .rw ∨ r.acc = .rwd ∧ rb p 8 0 s = false ∧ frozenPage p s = false) →
    Runs (.memoryRequest t o p off true false [v] [15] par) s (fun u => rd p off u = regNext p off r (rd p off s) v s ∧ u.resp = ⟨false, []⟩ ∧
      KeepsBut [.regs, .resp] s u ∧ RegsBut [(p, off)] s u)) ∧
  (∀ t o p a b be par s, held s = false → s.jtag.outOfService = false → isVf o = false → p ≠ pgCon →
    Runs (.memoryRequest t o p 0xFFFC false false [a, b] be par) s (fun u =>
      u.resp = ⟨true, [0xFFFFFFFF, 0xFFFFFFFF]⟩ ∧ KeepsBut [.resp] s u)) ∧
  (∀ t o s, Reaches o pgRef 0x130 s →
    Runs (.rcRead t o pgRef 0x130) s (fun u => u.resp = ⟨false, [rd pgRef 0x130 s]⟩ ∧ rd pgRef 0x130 u = 0 ∧
      KeepsBut [.regs, .resp] s u ∧ RegsBut [(pgRef, 0x130)] s u)) ∧
  (∀ t o s, Reaches o pgTim 0x100 s → find? s.regs.latch (lkey o (rkey pgTim 0x100)) = none →
    Runs (.loWordRead t o pgTim 0x100) s (fun u => u.resp = ⟨false, [stampA (nowStamp u)]⟩ ∧
      find? u.regs.latch (lkey o (rkey pgTim 0x104)) = some (stampB (nowStamp u)) ∧
      find? u.regs.latch (lkey o (rkey pgTim 0x108)) = some (stampC (nowStamp u)) ∧ KeepsBut [.regs, .resp] s u ∧ RegsBut [] s u)) ∧
  (∀ t o v s, Admitted o pgTim s → find? s.regs.posted pgTim = some (0x110, v, o) →
    Runs (.postedWriteLand t pgTim) s (fun u => rd pgTim 0x110 u = w32 (unsgn (adjClamp (sgn v.toNat 32)) 32) ∧
      find? u.regs.posted pgTim = none ∧ KeepsBut [.regs] s u ∧ RegsBut [(pgTim, 0x110)] s u)) ∧
  (∀ t o p off v r s, Admitted o p s → 0x100 ≤ off → off < 0x4000 → regAt p off = some r → (r.acc = .rw ∨ r.acc = .rwd ∨ r.acc = .sf ∧ isMarshal o = true) →
    frozenPage p s = false → p ≠ pgCon →
    Runs (.chamberWrite t o p (0x8000 + off) v 15) s (fun u => chm (rkey p off) u = regNext p off r (chm (rkey p off) s) v s ∧
      rkey p off ∈ u.regs.dirty ∧ (∀ k, k ≠ rkey p off → chm k u = chm k s) ∧ RegsBut [] s u ∧ KeepsBut [.regs, .resp] s u))

/-- PG_CTL and its page (R32, R34, R39, R41, R96, R97, R471). A soft reset begins on a page that is not enabled, and ends with its registers,
its chamber, its posted write and the tables behind its windows at their reset values, the log kept. CHAMBER_SYNC leaves no word of the page dirty. EN is set on a page
that is READY, no member of a lock, and whose check passes; set on a LIC page with a port configured it starts acquisition, and cleared
it disables the port. EN is cleared on a page that no training of its memory keeps enabled. Membership changes in FILL of a host cycle. -/
def Obligations.PageControl : Prop :=
  (∀ t o p s, ReachesCtl o p s → rb p 8 0 s = false →
    Runs (.softRst t o p) s (fun u => p ∈ u.regs.softRst ∧ u.lock.st = s.lock.st ∧
      (∀ q, u.lock.members.contains q = s.lock.members.contains q) ∧ KeepsBut [.lock, .regs, .resp, .msh] s u ∧ RegsBut [] s u)) ∧
  (∀ t p s, held s = false → p ∈ s.regs.softRst → 0x160 ≤ p → p < 512 →
    Runs (.softResetDone t p) s (fun u => (∀ off, 0x100 ≤ off → off < 65536 → rd p off u = resetOf (rkey p off) ∧ chm (rkey p off) u = resetOf (rkey p off)) ∧
      (∀ q off, q ≠ p → off < 65536 → rd q off u = rd q off s) ∧ find? u.regs.posted p = none ∧ p ∉ u.regs.softRst ∧
      (∀ k, tblStays p k = false → find? u.regs.tbl k = none) ∧ (∀ k, tblStays p k = true → find? u.regs.tbl k = find? s.regs.tbl k) ∧
      u.log = s.log ∧ u.tim = (advance t s).tim)) ∧
  (∀ t o p s, ReachesCtl o p s →
    Runs (.chamberSync t o p) s (fun u => (∀ k ∈ u.regs.dirty, k / 65536 ≠ p) ∧ u.lock.st = s.lock.st ∧
      (∀ q, u.lock.members.contains q = s.lock.members.contains q) ∧ KeepsBut [.lock, .regs, .resp, .msh] s u ∧ RegsBut [] s u)) ∧
  (∀ t o p s, ReachesCtl o p s → rb p 8 0 s = false → (readyOf p (advance t s)).1 = 3 → s.lock.members.contains p = false →
    pageCheck p (advance t s) (advance t s) = none → (p < 0x40 ∨ 0x140 ≤ p) → p ≠ 0x190 → p ≠ 0x1B0 →
    Runs (.pageEnable t o p) s (fun u => rb p 8 0 u = true ∧ KeepsBut [.regs, .resp, .msh, .pac] s u ∧ RegsBut [] s u)) ∧
  (∀ t o c s, ReachesCtl o (licPage c) s → c < 256 → rb (licPage c) 8 0 s = false → (readyOf (licPage c) (advance t s)).1 = 3 →
    s.lock.members.contains (licPage c) = false → pageCheck (licPage c) (advance t s) (advance t s) = none →
    Runs (.pageEnable t o (licPage c)) s (fun u => rb (licPage c) 8 0 u = true ∧
      (chSpeed c s ≠ 0 → (port c u).st = .acquire ∧ ∀ n ∈ upto c (chLanes c s), (nlane n u).powered = true))) ∧
  (∀ t o p s, ReachesCtl o p s → rb p 8 0 s = true → memKeepsEn p (advance t s) = false → (p < 0x40 ∨ 0x140 ≤ p) → p ≠ 0x1B0 → p ≠ pgArc →
    Runs (.pageDisable t o p) s (fun u => rb p 8 0 u = false ∧ KeepsBut [.lock, .regs, .resp, .msh] s u ∧ RegsBut [] s u)) ∧
  (∀ t o c s, ReachesCtl o (licPage c) s → c < 256 → rb (licPage c) 8 0 s = true →
    Runs (.pageDisable t o (licPage c)) s (fun u => rb (licPage c) 8 0 u = false ∧ (port c u).st = .disabled)) ∧
  (∀ t o p m s, ReachesCtl o p s → lockHost o = true → ctlSf p = false → s.lock.st = .fill → s.lock.ownerMarshal = false →
    Runs (.lockMemberWrite t o p m) s (fun u => u.lock.members.contains p = m ∧ (∀ q, q ≠ p → u.lock.members.contains q = s.lock.members.contains q) ∧
      u.lock.st = .fill ∧ KeepsBut [.lock, .regs, .resp, .msh] s u ∧ RegsBut [] s u))

/-- CTL_LOCK_CMD and the marshal's request (R41, R422, R474). BEGIN starts a cycle unless one runs, which it counts instead. GO in a host
FILL goes to LEVEL with the dirty words of the member pages and their digest, or ends in REFUSED with the reason that holds; ABORT and CLEAR
act in the states that allow them; an event that the state does not allow changes nothing but the counts. The marshal's request starts its own cycle on the pages that
it names, or waits behind a host cycle; one in the cycle's way for 16 epochs takes its place. The order of reasons is the model's (log entry 211). -/
def Obligations.LockCycle : Prop :=
  (∀ t o s, Reaches o pgLock 0x100 s → lockBusy s = false →
    Runs (.lockBegin t o) s (fun u => u.lock.st = .fill ∧ u.lock.ownerMarshal = false ∧ u.lock.ownerOrigin = o ∧
      u.lock.members = (if s.lock.st = .refused then s.lock.members else []) ∧ u.lock.gen = s.lock.gen ∧ KeepsBut [.lock, .resp] s u)) ∧
  (∀ t o s, Reaches o pgLock 0x100 s → lockBusy s = true →
    Runs (.lockBegin t o) s (fun u => rf pgLock 0x180 0 16 u = min (rf pgLock 0x180 0 16 s + 1) 65535 ∧
      KeepsBut [.regs, .resp] s u ∧ RegsBut [(pgLock, 0x180)] s u)) ∧
  (∀ t o s, Reaches o pgLock 0x100 s → s.lock.st = .fill → s.lock.ownerMarshal = false → s.tim.run = true →
    (hostEpoch s = 0 ∧ s.lock.paired = false ∨ epochNow s + 4 ≤ hostEpoch s ∧ s.tim.nextIssue ≤ hostEpoch s) → lockDirty s ≠ [] →
    Runs (.lockGo t o) s (fun u => u.lock.st = .level ∧ u.lock.words = (lockDirty s).length ∧ u.lock.digest = lockDigest (lockDirty s) s ∧
      u.lock.applyEpoch = hostEpoch s ∧ u.lock.members = s.lock.members ∧ KeepsBut [.lock, .resp] s u)) ∧
  (∀ t o s, Reaches o pgLock 0x100 s → s.lock.st = .fill → s.lock.ownerMarshal = false → s.lock.held = none →
    (let n := hostEpoch s
     let reason : Option Nat := if s.tim.run = false then some 7 else if n ≠ 0 ∧ n < epochNow s + 4 then some 2
       else if n ≠ 0 ∧ n < s.tim.nextIssue then some 7 else if n = 0 ∧ s.lock.paired = true then some 10
       else if lockDirty s = [] then some 3 else none
     ∀ k, reason = some k → Runs (.lockGo t o) s (fun u => u.lock.st = .refused ∧ u.lock.reason = k ∧ u.lock.members = s.lock.members ∧
       KeepsBut [.lock, .resp] s u))) ∧
  (∀ t o s, Reaches o pgLock 0x100 s → (s.lock.st ≠ .fill ∨ s.lock.ownerMarshal = true) →
    Runs (.lockGo t o) s (fun u => KeepsBut [.resp] s u)) ∧
  (∀ t o s, Reaches o pgLock 0x100 s → (s.lock.st = .fill ∨ s.lock.st = .level ∨ s.lock.st = .ready ∧ s.lock.bound = none) →
    s.lock.held = none →
    Runs (.lockAbort t o) s (fun u => u.lock.st = .refused ∧ u.lock.reason = 1 ∧ u.lock.members = s.lock.members ∧
      KeepsBut [.lock, .resp, .msh] s u)) ∧
  (∀ t o s, Reaches o pgLock 0x100 s → s.lock.st ≠ .fill → s.lock.st ≠ .level → (s.lock.st = .ready → s.lock.bound.isSome = true) →
    Runs (.lockAbort t o) s (fun u => KeepsBut [.resp] s u)) ∧
  (∀ t o s, Reaches o pgLock 0x100 s → (s.lock.st = .done ∨ s.lock.st = .refused) →
    Runs (.lockClear t o) s (fun u => u.lock.st = .idle ∧ u.lock.members = (if s.lock.st = .refused then [] else s.lock.members) ∧
      KeepsBut [.lock, .resp] s u)) ∧
  (∀ t o s, Reaches o pgLock 0x100 s → s.lock.st ≠ .done → s.lock.st ≠ .refused →
    Runs (.lockClear t o) s (fun u => KeepsBut [.resp] s u)) ∧
  (∀ t s, Reaches 0x50 pgMsh 0x120 s → lockBusy s = false → s.tim.run = true →
    (let n := (rd 0x020 0x128 s).toNat * 2 ^ 32 + (rd 0x020 0x124 s).toNat
     let ms := ((List.range 512).filter (fun p => rb 0x020 (0x140 + 4 * (p / 32)) (p % 32) s)).filter (fun p => pageLive p s)
     let ks := (rem s.regs.dirty (rkey 0x020 0x120)).filter (fun k => ms.contains (k / 65536) && sfReg (k / 65536) (k % 65536))
     (n = 0 ∧ s.lock.paired = false ∨ epochNow s + 4 ≤ n ∧ s.tim.nextIssue ≤ n) → ks ≠ [] →
     Runs (.marshalRequest t) s (fun u => u.lock.st = .level ∧ u.lock.ownerMarshal = true ∧ u.lock.members = ms ∧ u.lock.applyEpoch = n ∧
       u.lock.words = ks.length ∧ u.lock.digest = lockDigest ks s ∧ KeepsBut [.lock, .regs, .resp] s u ∧ RegsBut [(0x020, 0x120)] s u))) ∧
  (∀ t s, Reaches 0x50 pgMsh 0x120 s → lockBusy s = true → s.lock.ownerMarshal = false → s.lock.held = none →
    Runs (.marshalRequest t) s (fun u => (∃ r, u.lock.held = some r ∧
        r.epoch = (rd 0x020 0x128 s).toNat * 2 ^ 32 + (rd 0x020 0x124 s).toNat ∧
        ∀ p, p < 512 → (p ∈ r.pages ↔ rb 0x020 (0x140 + 4 * (p / 32)) (p % 32) s = true)) ∧ u.lock.st = s.lock.st ∧
      KeepsBut [.lock, .regs, .resp] s u)) ∧
  (∀ t r s, held s = false → s.lock.st = .fill → s.lock.ownerMarshal = false → s.lock.held = some r → 16 ≤ s.lock.heldEpochs →
    Runs (.preemptTimeout t) s (fun u => u.lock.ownerMarshal = true ∧ u.lock.held = none ∧
      u.lock.members = r.pages.filter (fun p => pageLive p s) ∧ KeepsBut [.lock, .msh] s u))

/-- How a lock cycle goes on from LEVEL (R41, R45-R48, R53). Levelling passes to READY when every member page is READY and passes its check and
every cross check that reads a member passes, and refuses with the first page that fails; a second boundary in LEVEL refuses. The
preannouncement of its epoch binds a READY lock, and that boundary opens it: the opening puts each staged word of a member page in force
and leaves every other register and every table. The confirmation ends the cycle with its words no longer dirty, and the old copies go when
no frame of an earlier generation remains. -/
def Obligations.LockWordsTakeEffect : Prop :=
  (∀ (ks : List Nat) (before s : State), ks.Nodup →
    (∀ k ∈ ks, rdk k (lockApply ks before s) = chm k before) ∧ (∀ k, k ∉ ks → rdk k (lockApply ks before s) = rdk k s) ∧
    KeepsBut [.regs] s (lockApply ks before s) ∧ (lockApply ks before s).regs.tbl = s.regs.tbl) ∧
  (∀ t s, held s = false → s.lock.st = .level →
    (∀ p ∈ s.lock.members, pageCheck p (advance t s) (newCfg (advance t s)) = none ∧ (readyOf p (advance t s)).1 = 3) →
    (∀ n, 1 ≤ n → n ≤ 8 → (∃ p ∈ s.lock.members, crossPages n p = true) → crossCheck n (newCfg (advance t s)) = none) → pgExp ∉ s.lock.members →
    Runs (.levellingResult t) s (fun u => u.lock.st = .ready ∧ u.lock.pass = s.lock.members ∧ u.lock.fail = [] ∧ KeepsBut [.lock] s u)) ∧
  (∀ t p rest r s, held s = false → s.lock.st = .level → s.lock.members = p :: rest → s.lock.held = none →
    pageCheck p (advance t s) (newCfg (advance t s)) = some r →
    Runs (.levellingResult t) s (fun u => u.lock.st = .refused ∧ u.lock.reason = 4 ∧ u.lock.failPage = p ∧ u.lock.failDetail = r ∧
      p ∈ u.lock.fail ∧ KeepsBut [.lock, .msh, .exp] s u)) ∧
  (∀ t s, held s = false → s.lock.st = .level → 2 ≤ s.lock.levelEpochs → s.lock.held = none →
    Runs (.levelTimeout t) s (fun u => u.lock.st = .refused ∧ u.lock.reason = 6 ∧ u.lock.members = s.lock.members ∧ KeepsBut [.lock, .msh] s u)) ∧
  (∀ miss s, held s = false → s.tim.run = true → s.tim.issued = none → s.lock.st = .ready → s.lock.bound = none →
    (s.lock.applyEpoch = s.tim.nextIssue ∨ s.lock.applyEpoch = 0) → s.link.fault = false → memFrozen s = false → oldFrames s = false →
    s.pair.role = .solo →
    Runs (.epochPreannounce miss) s (fun u => u.lock.bound = some s.tim.nextIssue ∧ u.lock.st = .ready ∧ KeepsBut [.lock, .tim, .snap] s u)) ∧
  (∀ b s, held s = false → s.tim.issued = some b → s.tim.missPages = [] → b.step = none → s.lock.st = .ready → s.lock.bound = some b.epoch →
    Runs .epochBoundary s (fun u => u.lock.st = .open_ ∧ u.lock.gen = s.lock.gen + 1 ∧ u.lock.appliedEpoch = b.epoch ∧ u.lock.openAt = b.at_)) ∧
  (∀ t s, held s = false → s.lock.st = .open_ → s.lock.held = none →
    Runs (.lockConfirm t) s (fun u => u.lock.st = .done ∧ u.lock.members = [] ∧ u.lock.reason = 0 ∧ u.lock.gen = s.lock.gen ∧
      (∀ k, k ∈ u.regs.dirty ↔ k ∈ s.regs.dirty ∧ k ∉ lockDirty s) ∧ KeepsBut [.lock, .regs, .msh] s u ∧ RegsBut [] s u)) ∧
  (∀ t s, held s = false → oldFrames s = false →
    Runs (.oldCopyRelease t) s (fun u => u.regs.oldLive = [] ∧ u.regs.oldPages = [] ∧ RegsBut [] s u ∧ KeepsBut [.regs] s u))

/-- The change log, the counters and the interrupts (R57, R58, R60, R62-R65, R73). CTL_LOG_RD_SEQ releases as many records as it names and
no more than there are. The copy takes the next record to its place in the host ring. A counter that passes its top wraps with PM_OVF, a freeze after it
clears RUN, CLEAR zeroes the counters. SNAP, FREEZE and THAW wait for the next preannouncement. EOI arms a vector that no page uses, and sends again for one whose OR stands once the hold-off has passed; a message that waits for the hold-off leaves then. A write of RX_USER changes that
word alone. -/
def Obligations.LogAndCounterCommands : Prop :=
  (∀ t o k s, Reaches o pgLog 0x108 s → k ≤ s.log.wrSeq - s.log.rdSeq → k ≤ 65536 →
    Runs (.logRdSeqWrite t o (w32 (s.log.rdSeq + k))) s (fun u => u.log.rdSeq = s.log.rdSeq + k ∧ KeepsBut [.regs, .resp] s u)) ∧
  (∀ t o v s, Reaches o pgLog 0x108 s → logRdBad v s = true →
    Runs (.logRdSeqWrite t o v) s (fun u => u.log.rdSeq = s.log.rdSeq ∧ KeepsBut [.resp] s u)) ∧
  (∀ t r s, held s = false → s.jtag.outOfService = false → rb pgLog 0x100 0 s = true → 8 ≤ rf pgLog 0x128 0 5 s → rf pgLog 0x128 0 5 s ≤ 16 →
    dmaNext s < s.log.wrSeq → find? s.log.ring (dmaNext s % 65536) = some r →
    Runs (.logDmaCopy t) s (fun u => u.log.dmaHead = dmaNext s + 1 ∧
      find? u.log.hostRing (dmaNext s % 2 ^ rf pgLog 0x128 0 5 s) = some r ∧ u.log.ring = s.log.ring ∧
      u.hif.out = s.hif.out ++ [⟨0, (rd pgLog 0x124 s).toNat * 2 ^ 32 + (rd pgLog 0x120 s).toNat / 4096 * 4096 +
        32 * (dmaNext s % 2 ^ rf pgLog 0x128 0 5 s), r.bytes⟩] ∧ KeepsBut [.hif] s u)) ∧
  (∀ t p k s, held s = false → pageLive p s = true → k < 8 → p ≠ 4 → p ≠ 0x18 → pmRuns p s = true → rf p (0x30 + 4 * k) 0 16 s ≠ 0 →
    look 0 s.regs.pm (p * 8 + k) = 2 ^ 48 - 1 →
    Runs (.pmOverflow t p k) s (fun u => look 0 u.regs.pm (p * 8 + k) = 0 ∧ rb p 0x1C k u = true ∧ KeepsBut [] s u)) ∧
  (∀ t p s, held s = false → p ∈ s.regs.ovfPend → p < 512 →
    Runs (.pmOvfFreeze t p) s (fun u => rb p 0x28 0 u = false ∧ rb p 0x28 1 u = rb p 0x28 1 s ∧ rb p 0x28 3 u = rb p 0x28 3 s ∧
      p ∉ u.regs.ovfPend ∧ KeepsBut [] s u)) ∧
  (∀ t o p s, Admitted o p s → Runs (.pmClear t o p) s (fun u =>
    (∀ k, k < 8 → rf p (0x30 + 4 * k) 0 16 s = 0 → look 0 u.regs.pm (p * 8 + k) = 0) ∧ KeepsBut [.resp, .msh] s u)) ∧
  (∀ t o s, Reaches o pgSnap 0x100 s →
    Runs (.snap t o) s (fun u => u.snap.waiting = some ⟨true, false, false⟩ ∧ u.snap.bound = s.snap.bound ∧ KeepsBut [.snap, .resp] s u) ∧
    Runs (.freeze t o) s (fun u => u.snap.waiting = some ⟨false, true, false⟩ ∧ u.snap.bound = s.snap.bound ∧ KeepsBut [.snap, .resp] s u) ∧
    Runs (.thaw t o) s (fun u => u.snap.waiting = some ⟨false, false, true⟩ ∧ u.snap.bound = s.snap.bound ∧ KeepsBut [.snap, .resp] s u)) ∧
  (∀ t o v s, Reaches o pgIrq (0x200 + 4 * (v / 32 % 64)) s → ∃ b, KeepsBut [] (advance t s) b ∧
    exec (.eoi t o v) s = .next (owned s (answer false [] (eoiWrite o (v / 32 % 64) (w32 (2 ^ (v % 32))) b)))) ∧
  (∀ t o v s, Reaches o pgIrq (0x200 + 4 * (v / 32 % 64)) s → (o < 0x40 ∨ 0x43 < o) → v < 2048 → (∀ p, vecOf p s ≠ some v) →
    Runs (.eoi t o v) s (fun u => v ∉ u.irq.disarmed ∧ look 0 u.irq.sent v = look 0 s.irq.sent v ∧ KeepsBut [.resp] s u)) ∧
  (∀ t o v s, Reaches o pgIrq (0x200 + 4 * (v / 32 % 64)) s → (o < 0x40 ∨ 0x43 < o) → v < 2048 → vecOr v s = true →
    holdoffOver v (advance t s) = true →
    Runs (.eoi t o v) s (fun u => v ∈ u.irq.disarmed ∧ look 0 u.irq.sent v = look 0 s.irq.sent v + 1 ∧ KeepsBut [.resp] s u)) ∧
  (∀ t g v s, held s = false → has s.irq.waiting (g * 2048 + v) = true → holdoffOver (g * 2048 + v) (advance t s) = true →
    Runs (.irqHoldoffExpiry t g v) s (fun u => g * 2048 + v ∉ u.irq.waiting ∧ g * 2048 + v ∈ u.irq.disarmed ∧
      look 0 u.irq.sent (g * 2048 + v) = look 0 s.irq.sent (g * 2048 + v) + 1 ∧ KeepsBut [] s u)) ∧
  (∀ t o c v s, Admitted o pgPtp s → c < 256 →
    Runs (.tableWrite t o pgPtp (0x4000 + 32 * c + 8) v 15) s (fun u => tw tbCal c 2 u = v ∧
      (∀ k, k ≠ tkey tbCal c 2 → look (tblReset k) u.regs.tbl k = look (tblReset k) s.regs.tbl k) ∧
      (∀ q off, q ≠ 2 → 0x100 ≤ off → off < 65536 → rd q off u = rd q off s) ∧ KeepsBut [.regs, .resp, .tim] s u))

/-! ## SDH and circuit emulation -/

/-- The line side of SDH channels (R118-R126). A frame time of bits moves the framer by where the pattern stands: SEARCH takes the first
place found, CONFIRM goes to IN_FRAME on a pattern one frame later, to another place, or back to SEARCH; IN_FRAME falls to ERRORED on a miss, which
returns on a hit and ends in SEARCH at the fifth miss. Under LOS no bits are examined and LOF is counted. LOS enters and leaves; the line's
consequent action follows the section's defects. A multiframe of a TU-12 or of a TU-3 that the frames have brought leaves the tributary's
bytes, and a VC-12 that closes hands the data bits that its control bits name, or ones under TU-AIS, to its pseudowire. A transmitted frame carries M1, K1, K2 and the
action, and its parity is kept for the next. -/
def Obligations.SdhLineCommands : Prop :=
  (∀ t c line s, held s = false → s.jtag.outOfService = false → sdhEn c s = true → (sch c s).los = false →
    (let x := sch c s
     let hits := patHits (8 * stmLen (sdhSlots c s)) (bitsOf line) (beNat (x.prev.drop (x.prev.length - 6)) % 2 ^ 48) 0
     Runs (.sdhFrame t c line) s (fun u =>
      (x.frame = 0 → hits ≠ [] → (sch c u).frame = 1 ∧ hits.head? = some (sch c u).cand) ∧
      (x.frame = 0 → hits = [] → (sch c u).frame = 0) ∧
      (x.frame = 1 → x.cand ∈ hits → (sch c u).frame = 2 ∧ (sch c u).cand = x.cand) ∧
      (x.frame = 1 → x.cand ∉ hits → (sch c u).frame = if hits = [] then 0 else 1) ∧
      (x.frame = 2 → (sch c u).frame = if x.cand ∈ hits then 2 else 3) ∧
      (x.frame = 3 → x.cand ∈ hits → (sch c u).frame = 2) ∧
      (x.frame = 3 → x.cand ∉ hits → (sch c u).frame = if 5 ≤ x.errs + 1 then 0 else 3) ∧
      (sch c u).prev = line ∧ (∀ d, d ≠ c → sch d u = sch d s) ∧ KeepsBut [.sdh, .regs] s u ∧
      RegsBut [(sdhPage c, 0x108), (sdhPage c, 0x148), (sdhPage c, 0x14C), (sdhPage c, 0x150)] s u))) ∧
  (∀ t c line s, held s = false → s.jtag.outOfService = false → sdhEn c s = true → (sch c s).los = true → (sch c s).frame = 0 →
    Runs (.sdhFrame t c line) s (fun u => (sch c u).frame = 0 ∧ (sch c u).oofRun = (sch c s).oofRun + 1 ∧
      (sch c u).lof = ((sch c s).lof || decide (24 ≤ (sch c s).oofRun + 1)) ∧ KeepsBut [.sdh, .regs] s u ∧ RegsBut [(sdhPage c, 0x108)] s u)) ∧
  (∀ t c s, held s = false → s.jtag.outOfService = false → sdhEn c s = true → (sch c s).los = false →
    Runs (.losEntry t c) s (fun u => (sch c u).los = true ∧ (sch c u).frame = 0 ∧ (∀ d, d ≠ c → sch d u = sch d s) ∧
      KeepsBut [.sdh, .regs] s u ∧ RegsBut [(sdhPage c, 0x108)] s u)) ∧
  (∀ t c s, held s = false → s.jtag.outOfService = false → sdhEn c s = true → (sch c s).los = true →
    Runs (.losExit t c) s (fun u => sch c u = { sch c s with los := false } ∧ (∀ d, d ≠ c → sch d u = sch d s) ∧
      KeepsBut [.sdh, .regs] s u ∧ RegsBut [(sdhPage c, 0x108)] s u)) ∧
  (∀ t c s, held s = false → s.jtag.outOfService = false → sdhEn c s = true →
    Runs (.consequentAction t c) s (fun u => (sch c u).lineAct =
        ((sch c s).los || (sch c s).lof || (sch c s).msAis.on || ((sch c s).j0Tim && rb (sdhPage c) 0x100 18 s)) ∧
      (∀ d, d ≠ c → sch d u = sch d s) ∧ KeepsBut [.sdh] s u)) ∧
  (∀ t k c a s, held s = false → s.jtag.outOfService = false → slotOwner (k / 63) s = some (c, a) → tribUsed k s = true →
    tb tbTrib k 0 2 s = true → tb tbTrib k 0 1 s = false → 144 ≤ (trib k s).raw.length →
    Runs (.tuMultiframe t k) s (fun u => (trib k u).raw = (trib k s).raw.drop 144 ∧ (∀ j, j ≠ k → trib j u = trib j s) ∧
      KeepsBut [.sdh, .regs] s u ∧ RegsBut [(sdhPage c, 0x108)] s u)) ∧
  (∀ t k c a s, held s = false → s.jtag.outOfService = false → slotOwner (k / 63) s = some (c, a) → tribUsed k s = true →
    tb tbTrib k 0 2 s = true → tb tbTrib k 0 1 s = true → 3096 ≤ (trib k s).raw.length →
    Runs (.tuMultiframe t k) s (fun u => (trib k u).raw = (trib k s).raw.drop 3096 ∧ (∀ j, j ≠ k → trib j u = trib j s) ∧
      KeepsBut [.sdh, .regs] s u ∧ RegsBut [(sdhPage c, 0x108)] s u)) ∧
  (∀ t k c a v s, held s = false → s.jtag.outOfService = false → slotOwner (k / 63) s = some (c, a) → tribUsed k s = true →
    tb tbTrib k 0 2 s = true → tb tbTrib k 0 1 s = false → 144 ≤ (trib k s).raw.length → tb tbTrib k 0 22 s = false →
    (let raw := (trib k s).raw
     let w := tf tbTrib k 0 8 14 s
     let l := ((List.range 140).map vc12Byte).zip v
     let bits := dataOf (decide ((votesOf false l).1 ≤ 1)) (decide ((votesOf false l).2 ≤ 1)) l
     ((trib k s).vc.feed 1 140 105 (ptrRead (trib k s).vc.ptr 140 (byteAt raw 0) (byteAt raw 36)) (sub raw 1 35) (sub raw 37 35)
        (sub raw 72 1) (sub raw 73 35 ++ sub raw 109 35)).2 = [v] → v.length = 140 →
     tb tbPw w 0 0 s = true → tb tbPw w 0 1 s = true → tf tbPw w 0 3 14 s = k →
     Runs (.tuMultiframe t k) s (fun u =>
       (pwOf w u).rx = (pwOf w s).rx ++ (if tribAis k s then List.replicate bits.length true else bits) ∧
       (trib k u).label = (nfld (byteAt v 0) 1 2 != tf tbTrib k 0 4 3 s)))) ∧
  (∀ t c s, held s = false → s.jtag.outOfService = false → sdhEn c s = true →
    Runs (.sdhTxFrame t c) s (fun u => (sch c u).sent.m1 = (sch c s).m1Next ∧ (sch c u).m1Next = 0 ∧ (sch c u).sent.k1 = rf (sdhPage c) 0x140 0 8 s ∧
      (sch c u).sent.k2 = rf (sdhPage c) 0x140 8 5 s * 8 + (if (sch c s).lineAct then 6 else 0) ∧
      (sch c u).txPhase = ((sch c s).txPhase + 1) % 16 ∧ (sch c u).txB1 = bip8 (sch c u).sent.line ∧
      (∀ d, d ≠ c → sch d u = sch d s) ∧ KeepsBut [.sdh] s u))

/-- Pseudowires and performance bins (R128, R129, R132, R133, R135-R138). A payload that closes becomes one packet in the pipelines with the
next sequence number. The jitter buffer plays the packet that is due, or ones in its place, enters LOPS at its limit of missing packets, and
plays ones there. A second ends with the section's entities starting anew, a bin completes, and a write of SDH_PM_ALIGN waits for the next
boundary. -/
def Obligations.PseudowireCommands : Prop :=
  (∀ t k b ch r s, held s = false → s.jtag.outOfService = false → pwClose k (advance t s) = some (b, ch, r) →
    (∀ i, i < 2 → (look [] s.pac.fifo ((256 + ch) * 2 + i)).length < 4) →
    Runs (.pwPayloadClose t k) s (fun u => (pwOf k u).seq = ((pwOf k s).seq + 1) % 65536 ∧
      u.lic.nextFrame = s.lic.nextFrame + 1 ∧ (frm s.lic.nextFrame u).bytes = b ∧ (frm s.lic.nextFrame u).src = 256 + ch ∧
      u.free = s.free + 1 ∧ KeepsBut [.sdh, .lic, .pac, .free] s u)) ∧
  (∀ t k pay s, held s = false → s.jtag.outOfService = false → tb tbPw k 0 0 s = true → tb tbPw k 0 2 s = true → (pwOf k s).st = 2 →
    find? (pwOf k s).jb (pwOf k s).next = some pay →
    Runs (.jbPlayout t k) s (fun u => (pwOf k u).play = (pwOf k s).play ++ bitsOf pay.2 ∧
      (pwOf k u).next = ((pwOf k s).next + 1) % 65536 ∧ (pwOf k u).missing = 0 ∧ (pwOf k u).st = 2 ∧
      find? (pwOf k u).jb (pwOf k s).next = none ∧ (∀ j, j ≠ k → pwOf j u = pwOf j s) ∧ KeepsBut [.sdh] s u)) ∧
  (∀ t k s, held s = false → s.jtag.outOfService = false → tb tbPw k 0 0 s = true → tb tbPw k 0 2 s = true → (pwOf k s).st = 2 →
    find? (pwOf k s).jb (pwOf k s).next = none → (pwOf k s).missing + 1 ≠ lopsEntry k s →
    Runs (.jbPlayout t k) s (fun u => (pwOf k u).play = (pwOf k s).play ++ List.replicate (8 * pwBytes k s) true ∧
      (pwOf k u).next = ((pwOf k s).next + 1) % 65536 ∧ (pwOf k u).missing = (pwOf k s).missing + 1 ∧ (pwOf k u).st = 2 ∧
      KeepsBut [.sdh] s u)) ∧
  (∀ t k s, held s = false → s.jtag.outOfService = false → tb tbPw k 0 0 s = true → tb tbPw k 0 2 s = true → (pwOf k s).st = 2 →
    find? (pwOf k s).jb (pwOf k s).next = none → (pwOf k s).missing + 1 = lopsEntry k s →
    Runs (.jbPlayout t k) s (fun u => (pwOf k u).st = 3 ∧ (pwOf k u).jb = [] ∧
      (pwOf k u).play = (pwOf k s).play ++ List.replicate (8 * pwBytes k s) true ∧ KeepsBut [.sdh] s u)) ∧
  (∀ t k s, held s = false → s.jtag.outOfService = false → tb tbPw k 0 0 s = true → tb tbPw k 0 2 s = true → (pwOf k s).st = 3 →
    Runs (.jbPlayout t k) s (fun u => pwOf k u = { pwOf k s with play := (pwOf k s).play ++ List.replicate (8 * pwBytes k s) true } ∧
      KeepsBut [.sdh] s u)) ∧
  (∀ t c s, held s = false → s.jtag.outOfService = false → sdhEn c s = true →
    Runs (.pmSecond t c) s (fun u => (∀ e, e < 3 → (pmEnt (c * 65536 + e) u).eb = 0 ∧ (pmEnt (c * 65536 + e) u).dfct = false ∧
      (pmEnt (c * 65536 + e) u).bad = false) ∧ u.sdh.ch = s.sdh.ch ∧ u.sdh.trib = s.sdh.trib ∧ u.sdh.pw = s.sdh.pw ∧ KeepsBut [.sdh] s u)) ∧
  (∀ t c s, held s = false → s.jtag.outOfService = false → sdhEn c s = true → s.sdh.wait15 = true →
    Runs (.binComplete t) s (fun u => u.sdh.wait15 = false ∧ u.sdh.waitDay = false ∧ binWord 1 c 3 2 u % 2 = 1 ∧ KeepsBut [.sdh] s u)) ∧
  (∀ t o v s, Reaches o 0x140 0x1000 s →
    Runs (.pmAlignWrite t o v) s (fun u => u.sdh.alignPend = true ∧ rd 0x140 0x1000 u = v &&& 0x07FFFFFF ∧
      KeepsBut [.sdh, .regs, .resp] s u ∧ RegsBut [(0x140, 0x1000)] s u))

/-! ## Pipelines and forwarding tables -/

/-- Dispatch, the pipelines, the reorder stage and the scanner (R142, R145, R147-R149, R157-R161). With page 0x160 enabled, the first active
pipeline after the last one takes the head of the next urgent FIFO. A withdrawn pipeline that holds no frame has drained. A release takes the
oldest frame out of the pipelines with the class, the action and the contract of R161 and the next sequence number of its source and kind: an
express frame goes to the reorder stage, a bulk frame to its lookups, and a frame without an open class or with OP DROP becomes a
discard token; a classifier hit whose action fails its check loses VALID. At the reorder stage the next number in sequence leaves, a later one is
held, one 2,048 or more ahead is discarded; a source with held bulk frames whose head is missing skips it after the timeout. The
scanner goes on to the next slot and takes VALID from an entry in error. -/
def Obligations.PipelineCommands : Prop :=
  (∀ t x id r q qs s, held s = false → s.jtag.outOfService = false → rb 0x160 8 0 s = true →
    ((List.range 17).map (fun i => (s.pac.lastPipe + 1 + i) % 17)).filter (pipeActive · s) = q :: qs →
    nextSource true s.pac.rrUrgent [] s = some x → look [] s.pac.fifo (x * 2) = id :: r →
    Runs (.dispatch t) s (fun u => s.pac.inPipe ++ [⟨id, x, q⟩] <+: u.pac.inPipe ∧ look [] u.pac.fifo (x * 2) = r ∧ KeepsBut [.pac] s u)) ∧
  (∀ t q s, held s = false → s.pac.heat = some q → s.pac.draining = true → (∀ e ∈ s.pac.inPipe, e.pipe ≠ q) →
    (∀ i ∈ s.pac.lookups, ∀ d, find? s.pac.dec i = some d → d.pipe ≠ q) →
    Runs (.pipeIdle t) s (fun u => u.pac = { s.pac with draining := false } ∧ KeepsBut [.pac] s u)) ∧
  (∀ t badAct badCnt e rest s, held s = false → s.jtag.outOfService = false → s.pac.inPipe = e :: rest →
    (let f := frm e.id s
     let p := parseOf f s
     let a := if p.fail = 0 then (clsAction f.gen e.src p (windowOf f) badAct s).1 else {}
     let map := if p.fail = 0 then mapSearch (expBank f.gen s) (expKey (tb tbSrc e.src 0 0 s) e.src p) s else none
     let c := classDecide (expBank f.gen s) e.src p map a s
     let x := c.1.any (fun k => decide (k < 8))
     let tok := c.1.isNone || (!x && c.2.1.op == 1)
     let n := look 0 s.pac.seqNext (e.src * 2 + b2n (!x))
     Runs (.pipelineRelease t badAct badCnt) s (fun u => u.pac.inPipe = rest ∧
       look 0 u.pac.seqNext (e.src * 2 + b2n (!x)) = (n + 1) % 4096 ∧
       (∀ j, j ≠ e.src * 2 + b2n (!x) → look 0 u.pac.seqNext j = look 0 s.pac.seqNext j) ∧
       (tok = true → find? u.pac.dec e.id = none ∧ u.pac.comps = s.pac.comps ++ [⟨e.src, false, n, none, e.pipe⟩] ∧
         u.pac.lookups = s.pac.lookups) ∧
       (∀ k, c.1 = some k → tok = false → find? u.pac.dec e.id = some ⟨p, some k, c.2.1, c.2.2.1, c.2.2.2, n, e.pipe, none⟩ ∧
         u.pac.comps = s.pac.comps ++ (if x then [⟨e.src, true, n, some e.id, e.pipe⟩] else []) ∧
         u.pac.lookups = s.pac.lookups ++ (if x then [] else [e.id])) ∧
       (p.fail = 0 → badAct = true → ∀ i, clsSearch f.gen (keyType (tb tbSrc e.src 0 0 s) p == 4)
         (buildKey (tb tbSrc e.src 0 0 s) e.src (tf tbSrc e.src 1 0 16 s) p (windowOf f)) s = some i → tb tbCls i 0 0 u = false) ∧
       KeepsBut [.pac, .lic, .ftb, .arc, .bas, .regs] s u ∧
       (badAct = false → RegsBut [(0x170, 0x124), (0x1D0, 0x114)] s u)))) ∧
  (∀ t src seq x c s, held s = false → s.jtag.outOfService = false →
    s.pac.comps.find? (fun c => c.src == src && c.express == x && c.seq == seq) = some c → seq = look 0 s.pac.seqOut (src * 2 + b2n (!x)) →
    (∀ d ∈ s.pac.held, d.src = src → d.express ≠ x) →
    Runs (.reorderCompletion t src seq x) s (fun u =>
      u.pac.outX = s.pac.outX ++ (if x then c.frame.toList.map (fun id => (id, cycUp 0x180 (advance t s).tim.up)) else []) ∧
      u.pac.outB = s.pac.outB ++ (if x then [] else c.frame.toList) ∧ look 0 u.pac.seqOut (src * 2 + b2n (!x)) = (seq + 1) % 4096 ∧
      u.pac.held = s.pac.held ∧ u.pac.comps = s.pac.comps.filter (fun e => !(e == c)) ∧ KeepsBut [.pac, .lic, .arc, .bas, .regs] s u ∧
      RegsBut [(0x1D0, 0x114)] s u)) ∧
  (∀ t src seq x c s, held s = false → s.jtag.outOfService = false →
    s.pac.comps.find? (fun c => c.src == src && c.express == x && c.seq == seq) = some c → 0 < seqAhead c s → seqAhead c s < 2048 →
    (x = true ∨ stageFull c.pipe s = false) →
    (∀ d ∈ s.pac.held, d.src = src → d.express = x → d.seq ≠ look 0 s.pac.seqOut (src * 2 + b2n (!x))) →
    seq ≠ look 0 s.pac.seqOut (src * 2 + b2n (!x)) →
    Runs (.reorderCompletion t src seq x) s (fun u => u.pac.held = s.pac.held ++ [c] ∧ u.pac.outX = s.pac.outX ∧ u.pac.outB = s.pac.outB ∧
      u.pac.seqOut = s.pac.seqOut ∧ u.pac.comps = s.pac.comps.filter (fun e => !(e == c)) ∧ KeepsBut [.pac, .lic, .arc, .bas, .regs] s u ∧
      RegsBut [(0x1D0, 0x114)] s u)) ∧
  (∀ t src seq x c s, held s = false → s.jtag.outOfService = false →
    s.pac.comps.find? (fun c => c.src == src && c.express == x && c.seq == seq) = some c → 2048 ≤ seqAhead c s →
    Runs (.reorderCompletion t src seq x) s (fun u => u.pac.held = s.pac.held ∧ u.pac.outX = s.pac.outX ∧ u.pac.outB = s.pac.outB ∧
      u.pac.seqOut = s.pac.seqOut ∧ u.pac.comps = s.pac.comps.filter (fun e => !(e == c)) ∧ KeepsBut [.pac, .lic, .arc, .bas, .regs] s u ∧
      RegsBut [(0x1D0, 0x114)] s u)) ∧
  (∀ t src d s, held s = false → s.jtag.outOfService = false → d ∈ s.pac.held → d.src = src → d.express = false →
    (let h := look 0 s.pac.seqOut (src * 2 + 1)
     (∀ e ∈ s.pac.held, e.src = src → e.express = false → e.seq ≠ (h + 1) % 4096) →
     Runs (.reorderTimeout t src) s (fun u => look 0 u.pac.seqOut (src * 2 + 1) = (h + 1) % 4096 ∧ u.pac.held = s.pac.held ∧
       (∀ q, missingPipe src h s = some q → q ∈ u.pac.suspects) ∧
       (rd 0x160 0x124 u).toNat = satAdd (rd 0x160 0x124 s).toNat 1 (2 ^ 32 - 1) ∧ KeepsBut [.pac, .lic, .arc, .bas, .regs] s u ∧
       RegsBut [(0x160, 0x124), (0x1D0, 0x114)] s u))) ∧
  (∀ t s, held s = false → rb 0x160 0x114 0 s = true → rb 0x160 8 0 s = true →
    Runs (.scanSlot t none) s (fun u => u.pac.scanNext = (s.pac.scanNext + 1) % 131072 ∧
      u.pac.scanPass = (if s.pac.scanNext = 131071 then min 32767 (s.pac.scanPass + 1) else s.pac.scanPass) ∧ KeepsBut [.pac] s u)) ∧
  (∀ t part s, held s = false → rb 0x160 0x114 0 s = true → rb 0x160 8 0 s = true →
    s.pac.slotWr ≠ some (s.pac.scanNext, cycUp 0x160 (advance t s).tim.up) → part ≤ 2 →
    (let i := s.pac.scanNext
     let owner := if bitOf (rd 0x160 0x108 s) (i / 8192) then i / 2 * 2 else i
     tb tbCls owner 0 0 s = true →
     Runs (.scanSlot t (some part)) s (fun u => tb tbCls owner 0 0 u = false ∧ rd 0x160 0x11C u = w32 (i + part * 2 ^ 17 + 2 ^ 31) ∧
       u.pac.scanNext = (i + 1) % 131072 ∧ KeepsBut [.pac, .regs] s u)))

/-- R157: the classifier search answers the matching entry of the largest PRI, among equals that of the lowest index; without a matching entry
it misses. Only valid entries of the key's width match, a wide one at an even slot. -/
def Obligations.LargestPriorityWins : Prop :=
  ∀ (g : Nat) (wide : Bool) (key : Nat) (s : State),
    (let hit (i : Nat) : Prop := i < 2 ^ 24 ∧ tb tbCls i 0 0 s = true ∧ clsWide g (i / 8192) s = wide ∧ (wide = true → i % 2 = 0) ∧
       (key ^^^ clsValue wide i s) &&& clsMask wide i s = 0
     (clsSearch g wide key s = none ↔ ∀ i, ¬hit i) ∧
     (∀ i, clsSearch g wide key s = some i → hit i ∧
       ∀ j, hit j → clsPri j s ≤ clsPri i s ∧ (clsPri j s = clsPri i s → i ≤ j)))

/-- A command slot of the forwarding tables that its table's engine serves next ends with its result, and the engine goes on after it; no
other slot changes (R189, R192). A parity error found on the way is reported in FTB_PERR. -/
def Obligations.TableCommandsEnd : Prop :=
  ∀ t tab bad lbad i s, held s = false → nextSlot tab s = some i →
    (let Q (u : State) : Prop := (ftbSlot i u).state = 3 ∧ (ftbSlot i u).desc = (ftbSlot i s).desc ∧ look 128 u.ftb.rr tab = i ∧
       (∀ j, j ≠ i → ftbSlot j u = ftbSlot j s) ∧ KeepsBut [.ftb, .regs, .free] s u ∧ RegsBut [(0x170, 0x124)] s u
     ((ftbSlot i s).op = 1 → Runs (.ftbAdd t tab bad) s Q) ∧ ((ftbSlot i s).op = 2 → Runs (.ftbDelete t tab bad) s Q) ∧
     ((ftbSlot i s).op = 3 → Runs (.ftbSearch t tab bad) s Q) ∧ ((ftbSlot i s).op = 4 → Runs (.ftbNext t tab bad) s Q) ∧
     ((ftbSlot i s).op = 5 → Runs (.ftbFlush t tab) s Q) ∧ ((ftbSlot i s).op = 6 → Runs (.lpmLookup t tab lbad) s Q) ∧
     ((ftbSlot i s).op = 7 → Runs (.walkClose t tab) s Q))

/-- What the commands do to the tables when no parity error is found (R190, R192): ADD writes a new label entry, DELETE removes a label entry or
answers NOT_FOUND; SEARCH answers BAD_ARG, PARTITION, the entry or NOT_FOUND and changes no table; after a FLUSH no MAC entry that it names is
left and every other one is; NEXT answers the first entry of the partition at or above its index and opens the walk, or ends it with END;
LPM_LOOKUP answers the longest route; WALK_CLOSE ends the slot's walk. -/
def Obligations.TableCommandsAct : Prop :=
  (∀ t i s, held s = false → nextSlot 4 s = some i → (ftbSlot i s).table = 4 → (ftbSlot i s).op = 1 →
    (let x := ftbSlot i s
     let l := x.w 2 % 2 ^ 20
     badArg x = false → resultOk 4 (slotFn i) x.data s = true → find? s.ftb.mpls l = none →
     Runs (.ftbAdd t 4 false) s (fun u => find? u.ftb.mpls l = some ⟨x.data, slotFn i⟩ ∧ (∀ m, m ≠ l → find? u.ftb.mpls m = find? s.ftb.mpls m) ∧
       u.ftb.mac = s.ftb.mac ∧ u.ftb.flow = s.ftb.flow ∧ u.ftb.v4 = s.ftb.v4 ∧ u.ftb.v6 = s.ftb.v6 ∧ (ftbSlot i u).code = 0 ∧
       KeepsBut [.ftb] s u))) ∧
  (∀ t i s, held s = false → nextSlot 4 s = some i → (ftbSlot i s).table = 4 → (ftbSlot i s).op = 2 →
    (let l := (ftbSlot i s).w 2 % 2 ^ 20
     Runs (.ftbDelete t 4 false) s (fun u => find? u.ftb.mpls l = none ∧ (∀ m, m ≠ l → find? u.ftb.mpls m = find? s.ftb.mpls m) ∧
       u.ftb.mac = s.ftb.mac ∧ u.ftb.flow = s.ftb.flow ∧ u.ftb.v4 = s.ftb.v4 ∧ u.ftb.v6 = s.ftb.v6 ∧
       (ftbSlot i u).code = (if (find? s.ftb.mpls l).isSome then 0 else 1) ∧ KeepsBut [.ftb] s u))) ∧
  (∀ t tab i s, held s = false → nextSlot tab s = some i → (ftbSlot i s).table = tab → (ftbSlot i s).op = 3 →
    Runs (.ftbSearch t tab false) s (fun u => u.ftb.mac = s.ftb.mac ∧ u.ftb.flow = s.ftb.flow ∧ u.ftb.v4 = s.ftb.v4 ∧ u.ftb.v6 = s.ftb.v6 ∧
      u.ftb.mpls = s.ftb.mpls ∧ (badArg (ftbSlot i s) = true → (ftbSlot i u).code = 5) ∧
      (badArg (ftbSlot i s) = false → keyOk (ftbSlot i s) (slotFn i) s = false → (ftbSlot i u).code = 4) ∧
      (badArg (ftbSlot i s) = false → keyOk (ftbSlot i s) (slotFn i) s = true → cmdFind (ftbSlot i s) s = none → (ftbSlot i u).code = 1) ∧
      (∀ k, badArg (ftbSlot i s) = false → keyOk (ftbSlot i s) (slotFn i) s = true → cmdFind (ftbSlot i s) s = some k →
        (ftbSlot i u).result.getD 0 0 = (entryRes tab k s).idx ∧ (ftbSlot i u).code = (entryRes tab k s).code) ∧ KeepsBut [.ftb] s u)) ∧
  (∀ t i s, held s = false → nextSlot 0 s = some i → (ftbSlot i s).table = 0 → (ftbSlot i s).op = 5 →
    (let x := ftbSlot i s
     let goes (e : MacE) : Bool := e.dest == x.w 12 % 2 ^ 22 && (nbit (x.w 0) 14 || !e.static) && (!nbit (x.w 0) 15 || e.fid == x.vrf)
     (nbit (x.w 0) 15 = true → partFid (slotFn i) x.vrf s = true) → resultOk 0 (slotFn i) [x.w 12 % 2 ^ 22] s = true →
     Runs (.ftbFlush t 0) s (fun u => (∀ k, find? u.ftb.mac k = (find? s.ftb.mac k).filter (fun e => !goes e)) ∧
       u.ftb.flow = s.ftb.flow ∧ u.ftb.v4 = s.ftb.v4 ∧ u.ftb.v6 = s.ftb.v6 ∧ u.ftb.mpls = s.ftb.mpls ∧ (ftbSlot i u).code = 0 ∧
       KeepsBut [.ftb] s u))) ∧
  (∀ t tab i s, held s = false → nextSlot tab s = some i → (ftbSlot i s).table = tab → (ftbSlot i s).op = 4 →
    (∀ w, find? s.ftb.walks tab = some w → w.slot = i) →
    (let T (u : State) : Prop := u.ftb.mac = s.ftb.mac ∧ u.ftb.flow = s.ftb.flow ∧ u.ftb.v4 = s.ftb.v4 ∧ u.ftb.v6 = s.ftb.v6 ∧
       u.ftb.mpls = s.ftb.mpls ∧ (∀ j, j ≠ tab → find? u.ftb.walks j = find? s.ftb.walks j) ∧ KeepsBut [.ftb] s u
     let first := (partIdx tab (slotFn i) s).find? (fun k => decide ((ftbSlot i s).w 2 % 2 ^ 23 ≤ k))
     (first = none → Runs (.ftbNext t tab false) s (fun u => find? u.ftb.walks tab = none ∧ (ftbSlot i u).code = 6 ∧ T u)) ∧
     (∀ k, first = some k → Runs (.ftbNext t tab false) s (fun u => find? u.ftb.walks tab = some ⟨i, k, (advance t s).tim.up⟩ ∧
       (ftbSlot i u).code = 0 ∧ (ftbSlot i u).result.getD 0 0 = k ∧ T u)))) ∧
  (∀ t tab i s, held s = false → nextSlot tab s = some i → (ftbSlot i s).table = tab → tab = 2 ∨ tab = 3 → (ftbSlot i s).op = 6 →
    (let x := ftbSlot i s
     let v6 := tab == 3
     badArg x = false → partVrf (slotFn i) x.vrf s = true → lpmBroken v6 x.vrf (x.addr v6) s = false →
     Runs (.lpmLookup t tab none) s (fun u => (ftbSlot i u).code = (if (lpm v6 x.vrf (x.addr v6) s).isSome then 0 else 1) ∧
       (∀ k r, lpm v6 x.vrf (x.addr v6) s = some (k, r) → (ftbSlot i u).result.getD 0 0 = k) ∧
       u.ftb.v4 = s.ftb.v4 ∧ u.ftb.v6 = s.ftb.v6 ∧ KeepsBut [.ftb] s u))) ∧
  (∀ t tab i s, held s = false → nextSlot tab s = some i → (ftbSlot i s).table = tab → (ftbSlot i s).op = 7 →
    (∀ w, find? s.ftb.walks tab = some w → w.slot = i) →
    Runs (.walkClose t tab) s (fun u => find? u.ftb.walks tab = none ∧ (∀ j, j ≠ tab → find? u.ftb.walks j = find? s.ftb.walks j) ∧
      (ftbSlot i u).code = 0 ∧ u.ftb.mac = s.ftb.mac ∧ KeepsBut [.ftb] s u))

/-- Lookup, learning, ageing, flushing, the rebuild and the scanner of the forwarding tables, their notifications and counters
(R165, R184-R188, R190, R194, R195). A bulk frame that has completed its lookups goes to the reorder stage with its destination, or as a discard
token; under REDIRECT_PORT that is the port of the action. A learn request moves a dynamic entry to its new destination, and one
whose FID no function holds is lost. A visit of the sweeper to a dynamic MAC entry, or to a flow entry that may age, keeps it with HIT after a
hit, clears HIT, sets AGED, or removes it. A walk idle for one second ends, and not before. The flush of a port that went down removes
the dynamic entries that name it. One failed node is rebuilt. A MAC entry in error is removed and reported. -/
def Obligations.TableEngineCommands : Prop :=
  (∀ t id bad d s, held s = false → s.jtag.outOfService = false → has s.pac.lookups id = true → find? s.pac.dec id = some d →
    Runs (.bulkLookup t id bad) s (fun u => u.pac.lookups = rem s.pac.lookups id ∧
      ((u.pac.comps = s.pac.comps ++ [⟨(frm id s).src, false, d.seq, some id, d.pipe⟩] ∧
          ∃ x, find? u.pac.dec id = some { d with dest := some x }) ∨
       (u.pac.comps = s.pac.comps ++ [⟨(frm id s).src, false, d.seq, none, d.pipe⟩] ∧ find? u.pac.dec id = none ∧ frmLive id u = false)) ∧
      (∀ j, j ≠ id → find? u.pac.dec j = find? s.pac.dec j) ∧ KeepsBut [.pac, .lic, .ftb, .exp, .arc, .regs, .free] s u)) ∧
  (∀ t id bad d s, held s = false → s.jtag.outOfService = false → has s.pac.lookups id = true → find? s.pac.dec id = some d →
    d.act.op = 3 → pairOf (frm id s).gen (frm id s).src s = none →
    Runs (.bulkLookup t id bad) s (fun u => u.pac.comps = s.pac.comps ++ [⟨(frm id s).src, false, d.seq, some id, d.pipe⟩] ∧
      find? u.pac.dec id = some { d with dest := some (.dport (d.act.target % 65536)) } ∧ KeepsBut [.pac] s u)) ∧
  (∀ t r q i e s, held s = false → pairPassive s = false → s.ftb.learnQ = r :: q → macFind r.fid r.mac s = some (i, e) →
    r.move = true → e.static = false → e.dest ≠ r.dport → r.mode ≠ 2 →
    Runs (.learnCommit t) s (fun u => find? u.ftb.mac i = some { e with dest := r.dport } ∧
      (∀ j, j ≠ i → find? u.ftb.mac j = find? s.ftb.mac j) ∧ u.ftb.learnQ = q ∧
      u.ftb.deltas = s.ftb.deltas ++ [⟨2, r.fid, r.mac, r.dport⟩] ∧ KeepsBut [.ftb] s u)) ∧
  (∀ t r q s, held s = false → pairPassive s = false → s.ftb.learnQ = r :: q → macFind r.fid r.mac s = none → r.move = false → r.mode ≠ 2 →
    learnFn r.fid s = none → Runs (.learnCommit t) s (fun u => u.ftb = { s.ftb with learnQ := q } ∧ KeepsBut [.ftb] s u)) ∧
  (∀ t now e s, held s = false → pairPassive s = false → rf 0x170 0x118 0 16 s ≠ 0 → find? s.ftb.mac s.ftb.ageNext = some e → e.static = false →
    Runs (.ageVisit t false now) s (fun u => u.ftb.ageNext = (s.ftb.ageNext + 1) % 4719616 ∧
      find? u.ftb.mac s.ftb.ageNext = (if now then some { e with hit := true, aged := false } else if e.hit then some { e with hit := false, aged := false }
        else if e.aged then none else some { e with aged := true }) ∧
      (∀ j, j ≠ s.ftb.ageNext → find? u.ftb.mac j = find? s.ftb.mac j) ∧ u.ftb.flow = s.ftb.flow ∧ KeepsBut [.ftb] s u)) ∧
  (∀ t now e s, held s = false → pairPassive s = false → rf 0x170 0x118 0 16 s ≠ 0 → rb 0x170 0x118 16 s = true →
    find? s.ftb.flow s.ftb.flowNext = some e → nbit (e.data.getD 2 0) 9 = true →
    Runs (.ageVisit t true now) s (fun u => u.ftb.flowNext = (s.ftb.flowNext + 1) % 2360320 ∧
      find? u.ftb.flow s.ftb.flowNext = (if now then some { e with hit := true, aged := false } else if e.hit then some { e with hit := false, aged := false }
        else if e.aged then none else some { e with aged := true }) ∧
      (∀ j, j ≠ s.ftb.flowNext → find? u.ftb.flow j = find? s.ftb.flow j) ∧ u.ftb.mac = s.ftb.mac ∧ KeepsBut [.ftb] s u)) ∧
  (∀ t tab w s, held s = false → find? s.ftb.walks tab = some w → w.last + 10 ^ 9 * 2 ^ 32 ≤ (advance t s).tim.up →
    Runs (.walkTimeout t tab) s (fun u => find? u.ftb.walks tab = none ∧ (∀ j, j ≠ tab → find? u.ftb.walks j = find? s.ftb.walks j) ∧
      u.ftb.mac = s.ftb.mac ∧ KeepsBut [.ftb] s u)) ∧
  (∀ t tab w s, held s = false → find? s.ftb.walks tab = some w → (advance t s).tim.up < w.last + 10 ^ 9 * 2 ^ 32 →
    Runs (.walkTimeout t tab) s (fun u => KeepsBut [] s u)) ∧
  (∀ t c r s, held s = false → s.ftb.downFlush = c :: r →
    Runs (.portDownFlush t) s (fun u => u.ftb.downFlush = r ∧
      (∀ k, find? u.ftb.mac k = (find? s.ftb.mac k).filter (fun e => !(e.dest == tf tbPort c 0 0 16 s && !e.static))) ∧ KeepsBut [.ftb] s u)) ∧
  (∀ t s, held s = false → s.ftb.badNodes ≠ [] →
    Runs (.nodeRebuild t) s (fun u => u.ftb = { s.ftb with badNodes := s.ftb.badNodes.dropLast } ∧ KeepsBut [.ftb] s u)) ∧
  (∀ t idx route bad e s, held s = false → rb 0x170 0x120 0 s = true → bad ≠ 0 → find? s.ftb.mac idx = some e →
    Runs (.tableScan t 0 idx route bad) s (fun u => find? u.ftb.mac idx = none ∧ (∀ j, j ≠ idx → find? u.ftb.mac j = find? s.ftb.mac j) ∧
      u.ftb.perrIdx = idx ∧ rd 0x170 0x124 u = 0x80000000 ∧ KeepsBut [.ftb, .regs] s u ∧ RegsBut [(0x170, 0x124)] s u)) ∧
  (∀ t o s, Reaches o 0x170 0x140 s → Runs (.notifyPop t o) s (fun u => u.ftb = { s.ftb with notify := s.ftb.notify.drop 1 } ∧
    KeepsBut [.ftb, .resp] s u)) ∧
  (∀ t o off i s, Admitted o 0x174 s → cntWin off s = some (i, 0) →
    Runs (.counterRead t o 0x174 off) s (fun u => u.resp = ⟨false, [cntWord i 0 s]⟩ ∧
      look (0, 0) u.ftb.cnt i = (if rb 0x174 0x104 0 s then (0, 0) else look (0, 0) s.ftb.cnt i) ∧
      (∀ j, j ≠ i → look (0, 0) u.ftb.cnt j = look (0, 0) s.ftb.cnt j) ∧ u.ftb.mac = s.ftb.mac ∧
      KeepsBut [.ftb, .regs, .resp] s u ∧ RegsBut [] s u))

/-! ## The express path, redundancy and seal units -/

/-- The express path (R202-R205, R211, R213, R219, R222, R224). The lookup takes the frame that is checked next, and its decision: it enters the crossbar
with its contract and class, or is gone. A frame for an open channel with room in its allowance and its contract enters with one copy,
and its queue counts it; one for a channel that is not up is refused with cause 2. A copy that is cut through, or whose frame is whole and
good, is committed. A re-pin hold ends when its time is over or its old path has drained, and not before. A good verdict stands, a bad one
after commitment is a false start: the frame is marked bad and recorded. -/
def Obligations.ExpressCommands : Prop :=
  (∀ t bus bad id rest d s, held s = false → s.jtag.outOfService = false → rb pgExp 8 0 s = true → nextCheck s = some (id, rest) →
    find? s.pac.dec id = some d → find? s.exp.frames id = none → id < s.lic.nextFrame →
    Runs (.expressLookup t bus bad) s (fun u => u.pac = { s.pac with outX := rest, dec := del s.pac.dec id } ∧
      ((∃ x, find? u.exp.frames id = some x ∧ x.contract = d.contract ∧ x.cls = d.cls.getD 0 ∧ x.src = (frm id s).src) ∨
       (find? u.exp.frames id = none ∧ frmLive id u = false)) ∧
      (∀ j, j ≠ id → find? u.exp.frames j = find? s.exp.frames j) ∧
      KeepsBut [.pac, .exp, .lic, .ftb, .arc, .bas, .msh, .regs, .free] s u)) ∧
  (∀ t bus bad id rest d s, held s = false → s.jtag.outOfService = false → rb pgExp 8 0 s = true → nextCheck s = some (id, rest) →
    find? s.pac.dec id = some d →
    (let f := frm id s
     let bank := expBank f.gen s
     let i := conIdx bank d.contract
     let k := d.cls.getD 0
     let c := tf tbCon i 1 0 20 s % 256
     let q := 8 * c + k
     pdelayStops f.src d.parse.ptp s = false → (f.src < 256 → pairOf f.gen f.src s = none) → tb tbCon i 0 0 s = true →
     tf tbCon i 0 1 3 s = 0 → pairOf f.gen c s = none →
     (chUp c s = true → inflight q s < alwInflight (alwIdx bank q) s → (polExpTake i d.contract f.stamp s).1 = true → dupSeal i s = 0 →
      f.bytes.length ≤ conMaxlen i s →
      Runs (.expressLookup t bus bad) s (fun u =>
        find? u.exp.frames id = some {
          src := f.src, contract := d.contract, bank := bank, cls := k, maxlen := conMaxlen i s, mcast := false
          copies := [{ dst := .chan c, cut := cutThrough f false (.chan c) s, order := s.exp.order }] } ∧
        (∀ j, j ≠ id → find? u.exp.frames j = find? s.exp.frames j) ∧ inflight q u = inflight q s + 1 ∧
        u.exp.level = (polExpTake i d.contract f.stamp s).2.exp.level ∧ KeepsBut [.pac, .exp, .lic, .arc, .bas, .regs] s u ∧
        RegsBut [(0x1D0, 0x114)] s u)) ∧
     (chUp c s = false → id < s.lic.nextFrame →
      Runs (.expressLookup t bus bad) s (fun u => frmLive id u = false ∧ u.exp.frames = s.exp.frames ∧
        look 0 u.exp.refused q = satAdd (look 0 s.exp.refused q) 1 0xFFFF ∧
        u.exp.refuseLast = 2 + d.contract % 4096 * 16 + f.src % 512 * 2 ^ 16 + 2 ^ 31 ∧ u.exp.level = s.exp.level ∧
        KeepsBut [.pac, .exp, .lic, .arc, .bas, .regs] s u ∧ RegsBut [(pgExp, 0x128), (0x1D0, 0x114)] s u)))) ∧
  (∀ t id n x c ch s, held s = false → s.jtag.outOfService = false → find? s.exp.frames id = some x → x.copies[n]? = some c → c.dst = .chan ch →
    c.committed = false → c.gone = false → c.wait = none → x.held = false → (c.cut = true ∨ (frm id s).ended = true ∧ x.verdict = some true) →
    Runs (.commitment t id n) s (fun u => find? u.exp.frames id = some { x with copies := x.copies.set n { c with committed := true } } ∧
      (∀ j, j ≠ id → find? u.exp.frames j = find? s.exp.frames j) ∧ KeepsBut [.exp, .lic, .bas] s u)) ∧
  (∀ t id n x c e k s, held s = false → find? s.exp.frames id = some x → x.copies[n]? = some c → c.wait = some (e, k) →
    (e ≤ (advance t s).tim.up ∨ linkBusy k x.contract s = false) →
    Runs (.repinHoldEnd t id n) s (fun u => find? u.exp.frames id = some { x with copies := x.copies.set n { c with wait := none } } ∧
      (∀ j, j ≠ id → find? u.exp.frames j = find? s.exp.frames j) ∧ KeepsBut [.exp] s u)) ∧
  (∀ t id n x c e k s, held s = false → find? s.exp.frames id = some x → x.copies[n]? = some c → c.wait = some (e, k) →
    (advance t s).tim.up < e → linkBusy k x.contract s = true → Runs (.repinHoldEnd t id n) s (fun u => KeepsBut [] s u)) ∧
  (∀ t id x s, held s = false → s.jtag.outOfService = false → find? s.exp.frames id = some x → (frm id s).ended = true → x.units = [] →
    x.verdict = none → verdictCause id x s = 0 → (∀ c ∈ x.copies, c.committed = true → ∃ ch, c.dst = .chan ch) →
    Runs (.verdict t id) s (fun u => find? u.exp.frames id = some { x with verdict := some true, settled := true } ∧
      (∀ j, j ≠ id → find? u.exp.frames j = find? s.exp.frames j) ∧ KeepsBut [.exp, .lic, .bas, .arc, .regs] s u ∧
      RegsBut [(0x1D0, 0x114)] s u)) ∧
  (∀ t id x s, held s = false → s.jtag.outOfService = false → find? s.exp.frames id = some x → (frm id s).ended = true → x.units = [] →
    x.verdict = none → verdictCause id x s ≠ 0 → x.mcast = false → id < s.lic.nextFrame → (∀ c ∈ x.copies, ∃ ch, c.dst = .chan ch) →
    x.copies.any (fun c => c.committed && !c.gone) = true →
    Runs (.verdict t id) s (fun u => (∃ y, find? u.exp.frames id = some y ∧ y.verdict = some false ∧ y.cause = verdictCause id x s) ∧
      (frm id u).bad = true ∧
      ((s.exp.fsSeq + 2 ^ 32 - (rd pgExp 0x11C s).toNat) % 2 ^ 32 < 512 → u.exp.fsSeq = (s.exp.fsSeq + 1) % 2 ^ 32 ∧
        ∃ r, find? u.exp.fsRing (s.exp.fsSeq % 512) = some r ∧ r.stamp = (frm id s).stamp ∧ r.seq = s.exp.fsSeq) ∧
      KeepsBut [.exp, .lic, .bas, .arc, .regs, .free] s u ∧ RegsBut [(pgExp, 0x120), (0x1D0, 0x114)] s u))

/-- A frame with a bad verdict, none of whose copies on their way is committed, is discarded at the crossbar and leaves nowhere (R213). -/
def Obligations.BadFrameNeverLeaves : Prop :=
  ∀ t id x s, held s = false → s.jtag.outOfService = false → find? s.exp.frames id = some x → (frm id s).ended = true → x.units = [] →
    x.verdict = none → verdictCause id x s ≠ 0 → x.copies.any (fun c => c.committed && !c.gone) = false →
    x.copies.any (fun c => !c.gone) = true → id < s.lic.nextFrame →
    Runs (.verdict t id) s (fun u => find? u.exp.frames id = none ∧ find? u.lic.frames id = none ∧
      (∀ j, j ≠ id → find? u.exp.frames j = find? s.exp.frames j) ∧ KeepsBut [.exp, .lic, .bas, .arc, .regs] s u ∧
      RegsBut [(0x1D0, 0x114)] s u)

/-- Seal units, the node table and the histograms: a unit's verdict leaves the frame without the unit and bad when the unit found a cause, and a unit
whose datapaths disagree is withdrawn until the marshal returns it (R248, R249, R251, R252); a dynamic node silent for NODE_AGE seconds is
removed, and not before (R232); a histogram is cleared, and a read of its COUNT latches the rest (R226). The place of the extension comes with
the command (log entry 238). -/
def Obligations.SealAndHistogramCommands : Prop :=
  (∀ t u ext cmp x s, held s = false → s.jtag.outOfService = false → find? s.exp.frames (unit u s).frame = some x → x.units.contains u = true →
    ((unit u s).st = 1 ∨ (unit u s).st = 2) → (frm (unit u s).frame s).ended = true →
    (let f := frm (unit u s).frame s
     let d := frameData (x.unsigned.getD f.bytes)
     let cause := (sealWork (unit u s) (bitOf (dupSeal (conIdx x.bank x.contract) s) 10) d (parse (parseCfg f.gen s) d) ext).1
     Runs (.sealVerdict t u ext cmp) s (fun r => (∃ z, find? r.exp.frames (unit u s).frame = some z ∧
         z.units = x.units.filter (fun v => !(v == u)) ∧ z.sealBad = (x.sealBad || cmp || cause != 0) ∧ z.copies = x.copies) ∧
       (∀ j, j ≠ (unit u s).frame → find? r.exp.frames j = find? s.exp.frames j) ∧ (unit u r).st = (if cmp then 3 else 0) ∧
       (∀ v, v ≠ u → unit v r = unit v s) ∧ KeepsBut [.exp, .lic, .regs] s r ∧ RegsBut [(pgSeal, 0x118)] s r))) ∧
  (∀ t u s, Reaches 0x50 0x18B 0x11C s → u < 64 → (unit u s).st = 3 →
    Runs (.sealReturn t u) s (fun r => unit u r = { unit u s with st := 0 } ∧ (∀ v, v ≠ u → unit v r = unit v s) ∧
      KeepsBut [.exp, .regs, .resp] s r ∧ RegsBut [(0x18B, 0x11C)] s r)) ∧
  (∀ t i n s, held s = false → find? s.exp.nodes i = some n → n.static = false →
    n.seen + rf 0x188 0x100 16 16 s * 10 ^ 9 * 2 ^ 32 ≤ (advance t s).tim.up →
    Runs (.nodeAge t i) s (fun u => u.exp = { s.exp with nodes := del s.exp.nodes i } ∧ KeepsBut [.exp] s u)) ∧
  (∀ t i n s, held s = false → find? s.exp.nodes i = some n →
    (n.static = true ∨ (advance t s).tim.up < n.seen + rf 0x188 0x100 16 16 s * 10 ^ 9 * 2 ^ 32) →
    Runs (.nodeAge t i) s (fun u => KeepsBut [] s u)) ∧
  (∀ t o h s, Admitted o 0x186 s → h < 64 →
    Runs (.histClear t o h) s (fun u => u.exp = { s.exp with hist := put {} s.exp.hist h {} } ∧ KeepsBut [.exp, .resp] s u)) ∧
  (∀ t o h s, Admitted o 0x186 s → h < 64 →
    Runs (.histCountRead t o h) s (fun u => u.resp = ⟨false, [w32 (look {} s.exp.hist h).count]⟩ ∧
      find? u.regs.latch (lkey o (2 ^ 41 + h * 64 + 11)) = some (w32 (look {} s.exp.hist h).max) ∧
      find? u.regs.latch (lkey o (2 ^ 41 + h * 64 + 12)) = some (w32 (look {} s.exp.hist h).min) ∧ KeepsBut [.regs, .resp] s u ∧ RegsBut [] s u))

/-- When a bank copy is done, every entry of the five express tables in the shadow bank equals the one of the bank in force; the bank in
force, every other table and every register are as they were (R200). -/
def Obligations.BankCopyDone : Prop :=
  ∀ t s, held s = false → s.exp.copyBusy = true →
    Runs (.bankCopyDone t) s (fun u => u.exp = { s.exp with copyBusy := false } ∧
      (∀ tab i w, tab ∈ [tbMap, tbCon, tbOpen, tbAlw, tbGrp] → i < bankSize tab → w < 64 →
        (let live := rf pgExp 0x100 0 1 s
         tw tab ((1 - live) * bankSize tab + i) w u = tw tab (live * bankSize tab + i) w s ∧
         tw tab (live * bankSize tab + i) w u = tw tab (live * bankSize tab + i) w s)) ∧
      (∀ tab i w, tab ∉ [tbMap, tbCon, tbOpen, tbAlw, tbGrp] → i < 2 ^ 24 → w < 64 → tw tab i w u = tw tab i w s) ∧
      (∀ p off, rd p off u = rd p off s) ∧ KeepsBut [.exp, .regs] s u)

/-! ## The basin and the pacer -/

/-- Berths (R254-R259). A request of a cycle with nothing left over, with a port of its requester free, takes a berth of the next bank that has
not granted in the cycle when its pool has one below its minimum or of the shared region; a request that its pool refuses drops the
arriving frame and counts it in the pool; one without a bank waits. A released berth is freed and credited to its pool, a released deep
berth that is not retired likewise, and a free of one that is not in use is refused and reported. -/
def Obligations.BerthCommands : Prop :=
  (∀ t r id x s, held s = false → s.jtag.outOfService = false → rb pgBas 8 0 s = true → s.bas.waiting = [] →
    (let s1 := if r = .ingress then ingressArrive id (advance t s) else advance t s
     let p := reqPool x (frm id s).gen s
     let g := (frm id s).gen
     let same := s.bas.cycle = tmCycle (advance t s)
     find? s1.bas.desc id = some x → x.req = r → 256 * x.berths.length < (frm id s).bytes.length →
     (same → s.bas.turn ≤ reqrCode r ∧ look 0 s.bas.ports (reqrCode r) < reqrPorts r) →
     (∀ b, (poolUsed p s < poolMin g p s ∨ (poolUsed p s < poolMax g p s ∧ s.bas.shared < sharedSize s)) →
       nextBerth s.bas.used (if same then s.bas.banks else []) s.bas.lastBank 24576 = some b →
       Runs (.berthRequest t r id) s (fun u => b ∈ u.bas.used ∧ (∀ j, j ≠ b → (j ∈ u.bas.used ↔ j ∈ s.bas.used)) ∧ u.bas.lastBank = b % 64 ∧
         find? u.bas.desc id = some { x with pool := p, berths := x.berths ++ [b] } ∧ poolUsed p u = poolUsed p s + 1 ∧
         u.pac = s1.pac ∧ u.bas.q = s.bas.q ∧ KeepsBut [.pac, .bas, .hif, .regs] s u)) ∧
     ((poolUsed p s < poolMin g p s ∨ (poolUsed p s < poolMax g p s ∧ s.bas.shared < sharedSize s)) →
       nextBerth s.bas.used (if same then s.bas.banks else []) s.bas.lastBank 24576 = none →
       Runs (.berthRequest t r id) s (fun u => u.bas.waiting = [(r, id)] ∧ u.bas.used = s.bas.used ∧ u.bas.poolUsed = s.bas.poolUsed ∧
         u.pac = s1.pac ∧ KeepsBut [.pac, .bas, .hif, .regs] s u)) ∧
     (¬(poolUsed p s < poolMin g p s ∨ (poolUsed p s < poolMax g p s ∧ s.bas.shared < sharedSize s)) → r ≠ .capture →
       Runs (.berthRequest t r id) s (fun u => find? u.bas.desc id = none ∧ frmLive id u = false ∧ u.bas.used = s.bas.used ∧
         u.bas.rel = s.bas.rel ++ x.berths.map (fun i => (i, x.pool)) ∧
         (rd pgBas (0x900 + 4 * p) u).toNat = satAdd (rd pgBas (0x900 + 4 * p) s).toNat 1 (2 ^ 32 - 1) ∧
         KeepsBut [.pac, .bas, .lic, .arc, .hif, .regs] s u)))) ∧
  (∀ t party i p s, held s = false → i ∈ s.bas.used → s.bas.rel.find? (fun e => e.1 == i) = some (i, p) →
    Runs (.berthFree t party i false) s (fun u => i ∉ u.bas.used ∧ (∀ j, j ≠ i → (j ∈ u.bas.used ↔ j ∈ s.bas.used)) ∧
      u.bas.rel = s.bas.rel.filter (fun e => !(e.1 == i)) ∧ poolUsed p u = poolUsed p s - 1 ∧
      u.bas.shared = (if poolMin s.lock.gen p s < poolUsed p s then s.bas.shared - 1 else s.bas.shared) ∧ u.bas.q = s.bas.q ∧ KeepsBut [.bas] s u)) ∧
  (∀ t party i p s, held s = false → i ∈ s.bas.deepUsed → s.bas.relDeep.find? (fun e => e.1 == i) = some (i, p) → has s.mem.retired i = false →
    Runs (.berthFree t party i true) s (fun u => i ∉ u.bas.deepUsed ∧ (∀ j, j ≠ i → (j ∈ u.bas.deepUsed ↔ j ∈ s.bas.deepUsed)) ∧
      u.bas.relDeep = s.bas.relDeep.filter (fun e => !(e.1 == i)) ∧ look 0 u.bas.poolDeep p = look 0 s.bas.poolDeep p - 1 ∧
      u.bas.q = s.bas.q ∧ KeepsBut [.bas] s u)) ∧
  (∀ t party i deep s, held s = false → has (if deep then s.bas.deepUsed else s.bas.used) i = false →
    Runs (.berthFree t party i deep) s (fun u => u.bas.used = s.bas.used ∧ u.bas.deepUsed = s.bas.deepUsed ∧ u.bas.poolUsed = s.bas.poolUsed ∧
      u.bas.dfree = i % 2 ^ 27 + b2n deep * 2 ^ 27 + party % 8 * 2 ^ 28 + 2 ^ 31 ∧
      (rd pgBas 0x120 u).toNat = satAdd (rd pgBas 0x120 s).toNat 1 (2 ^ 32 - 1) ∧ KeepsBut [.bas, .regs] s u ∧ RegsBut [(pgBas, 0x120)] s u))

/-- Admission of a frame that no other ready frame goes before (R263, R264, R270): a bad frame, or a duplicate, is dropped whole and its berths are
released; one that passes check 2 and the weir of its queue enters that queue at its end, stored with one reference; one that the weir refuses
is dropped and counted on the queue; one for a group that is not valid is dropped. -/
def Obligations.BulkAdmission : Prop :=
  (∀ t id x s, held s = false → s.jtag.outOfService = false → rb pgBas 8 0 s = true → find? s.bas.desc id = some x → admitReady id x s = true →
    admitAhead id s = [] → ((frm id s).bad || has s.exp.bulkDup id) = true →
    Runs (.bulkAdmit t id) s (fun u => find? u.bas.desc id = none ∧ find? u.lic.frames id = none ∧ u.bas.q = s.bas.q ∧
      u.bas.rel = s.bas.rel ++ x.berths.map (fun i => (i, x.pool)) ∧ u.exp = { s.exp with bulkDup := rem s.exp.bulkDup id } ∧
      KeepsBut [.bas, .lic, .exp, .arc] s u)) ∧
  (∀ t id x q s, held s = false → s.jtag.outOfService = false → rb pgBas 8 0 s = true → find? s.bas.desc id = some x → admitReady id x s = true →
    admitAhead id s = [] → (frm id s).bad = false → has s.exp.bulkDup id = false → (destCheck id x s).1 = some q → x.policer = none →
    (let len := (frm id s).bytes.length
     let c := if x.colour = 3 then 0 else x.colour
     (∀ m, weirJudge q len c x.ect s = .pass m → x.mirror = none → x.copyHost = none →
       (x.req = .ingress → x.src < 256 → rxMirror x.src s = none) →
       Runs (.bulkAdmit t id) s (fun u => find? u.bas.desc id = none ∧ (∀ p, p ≠ q → queue p u = queue p s) ∧
         queue q u = queue q s ++ [{ id := id, len := len, mark := m, colour := c, why := match x.dest with
           | .punt _ w => w
           | _ => 0 }] ∧
         find? u.bas.frames id = some ⟨x.pool, x.berths, 1, x.src, x.cls, len⟩ ∧ u.bas.used = s.bas.used ∧ KeepsBut [.bas] s u)) ∧
     ((∀ m, weirJudge q len c x.ect s ≠ .pass m) →
       Runs (.bulkAdmit t id) s (fun u => find? u.bas.desc id = none ∧ find? u.lic.frames id = none ∧ u.bas.q = s.bas.q ∧
         u.bas.rel = s.bas.rel ++ x.berths.map (fun i => (i, x.pool)) ∧
         look 0 u.bas.drops q = satAdd (look 0 s.bas.drops q) 1 0xFFFFFFFF ∧ KeepsBut [.bas, .lic, .arc] s u)))) ∧
  (∀ t id x g s, held s = false → s.jtag.outOfService = false → rb pgBas 8 0 s = true → find? s.bas.desc id = some x → admitReady id x s = true →
    admitAhead id s = [] → (frm id s).bad = false → has s.exp.bulkDup id = false → x.dest = .mcast g → tb tbBGrp g 0 0 s = false →
    Runs (.bulkAdmit t id) s (fun u => find? u.bas.desc id = none ∧ find? u.lic.frames id = none ∧ u.bas.q = s.bas.q ∧
      u.bas.rel = s.bas.rel ++ x.berths.map (fun i => (i, x.pool)) ∧ KeepsBut [.bas, .lic, .arc] s u))

/-- The mover, the reads of moved frames, the flushes and the ager (R265-R267, R272, R274, R275): the mover starts and stops at its levels; a
confirmed run takes deep berths, charged to its pool, when the credit lasts, and waits otherwise; the first moved frame near the head of a
queue is read; a flush leaves only what has started; the ager takes the frames at the head whose age has passed. -/
def Obligations.BasinCommands : Prop :=
  (∀ t s, held s = false → rb pgBas 0x100 0 s = true → s.bas.memReady = true → rf pgBas 0x104 0 7 s * berthCount ≤ s.bas.used.length * 100 →
    Runs (.moverStart t) s (fun u => u.bas = { s.bas with moving := true } ∧ KeepsBut [.bas] s u)) ∧
  (∀ t s, held s = false → s.bas.used.length * 100 < rf pgBas 0x104 8 7 s * berthCount →
    Runs (.moverStop t) s (fun u => u.bas = { s.bas with moving := false, creditWait := false } ∧ KeepsBut [.bas] s u)) ∧
  (∀ t q run s, held s = false → s.bas.moving = true → moverQueue s = some (q, run) →
    (let n := ((run.map (fun x => packed x.len)).sum + 1983) / 1984
     let have_ := (moverCredit (advance t s)).bas.credit
     let pool := match run.head? with
       | some x => entPool x s
       | none => 0
     Runs (.deepWriteConfirm t) s (fun u => (∀ p, p ≠ q → queue p u = queue p s) ∧ KeepsBut [.bas] s u ∧
       (have_ < 2048 * n → u.bas.creditWait = true ∧ u.bas.q = s.bas.q ∧ u.bas.deepUsed = s.bas.deepUsed) ∧
       (2048 * n ≤ have_ → u.bas.creditWait = false ∧ u.bas.credit = have_ - 2048 * n ∧ u.bas.moveNext = q ∧
         look 0 u.bas.poolDeep pool = look 0 s.bas.poolDeep pool + n ∧
         ∃ deep, (∀ d ∈ deep, d ∈ u.bas.deepUsed ∧ d ∉ s.bas.deepUsed) ∧
           queue q u = (queue q s).map (fun e => if (run.map (·.id)).contains e.id then { e with deep := deep } else e))))) ∧
  (∀ t q s, held s = false →
    Runs (.deepRead t q) s (fun u => queue q u = readFirst (fun d => !memFrozenAt (d % memCount s) s) (queue q s) 0 ∧
      (∀ p, p ≠ q → queue p u = queue p s) ∧ KeepsBut [.bas] s u)) ∧
  (∀ t c r s, held s = false → s.bas.downPend = c :: r →
    Runs (.downFlush t) s (fun u => u.bas.downPend = r ∧ (∀ q, isEgress q = true → chanOfQ q = c → queue q u = (queue q s).filter (·.started)) ∧
      (∀ q, ¬(isEgress q = true ∧ chanOfQ q = c) → queue q u = queue q s) ∧ KeepsBut [.bas, .lic, .arc, .pcr, .regs] s u ∧
      RegsBut [(pgBas, 0x120)] s u)) ∧
  (∀ t f r s, held s = false → s.bas.flushes = f :: r → Runs (.flushDone t) s (fun u => u.bas = { s.bas with flushes := r } ∧ KeepsBut [.bas] s u)) ∧
  (∀ t q s, held s = false → tf tbBq q 0 16 16 s ≠ 0 →
    Runs (.agerVisit t q) s (fun u => queue q u = (queue q s).drop
        (agedHead (tf tbBq q 0 16 16 s * 1000000 * nsU) (nowStamp (advance t s)) s (queue q s)).length ∧
      (∀ p, p ≠ q → queue p u = queue p s) ∧ KeepsBut [.bas, .lic, .arc, .pcr, .regs] s u ∧ RegsBut [(pgBas, 0x120)] s u)) ∧
  (∀ t o s, Reaches o pgBas 0x128 s → flushBusy s = false →
    (let q := if rb pgBas 0x124 20 s then puntQ (rf pgBas 0x124 0 9 s) else rf pgBas 0x124 0 20 s
     Runs (.basinFlushGo t o) s (fun u => queue q u = (queue q s).filter (·.started) ∧ (∀ p, p ≠ q → queue p u = queue p s) ∧
       flushBusy u = true ∧ KeepsBut [.bas, .lic, .arc, .regs, .resp] s u ∧ RegsBut [(pgBas, 0x120), (pgBas, 0x128)] s u)))

/-- The pacer: a grant through a port node that the cycle has left takes the head frame of the selected queue into its channel's staging and charges
its credit (R282-R284, R287), and a cycle without one changes nothing; lengths return, the refill goes on to the next node (R288-R290), and
the gates of a channel follow their notices, and not before, and close when one is missed (R297-R299). -/
def Obligations.PacerCommands : Prop :=
  (∀ t p c s, held s = false → s.jtag.outOfService = false → rb pgPcr 8 0 s = true → p < 1280 → s.pair.egressHold = false →
    grantLeft p (advance t s) = true →
    (let s1 := syncPort p none (findMiswired p (advance t s))
     selectDown 4 (liveAt 0 (chainsOf p s1) s1) s1 = some c → isEgress c.q = true → txMirror (chanOfQ c.q) s = none →
     Runs (.grant t p none) s (fun u => queue c.q u = (queue c.q s).drop 1 ∧ (∀ q, q ≠ c.q → queue q u = queue q s) ∧
       (∀ k, look 0 u.pcr.creditUsed k = look 0 s.pcr.creditUsed k + (if k = 8 * chanOfQ c.q + c.q % 8 then headLen c.q s else 0)) ∧
       look [] (port (chanOfQ c.q) u).stage (c.q % 8) = look [] (port (chanOfQ c.q) s).stage (c.q % 8) ++ [s.lic.nextFrame] ∧
       (∀ d, d ≠ chanOfQ c.q → port d u = port d s) ∧ KeepsBut [.bas, .lic, .arc, .pcr, .regs] s u ∧
       RegsBut [(pgPcr, 0x110), (pgBas, 0x120)] s u))) ∧
  (∀ t p bad s, held s = false → s.jtag.outOfService = false → grantLeft p (advance t s) = false →
    Runs (.grant t p bad) s (fun u => KeepsBut [] s u)) ∧
  (∀ t k n r s, held s = false → s.pcr.ret = (k, n) :: r →
    Runs (.creditReturn t) s (fun u => u.pcr = { s.pcr with ret := r, creditUsed := put 0 s.pcr.creditUsed k (look 0 s.pcr.creditUsed k - n) } ∧
      KeepsBut [.pcr] s u)) ∧
  (∀ t lvl s, held s = false → lvl ≤ 4 → rb pgPcr 8 0 s = true →
    (let i := look 0 s.pcr.pos lvl
     Runs (.refillVisit t lvl 0) s (fun u => look 0 u.pcr.pos lvl = (i + 1) % nodeCount lvl ∧
       bucket (nkey lvl i) u = (if nodeLive lvl i s then
         refilled (bucket (nkey lvl i) s) (fld (nodeW lvl i 2 s) 0 16) (nowStamp (advance t s)) s else bucket (nkey lvl i) s) ∧
       (∀ k, k ≠ nkey lvl i → bucket k u = bucket k s) ∧ u.pcr.tag = s.pcr.tag ∧ KeepsBut [.pcr] s u))) ∧
  (∀ t c e s, held s = false → (gateCh c s).pend = none → (gateCh c s).notes.length < 64 → c < 256 → rb pgGate 8 0 s = true →
    gateNext c ((gateCh c s).sent.getD (nowStamp (advance t s) - 1)) s = some e →
    Runs (.gateNotice t c) s (fun u => gateCh c u = { gateCh c s with
        sent := some e.at_, notes := (gateCh c s).notes ++ [⟨e.at_, e.gates, (gateNext c e.at_ s).map (·.at_)⟩] } ∧
      (∀ d, d ≠ c → gateCh d u = gateCh d s) ∧ KeepsBut [.pcr] s u)) ∧
  (∀ t c n r s, held s = false → (gateCh c s).pend = none → (gateCh c s).notes = n :: r → n.at_ ≤ nowStamp (advance t s) →
    Runs (.gateApply t c) s (fun u => gateCh c u = { gateCh c s with open_ := n.gates, notes := r, follow := n.next } ∧
      (∀ d, d ≠ c → gateCh d u = gateCh d s) ∧ KeepsBut [.pcr] s u)) ∧
  (∀ t c n r s, held s = false → (gateCh c s).pend = none → (gateCh c s).notes = n :: r → nowStamp (advance t s) < n.at_ →
    Runs (.gateApply t c) s (fun u => KeepsBut [] s u)) ∧
  (∀ t c f s, held s = false → (gateCh c s).pend = none → (gateCh c s).follow = some f → f ≤ nowStamp (advance t s) → (gateCh c s).notes = [] →
    Runs (.gateMiss t c) s (fun u => gateCh c u = { gateCh c s with open_ := 0, follow := none } ∧ (∀ d, d ≠ c → gateCh d u = gateCh d s) ∧
      rf pgPcr 0x118 0 8 u = c % 256 ∧ rf pgPcr 0x118 8 24 u = satAdd (rf pgPcr 0x118 8 24 s) 1 0xFFFFFF ∧ KeepsBut [.pcr, .regs] s u ∧
      RegsBut [(pgPcr, 0x118)] s u))

/-- PAUSE generation on a channel with PAUSE_EN and link-level pause (R301, R302): a count that reaches XOFF sends one PAUSE frame with the profile's
quanta, and below XOFF none; while paused, a count below XON ends the state, with a PAUSE frame of time 0 when the profile asks for one, and one
from XON up sends nothing before the refresh time. The source address of the frame is open (log entry 11). -/
def Obligations.PauseJudgement : Prop :=
  ∀ t c s, held s = false → c < 256 → rb 0x1A6 8 0 s = true →
    (let w := rd 0x1A6 (0x1000 + 4 * c) s
     let f := fld w 10 5
     let h := (((List.range 8).filter (fun k => nbit (fld w 2 8) k)).map (fun k => heldBytes c k s)).sum
     let xoff := fld (pfcReg f 0 s) 0 21 * 256
     let xon := fld (pfcReg f 1 s) 0 21 * 256
     let sends (q : Nat) (u : State) : Prop := (port c u).ctl = (port c s).ctl ++ [(macControl (toBE 2 1 ++ toBE 2 q) s).1] ∧
       (∀ d, d ≠ c → port d u = port d s) ∧ u.free = s.free + 1 ∧ KeepsBut [.pcr, .lic, .free] s u
     bitOf w 0 = true → bitOf w 1 = true →
     (find? s.pcr.off (8 * c) = none →
       (xoff ≤ h → Runs (.pfcJudge t c) s (fun u => find? u.pcr.off (8 * c) = some (advance t s).tim.up ∧ sends (fld (pfcReg f 2 s) 0 16) u)) ∧
       (h < xoff → Runs (.pfcJudge t c) s (fun u => KeepsBut [] s u))) ∧
     (∀ a, find? s.pcr.off (8 * c) = some a →
       (h < xon → bitOf (pfcReg f 3 s) 0 = true → Runs (.pfcJudge t c) s (fun u => find? u.pcr.off (8 * c) = none ∧ sends 0 u)) ∧
       (h < xon → bitOf (pfcReg f 3 s) 0 = false → Runs (.pfcJudge t c) s (fun u => u.pcr = { s.pcr with off := del s.pcr.off (8 * c) } ∧
         KeepsBut [.pcr] s u)) ∧
       (xon ≤ h → (advance t s).tim.up < a + fld (pfcReg f 2 s) 16 16 * 100 * 2 ^ 32 → Runs (.pfcJudge t c) s (fun u => KeepsBut [] s u))))

/-! ## The fabric -/

/-- Barges (R308-R314, R327, R329, R332). An IDLE barge whose checks pass changes nothing but the credit that its report brings; one in an
uncorrectable codeword, or with a bad header check, is discarded, reported and counted, and the lane hunts; a hunting lane that finds no
header takes nothing. A bulk barge for this device in sequence passes: NEXT moves on, its blocks are freed, and it starts a frame, with the instant
at which it came, or goes on with the one in progress. A lane sends the first it has of an express barge, a control barge, a bulk or tree barge
in turn, and IDLE, with a credit report, and pays for it with credit. -/
def Obligations.BargeCommands : Prop :=
  (∀ t f r s, held s = false → s.jtag.outOfService = false → f < 256 → rb pgFab 8 0 s = true → (fabLane f s).st ≠ 0 → (fabLane f s).hunt = false →
    barCheck false r s = 0 → (barDecode r).type = 0 →
    (let p := nfld (beAt r 8 4) 12 4
     let n := nfld (beAt r 8 4) 0 12
     (6 < p ∨ (fabLane f s).st ≠ 2 → Runs (.bargeReceive t f false r) s (fun u => fabLane f u = fabLane f s ∧
       (∀ g, g ≠ f → fabLane g u = fabLane g s) ∧ KeepsBut [.fab] s u)) ∧
     (p ≤ 6 → (fabLane f s).st = 2 → s.fab.bulkOut = [] → Runs (.bargeReceive t f false r) s (fun u => fabLane f u = { fabLane f s with
         credit := put 0 (fabLane f s).credit p (look 0 (fabLane f s).credit p + (n + 4096 - look 0 (fabLane f s).lastCr p) % 4096)
         lastCr := put 0 (fabLane f s).lastCr p n } ∧
       (∀ g, g ≠ f → fabLane g u = fabLane g s) ∧ KeepsBut [.fab] s u)))) ∧
  (∀ t f cw r s, held s = false → s.jtag.outOfService = false → f < 256 → rb pgFab 8 0 s = true → (fabLane f s).st = 2 → (fabLane f s).hunt = false →
    (∀ e ∈ s.fab.lanes, e.2.stuck = []) → (cw = true ∨ hcsOk r = false) →
    (cw = false → huntFind headerAt barLen ((r.drop 16).length / 16 + 1) (r.drop 16) = none) →
    Runs (.bargeReceive t f cw r) s (fun u => u.fab.rxBadLast = (if cw then 7 else 1) + f * 16 + 2 ^ 31 ∧ (fabLane f u).hunt = true ∧
      (fabLane f u).hcsErr = (if cw then (fabLane f s).hcsErr else satAdd (fabLane f s).hcsErr 1 0xFFFF) ∧ (fabLane f u).st = 2 ∧
      (∀ g, g ≠ f → fabLane g u = fabLane g s) ∧ u.fab.ctx = s.fab.ctx ∧
      (rd pgFab 0x128 u).toNat = satAdd (rd pgFab 0x128 s).toNat 1 (2 ^ 32 - 1) ∧ KeepsBut [.fab, .regs] s u ∧ RegsBut [(pgFab, 0x128)] s u)) ∧
  (∀ t f cw r s, held s = false → s.jtag.outOfService = false → (fabLane f s).hunt = true →
    (cw = true ∨ huntFind headerAt barLen (r.length / 16 + 1) r = none) → Runs (.bargeReceive t f cw r) s (fun u => KeepsBut [] s u)) ∧
  (∀ t f r s, held s = false → s.jtag.outOfService = false → f < 256 → rb pgFab 8 0 s = true → (fabLane f s).st = 2 → (fabLane f s).hunt = false →
    (∀ e ∈ s.fab.lanes, e.2.stuck = []) → barCheck false r s = 0 → nfld (beAt r 8 4) 12 4 = 15 → fabData s = true →
    (let b := barDecode r
     let c := ctxOf b s
     let common (u : State) : Prop := (fctx c u).next = ((fctx c s).next + 1) % 65536 ∧ (fctx c u).timer = none ∧ (fctx c u).held = [] ∧
       (fctx c u).advAt = (advance t s).tim.up ∧ (∀ d, d ≠ c → fctx d u = fctx d s) ∧
       (∀ p, look 0 (fabLane f u).freed p = (if p = 4 + b.hops then (look 0 (fabLane f s).freed p + b.blocks) % 4096 else look 0 (fabLane f s).freed p)) ∧
       (∀ g, g ≠ f → fabLane g u = fabLane g s) ∧ KeepsBut [.fab, .lic, .bas] s u
     b.type = 1 → s.fab.addr = some b.dest → (fctx c s).held = [] → (fctx c s).next = b.seq →
     (b.sof = true →
       Runs (.bargeReceive t f false r) s (fun u => common u ∧ (fctx c u).cur = (if b.eof then none else some s.lic.nextFrame) ∧
         (∃ x, find? u.lic.frames s.lic.nextFrame = some x ∧ x.bytes = b.pay ∧ x.stamp = nowStamp (advance t s) ∧ x.ended = b.eof ∧ x.bad = false) ∧
         (∃ x, find? u.bas.desc s.lic.nextFrame = some x ∧ x.req = .fabric ∧ x.dest = .dport b.dfp ∧ x.cls = b.cls % 8 ∧ x.colour = b.colour ∧
           x.ect = b.ect) ∧
         (∀ id, id < s.lic.nextFrame → (fctx c s).cur ≠ some id → find? u.lic.frames id = find? s.lic.frames id))) ∧
     (b.sof = false → ∀ id, (fctx c s).cur = some id → frmLive id s = true →
       Runs (.bargeReceive t f false r) s (fun u => common u ∧ (fctx c u).cur = (if b.eof then none else some id) ∧
         find? u.lic.frames id = some { frm id s with bytes := (frm id s).bytes ++ b.pay, ended := b.eof } ∧
         (∀ j, j ≠ id → find? u.lic.frames j = find? s.lic.frames j) ∧ u.bas = s.bas)) ∧
     (b.sof = false → (fctx c s).cur = none →
       Runs (.bargeReceive t f false r) s (fun u => common u ∧ (fctx c u).cur = none ∧ u.lic = s.lic ∧ u.bas = s.bas)))) ∧
  (∀ t f s, held s = false → s.jtag.outOfService = false → rb pgFab 8 0 s = true → (fabLane f s).st ≠ 0 →
    s.bas.trees = [] → s.fab.bulkOut = [] → (∀ e ∈ s.fab.lanes, e.2.stuck = []) →
    (let l := fabLane f s
     let data := fabData s && l.st != 3
     let x := (firstOf f l.txOpenX l.xq s).filter (fun _ => data)
     let k := l.ctl.find? (fun b => credOk f b s && (b.type != 4 || data))
     let bulk := (firstOf f none l.bulk s).filter (fun _ => data)
     let tree := (firstOf f l.txOpenT l.tree s).filter (fun _ => data)
     let sent (b : Barge) (u : State) : Prop := (fabLane f u).lastTx = barEncode b (crPick l).1 (crPick l).2 ∧
       (∀ p, look 0 (fabLane f u).credit p = look 0 l.credit p - (if b.pool = some p then b.blocks else 0)) ∧ (fabLane f u).st = l.st ∧
       (∀ g, g ≠ f → fabLane g u = fabLane g s) ∧ KeepsBut [.fab] s u
     (∀ b, x = some b → Runs (.bargeSend t f) s (fun u => sent b u ∧ (fabLane f u).xq = dropOne b l.xq ∧
       (fabLane f u).txOpenX = (if b.eof then none else some b.fid) ∧ (fabLane f u).ctl = l.ctl ∧ (fabLane f u).bulk = l.bulk ∧
       (fabLane f u).tree = l.tree)) ∧
     (∀ b, x = none → k = some b → Runs (.bargeSend t f) s (fun u => sent b u ∧ (fabLane f u).ctl = dropOne b l.ctl ∧ (fabLane f u).xq = l.xq ∧
       (fabLane f u).bulk = l.bulk ∧ (fabLane f u).tree = l.tree)) ∧
     (∀ b, x = none → k = none → bulk = some b → (tree = none ∨ l.treeTurn = false) →
       Runs (.bargeSend t f) s (fun u => sent b u ∧ (fabLane f u).bulk = dropOne b l.bulk ∧ (fabLane f u).treeTurn = true ∧
         (fabLane f u).xq = l.xq ∧ (fabLane f u).ctl = l.ctl ∧ (fabLane f u).tree = l.tree)) ∧
     (∀ b, x = none → k = none → tree = some b → (bulk = none ∨ l.treeTurn = true) →
       Runs (.bargeSend t f) s (fun u => sent b u ∧ (fabLane f u).tree = dropOne b l.tree ∧ (fabLane f u).treeTurn = false ∧
         (fabLane f u).txOpenT = (if b.eof then none else some b.fid) ∧ (fabLane f u).xq = l.xq ∧ (fabLane f u).ctl = l.ctl ∧
         (fabLane f u).bulk = l.bulk)) ∧
     (x = none → k = none → bulk = none → tree = none → Runs (.bargeSend t f) s (fun u => sent { type := 0 } u ∧
       (fabLane f u).xq = l.xq ∧ (fabLane f u).ctl = l.ctl ∧ (fabLane f u).bulk = l.bulk ∧ (fabLane f u).tree = l.tree))))

/-- Lanes and floods (R316, R318, R319). A HELLO whose interval has passed is queued on a lane that is not DOWN; a lane without a valid one for three
intervals goes DOWN, or to HOLD toward a pair, whose hold ends DOWN; the ANNOUNCE, ASSIGN and LSA of the device are refreshed with a
new sequence; an unrefreshed flood is forgotten with what it told; the master assigns. None of these acts before its time. -/
def Obligations.FabricControlCommands : Prop :=
  (∀ t f s, held s = false → (fabLane f s).st ≠ 0 → helloDue f (advance t s) = true →
    Runs (.helloSend t f) s (fun u => fabLane f u = { fabLane f s with
        helloSent := some (advance t s).tim.up
        ctl := (fabLane f s).ctl ++ [{ type := 8, src := s.fab.addr.getD 0, pay := helloPay f s }] } ∧
      (∀ g, g ≠ f → fabLane g u = fabLane g s) ∧ KeepsBut [.fab] s u)) ∧
  (∀ t f s, held s = false → ((fabLane f s).st = 0 ∨ helloDue f (advance t s) = false) →
    Runs (.helloSend t f) s (fun u => KeepsBut [] s u)) ∧
  (∀ t f s, held s = false → (fabLane f s).st = 2 → (fabLane f s).helloAt + 3 * helloUs s ≤ (advance t s).tim.up →
    (∀ e ∈ s.fab.lanes, e.2.stuck = []) →
    Runs (.helloTimeout t f) s (fun u => (fabLane f u).st = (if (fabLane f s).paired then 3 else 0) ∧
      (fabLane f u).timeouts = satAdd (fabLane f s).timeouts 1 0xFFFF ∧ (∀ g, g ≠ f → (fabLane g u).st = (fabLane g s).st) ∧
      KeepsBut [.fab, .bas, .lic, .exp, .arc, .regs, .free] s u)) ∧
  (∀ t f s, held s = false → ((fabLane f s).st ≠ 2 ∨ (advance t s).tim.up < (fabLane f s).helloAt + 3 * helloUs s) →
    Runs (.helloTimeout t f) s (fun u => KeepsBut [] s u)) ∧
  (∀ t f s, held s = false → (fabLane f s).st = 3 → (fabLane f s).holdAt + rf pgFab 0x104 24 8 s * 10000 * 2 ^ 32 ≤ (advance t s).tim.up →
    (∀ e ∈ s.fab.lanes, e.2.stuck = []) →
    Runs (.pairHoldExpiry t f) s (fun u => (fabLane f u).st = 0 ∧ (∀ g, g ≠ f → (fabLane g u).st = (fabLane g s).st) ∧
      KeepsBut [.fab, .bas, .lic, .exp, .arc, .regs, .free] s u)) ∧
  (∀ t f s, held s = false → ((fabLane f s).st ≠ 3 ∨ (advance t s).tim.up < (fabLane f s).holdAt + rf pgFab 0x104 24 8 s * 10000 * 2 ^ 32) →
    (∀ e ∈ s.fab.lanes, e.2.stuck = []) → Runs (.pairHoldExpiry t f) s (fun u => KeepsBut [] s u)) ∧
  (∀ t s, held s = false → floodDue 9 (advance t s) = true →
    Runs (.floodRefresh t 9) s (fun u => u.fab.annSeq = (s.fab.annSeq + 1) % 65536 ∧ find? u.fab.sent 9 = some (advance t s).tim.up ∧
      (∀ k f r, links s = [k] → joined k s = f :: r → ctlCount k s < 64 → (fabLane f u).ctl = (fabLane f s).ctl ++
        [{ type := 9, src := s.fab.addr.getD 0, seq := (s.fab.annSeq + 1) % 65536, pay := announcePay s }]) ∧
      u.fab.lsaSeq = s.fab.lsaSeq ∧ u.fab.assignSeq = s.fab.assignSeq ∧ KeepsBut [.fab] s u)) ∧
  (∀ t s, held s = false → floodDue 10 (advance t s) = true → s.fab.isMaster = true →
    Runs (.floodRefresh t 10) s (fun u => u.fab.assignSeq = (s.fab.assignSeq + 1) % 65536 ∧ find? u.fab.sent 10 = some (advance t s).tim.up ∧
      u.fab.lsaSeq = s.fab.lsaSeq ∧ u.fab.annSeq = s.fab.annSeq ∧ u.fab.assign = s.fab.assign ∧ KeepsBut [.fab] s u)) ∧
  (∀ t a s, held s = false → floodDue 11 (advance t s) = true → s.fab.addr = some a →
    Runs (.floodRefresh t 11) s (fun u => u.fab.lsaSeq = (s.fab.lsaSeq + 1) % 65536 ∧ find? u.fab.sent 11 = some (advance t s).tim.up ∧
      u.fab.annSeq = s.fab.annSeq ∧ u.fab.assignSeq = s.fab.assignSeq ∧ u.fab.lsas = s.fab.lsas ∧ KeepsBut [.fab] s u)) ∧
  (∀ t ty s, held s = false → (floodDue ty (advance t s) = false ∨ (ty = 10 ∧ s.fab.isMaster = false) ∨ (ty = 11 ∧ s.fab.addr = none)) →
    Runs (.floodRefresh t ty) s (fun u => KeepsBut [] s u)) ∧
  (∀ t ty o x s, held s = false → find? s.fab.floods (floodKey ty o) = some x → x.seen + 350000000 * 2 ^ 32 ≤ (advance t s).tim.up →
    (ty = 9 ∨ ty = 10 ∨ ty = 11) →
    Runs (.floodForget t ty o) s (fun u => find? u.fab.floods (floodKey ty o) = none ∧
      (∀ k, k ≠ floodKey ty o → find? u.fab.floods k = find? s.fab.floods k) ∧
      u.fab.devs = (if ty = 9 then del s.fab.devs o else s.fab.devs) ∧ u.fab.assign = (if ty = 10 then [] else s.fab.assign) ∧
      u.fab.lsas = (if ty = 11 then del s.fab.lsas o else s.fab.lsas) ∧ u.fab.lanes = s.fab.lanes ∧ u.fab.addr = s.fab.addr ∧ KeepsBut [.fab] s u)) ∧
  (∀ t ty o s, held s = false → (∀ x, find? s.fab.floods (floodKey ty o) = some x → (advance t s).tim.up < x.seen + 350000000 * 2 ^ 32) →
    Runs (.floodForget t ty o) s (fun u => KeepsBut [] s u)) ∧
  (∀ t s, held s = false → (masterNoted s).fab.isMaster = true → (s.fab.settled = true ∨ fabSettled (advance t s) = true) → rb pgFab 8 0 s = true →
    Runs (.masterAssign t) s (fun u => u.fab.settled = true ∧ u.fab.assign = assignAll (masterNoted s) ∧
      u.fab.assignSeq = (s.fab.assignSeq + 1) % 65536 ∧
      u.fab.addr = (if rb pgFab 0x100 0 s then s.fab.addr else match find? (assignAll (masterNoted s)) (fabSerial s) with
        | some a => some a
        | none => s.fab.addr) ∧
      KeepsBut [.fab, .bas] s u))

/-- Routes, open frames and streams (R323, R327, R332, R333, R335, R339): every device's route entry takes its computed paths in hardware mode; an
open frame that gets no further barge in 1 us ends; a gap is skipped after 20 us; an acknowledgment that is due carries NEXT of its context and of
those of its source that have advanced; a device without a path for UNREACH_MS is declared unreachable with its ports. None of these acts
before its time. -/
def Obligations.FabricRouteCommands : Prop :=
  (∀ t s, held s = false → rb pgFab 0x100 1 s = false → rb pgFab 8 0 s = true → (∀ e ∈ s.fab.lanes, e.2.stuck = []) → s.fab.bulkOut = [] →
    (∀ v ∈ routeDevs s, v < 1024) → (∀ k ∈ links s, k < 256) →
    Runs (.routeCompute t) s (fun u => u.fab.routesValid = true ∧ u.fab.routeGen = (s.fab.routeGen + 1) % 65536 ∧
      (∀ v ∈ routeDevs s, tf tbRt v 0 0 7 u = (pathWords v s).length ∧
        ∀ i, i < 64 → tf tbRt v (4 + i / 2) (i % 2 * 16) 16 u = (pathWords v s).getD i 0) ∧
      (∀ x i w, tkey x i w / 2 ^ 30 ≠ tbRt → tw x i w u = tw x i w s) ∧ u.fab.lanes = s.fab.lanes ∧
      KeepsBut [.fab, .bas, .regs] s u ∧ (∀ q off, q ≠ 2 → 0x100 ≤ off → off < 65536 → rd q off u = rd q off s))) ∧
  (∀ t s, held s = false → rb pgFab 0x100 1 s = true → (∀ e ∈ s.fab.lanes, e.2.stuck = []) → s.fab.bulkOut = [] →
    Runs (.routeCompute t) s (fun u => KeepsBut [] s u)) ∧
  (∀ t f id t0 s, held s = false → s.jtag.outOfService = false → (fabLane f s).openX = some (id, t0) → t0 + 1000 * 2 ^ 32 ≤ (advance t s).tim.up →
    frmLive id s = false →
    Runs (.expressFrameTimeout t f) s (fun u => fabLane f u = { fabLane f s with openX := none } ∧ (∀ g, g ≠ f → fabLane g u = fabLane g s) ∧
      KeepsBut [.fab] s u)) ∧
  (∀ t f id t0 x s, held s = false → s.jtag.outOfService = false → (fabLane f s).openX = some (id, t0) → t0 + 1000 * 2 ^ 32 ≤ (advance t s).tim.up →
    frmLive id s = true → id < s.lic.nextFrame → find? s.exp.frames id = some x → x.copies ≠ [] → x.verdict = none →
    (∀ c ∈ x.copies, c.committed = false ∧ c.gone = false) →
    Runs (.expressFrameTimeout t f) s (fun u => (fabLane f u).openX = none ∧ find? u.exp.frames id = none ∧ find? u.lic.frames id = none ∧
      (∀ g, g ≠ f → fabLane g u = fabLane g s) ∧ (∀ j, j ≠ id → find? u.exp.frames j = find? s.exp.frames j) ∧
      KeepsBut [.fab, .lic, .exp, .arc, .bas, .regs] s u ∧ RegsBut [(0x1D0, 0x114)] s u)) ∧
  (∀ t f s, held s = false → s.jtag.outOfService = false →
    (∀ id t0, (fabLane f s).openX = some (id, t0) → (advance t s).tim.up < t0 + 1000 * 2 ^ 32) →
    Runs (.expressFrameTimeout t f) s (fun u => KeepsBut [] s u)) ∧
  (∀ t f id t0 tr s, held s = false → s.jtag.outOfService = false → (fabLane f s).openT = some (id, t0, tr) →
    t0 + 1000 * 2 ^ 32 ≤ (advance t s).tim.up →
    Runs (.treeFrameTimeout t f) s (fun u => fabLane f u = { fabLane f s with openT := none } ∧ (∀ g, g ≠ f → fabLane g u = fabLane g s) ∧
      (frmLive id s = true → (frm id u).ended = true ∧ (frm id u).bad = true ∧ (frm id u).bytes = (frm id s).bytes) ∧
      (∀ j, j ≠ id → find? u.lic.frames j = find? s.lic.frames j) ∧ KeepsBut [.fab, .lic] s u)) ∧
  (∀ t f s, held s = false → s.jtag.outOfService = false →
    (∀ id t0 tr, (fabLane f s).openT = some (id, t0, tr) → (advance t s).tim.up < t0 + 1000 * 2 ^ 32) →
    Runs (.treeFrameTimeout t f) s (fun u => KeepsBut [] s u)) ∧
  (∀ t c t0 s, held s = false → s.jtag.outOfService = false → (fctx c s).timer = some t0 → t0 + 20000 * 2 ^ 32 ≤ (advance t s).tim.up →
    (fctx c s).held = [] → (∀ e ∈ s.fab.lanes, e.2.stuck = []) →
    Runs (.gapRule t c) s (fun u => (fctx c u).next = ((fctx c s).next + 1) % 65536 ∧ (fctx c u).gaps = satAdd (fctx c s).gaps 1 0xFFFFFFFF ∧
      (fctx c u).timer = none ∧ (fctx c u).cur = none ∧ (fctx c u).advAt = (advance t s).tim.up ∧ (∀ d, d ≠ c → fctx d u = fctx d s) ∧
      (∀ id, (fctx c s).cur = some id → frmLive id s = true → (frm id u).ended = true ∧ (frm id u).bad = true) ∧
      (∀ j, (fctx c s).cur ≠ some j → find? u.lic.frames j = find? s.lic.frames j) ∧
      u.fab.lanes = s.fab.lanes ∧ u.fab.gapLast = c % 65536 + (fctx c s).next * 65536 ∧
      (rd pgFab 0x120 u).toNat = satAdd (rd pgFab 0x120 s).toNat 1 (2 ^ 32 - 1) ∧ KeepsBut [.fab, .lic, .regs] s u ∧ RegsBut [(pgFab, 0x120)] s u)) ∧
  (∀ t c s, held s = false → s.jtag.outOfService = false → (∀ t0, (fctx c s).timer = some t0 → (advance t s).tim.up < t0 + 20000 * 2 ^ 32) →
    (∀ e ∈ s.fab.lanes, e.2.stuck = []) → Runs (.gapRule t c) s (fun u => KeepsBut [] s u)) ∧
  (∀ t c x p r a s, held s = false → s.jtag.outOfService = false → find? s.fab.ctx c = some x → pathsTo (c / 64) s = p :: r → s.fab.addr = some a →
    fabData s = true → ackDue x (advance t s) = true →
    Runs (.ackSend t c) s (fun u => (fctx c u).acked = x.next ∧ (fctx c u).next = x.next ∧ (fctx c u).ackAt = (advance t s).tim.up ∧
      (∀ d, (fctx d u).next = (fctx d s).next ∧ (d / 64 ≠ c / 64 → fctx d u = fctx d s)) ∧ KeepsBut [.fab] s u)) ∧
  (∀ t c s, held s = false → s.jtag.outOfService = false →
    (ackDue (fctx c s) (advance t s) = false ∨ fabData s = false ∨ pathsTo (c / 64) s = []) →
    Runs (.ackSend t c) s (fun u => KeepsBut [] s u)) ∧
  (∀ t v t0 s, held s = false → find? s.fab.noPath v = some t0 → has s.fab.unreach v = false →
    t0 + rf pgFab 0x104 16 8 s * 1000000 * 2 ^ 32 ≤ (advance t s).tim.up →
    Runs (.unreachTimeout t v) s (fun u => v ∈ u.fab.unreach ∧ (∀ w, w ≠ v → (w ∈ u.fab.unreach ↔ w ∈ s.fab.unreach)) ∧
      (∀ d, d ∈ u.bas.unreach ↔ d ∈ portsOf v s ∨ d ∈ s.bas.unreach) ∧
      (∀ q, ¬(q < 524288 ∧ q / 8 ∈ portsOf v s) → queue q u = queue q s) ∧
      (∃ n, u.bas.flushes = s.bas.flushes ++ [⟨false, n⟩]) ∧ KeepsBut [.fab, .bas, .lic, .arc, .pcr, .regs] s u)) ∧
  (∀ t v s, held s = false → (has s.fab.unreach v = true ∨
      ∀ t0, find? s.fab.noPath v = some t0 → (advance t s).tim.up < t0 + rf pgFab 0x104 16 8 s * 1000000 * 2 ^ 32) →
    Runs (.unreachTimeout t v) s (fun u => KeepsBut [] s u))

/-! ## The HBM controllers -/

/-- Training, drift, refresh, scrub and diagnostic reads (R347-R349, R352, R356, R359). Training that passes, each window 24 taps or more, leaves the
controller READY with its memory at zero, and one that fails TRAIN_FAIL, which RETRAIN leaves for TRAINING; DRIFT_CHECK takes the windows found; a
refresh is postponed, at most 8 times, while its bank has requests, and closes the bank's row when it is made; the scrub reads its next unit
into the lowest free entry; a diagnostic read shows the granule. Outside the states that serve them these commands change nothing. -/
def Obligations.MemoryUpkeep : Prop :=
  (∀ t c fail rwin wwin lane repaired s, held s = false → c < memCount s → ((memCtl c s).st = 1 ∨ (memCtl c s).st = 2) →
    (let st (n : Nat) : MemCtl := { memCtl c s with rwin := rwin % 256, wwin := wwin % 256, lane := lane % 64, repaired := repaired % 256, st := n }
     (fail = none → 24 ≤ rwin % 256 → 24 ≤ wwin % 256 →
       Runs (.trainingDone t c fail rwin wwin lane repaired) s (fun u => memCtl c u = st 3 ∧ (∀ d, d ≠ c → memCtl d u = memCtl d s) ∧
         (∀ i, unitCtl (i / 32) s = c → cell i u = zeros 64) ∧ (∀ i, unitCtl (i / 32) s ≠ c → cell i u = cell i s) ∧
         u.bas.memReady = (s.bas.memReady || memAllReady u) ∧ u.mem.retired = s.mem.retired ∧ KeepsBut [.mem, .bas] s u)) ∧
     ((fail.isSome = true ∨ rwin % 256 < 24 ∨ wwin % 256 < 24) →
       Runs (.trainingDone t c fail rwin wwin lane repaired) s (fun u => memCtl c u = st 5 ∧ (∀ d, d ≠ c → memCtl d u = memCtl d s) ∧
         u.mem.cells = s.mem.cells ∧ u.mem.retired = s.mem.retired ∧ KeepsBut [.mem] s u)))) ∧
  (∀ t c fail rwin wwin lane repaired s, held s = false → (memCtl c s).st ≠ 1 → (memCtl c s).st ≠ 2 →
    Runs (.trainingDone t c fail rwin wwin lane repaired) s (fun u => KeepsBut [] s u)) ∧
  (∀ t o c s, c < 12 → Reaches o (memPage c) 0x100 s → (memCtl c s).st = 5 →
    Runs (.retrain t o c) s (fun u => memCtl c u = { memCtl c s with st := 1 } ∧ (∀ d, d ≠ c → memCtl d u = memCtl d s) ∧
      u.mem.cells = s.mem.cells ∧ KeepsBut [.mem, .resp] s u)) ∧
  (∀ t o c s, c < 12 → Reaches o (memPage c) 0x100 s → (memCtl c s).st ≠ 5 → Runs (.retrain t o c) s (fun u => KeepsBut [.resp] s u)) ∧
  (∀ t c moves rwin wwin lane s, held s = false → (memCtl c s).st = 3 →
    Runs (.driftCheck t c moves rwin wwin lane) s (fun u =>
      memCtl c u = { memCtl c s with rwin := rwin % 256, wwin := wwin % 256, lane := lane % 64 } ∧ (∀ d, d ≠ c → memCtl d u = memCtl d s) ∧
      u.mem.cells = s.mem.cells ∧ KeepsBut [.mem] s u)) ∧
  (∀ t c moves rwin wwin lane s, held s = false → (memCtl c s).st ≠ 3 →
    Runs (.driftCheck t c moves rwin wwin lane) s (fun u => KeepsBut [] s u)) ∧
  (∀ t c bank temp s, held s = false → ((memCtl c s).st = 3 ∨ (memCtl c s).st = 4) → bank < 384 →
    (let x := memCtl c s
     let busy := x.reads.any (fun e => !e.2.issued && luBank e.2.lu == bank) || x.writes.any (fun e => luBank e.2.lu == bank)
     Runs (.refresh t c bank temp) s (fun u => (memCtl c u).temp = temp % 256 ∧ ((memCtl c u).hot = true ↔ 85 ≤ temp % 256) ∧
       look 0 (memCtl c u).owed bank = (if busy ∧ look 0 x.owed bank < 8 then look 0 x.owed bank + 1 else 0) ∧
       find? (memCtl c u).rows bank = (if busy ∧ look 0 x.owed bank < 8 then find? x.rows bank else none) ∧
       (∀ b, b ≠ bank → look 0 (memCtl c u).owed b = look 0 x.owed b ∧ find? (memCtl c u).rows b = find? x.rows b) ∧
       (memCtl c u).reads = x.reads ∧ (memCtl c u).writes = x.writes ∧ (memCtl c u).st = x.st ∧ (∀ d, d ≠ c → memCtl d u = memCtl d s) ∧
       u.mem.cells = s.mem.cells ∧ KeepsBut [.mem] s u))) ∧
  (∀ t c bank temp s, held s = false → ((memCtl c s).st ≠ 3 ∧ (memCtl c s).st ≠ 4 ∨ 384 ≤ bank) →
    Runs (.refresh t c bank temp) s (fun u => KeepsBut [] s u)) ∧
  (∀ t c i s, held s = false → rb pgMem 0x108 0 s = true → (memCtl c s).st = 3 → memFrozen s = false → freeSlot (memCtl c s).reads 1024 0 = some i →
    Runs (.patrolScrub t c) s (fun u => (memCtl c u).scrub = ((memCtl c s).scrub + 1) % luCount ∧
      (∃ r, find? (memCtl c u).reads i = some r ∧ r.req = 6 ∧ r.lu = (memCtl c s).scrub ∧ r.first = 0 ∧ r.n = 32 ∧ r.issued = false ∧
        r.order = (memCtl c s).order) ∧
      (∀ j, j ≠ i → find? (memCtl c u).reads j = find? (memCtl c s).reads j) ∧ (memCtl c u).writes = (memCtl c s).writes ∧
      (∀ d, d ≠ c → memCtl d u = memCtl d s) ∧ u.mem.cells = s.mem.cells ∧ KeepsBut [.mem] s u)) ∧
  (∀ t c s, held s = false →
    (rb pgMem 0x108 0 s = false ∨ (memCtl c s).st ≠ 3 ∨ memFrozen s = true ∨ freeSlot (memCtl c s).reads 1024 0 = none) →
    Runs (.patrolScrub t c) s (fun u => KeepsBut [] s u)) ∧
  (∀ t o c raw s, c < 12 → Reaches o (memPage c) 0x134 s → memDiagOk c s = true → (memCtl c s).diagBusy = false →
    Runs (.diagRead t o c raw) s (fun u => memCtl c u = { memCtl c s with
        diagBusy := true
        diagDone := false
        diagRaw := raw
        diagReq := (rd (memPage c) 0x130 s).toNat } ∧
      (∀ d, d ≠ c → memCtl d u = memCtl d s) ∧ u.mem.cells = s.mem.cells ∧ KeepsBut [.mem, .resp] s u)) ∧
  (∀ t o c raw s, c < 12 → Reaches o (memPage c) 0x134 s → (memDiagOk c s = false ∨ (memCtl c s).diagBusy = true) →
    Runs (.diagRead t o c raw) s (fun u => KeepsBut [.resp] s u)) ∧
  (∀ t c ecc syn err s, held s = false → (memCtl c s).diagBusy = true →
    (let x := memCtl c s
     let b := cell (granAt c (x.diagReq % 2 ^ 24) (x.diagReq / 2 ^ 24 % 32) s) s
     Runs (.diagReadDone t c ecc syn err) s (fun u => (memCtl c u).diagBusy = false ∧ (memCtl c u).diagDone = true ∧
       (memCtl c u).diagEcc = min ecc 2 ∧ (memCtl c u).diagSyn = (if ecc = 0 then 0 else syn % 65536) ∧
       (memCtl c u).diagData = (if x.diagRaw = true ∨ 2 ≤ ecc then (List.range 64).map (fun i => b.getD i 0 ^^^ err.getD i 0) else b) ∧
       (∀ d, d ≠ c → memCtl d u = memCtl d s) ∧ u.mem.cells = s.mem.cells ∧ KeepsBut [.mem] s u))) ∧
  (∀ t c ecc syn err s, held s = false → (memCtl c s).diagBusy = false →
    Runs (.diagReadDone t c ecc syn err) s (fun u => KeepsBut [] s u))

/-- Requests and errors (R350, R353-R358). A read that its controller serves enters the lowest free entry with what queued writes cover; one that is not served
waits and changes nothing. A write replaces the granules that queued writes cover, and enters the lowest free entry when it has more. The
next request is one that has waited 400 ns, the oldest of these, or in drain mode the oldest write, or else a read, or else a write: a read
takes its granules from the HBM and a write puts its own there. A read that has been issued returns its data (R355-R358): a corrected burst is
counted and named, and the scrub writes its granule back; an uncorrectable one freezes the controller with its read, closes the basin's credit
and asks for a takeover; but with POISON, on an unpaired device, one in the packet buffer retires its unit, whose deep berth is never free
again, and the read returns, with the frame read there leaving its queue. -/
def Obligations.MemoryRequests : Prop :=
  (∀ t req addr n s, held s = false →
    (let c := unitCtl (addr / 2048) s
     let x := memCtl c s
     let lu := unitLocal (addr / 2048) s
     let first := addr / 64 % 32
     let got := (upto first n).filterMap (fun g => (coverOf x lu g).map (fun w => (g, w.data.getD (g - w.first) (zeros 64))))
     (∀ i, memReqOk req false addr n s = true → memServes c s = true → freeSlot x.reads 1024 0 = some i →
       Runs (.memReadRequest t req addr n) s (fun u =>
         find? (memCtl c u).reads i = some ⟨req, lu, first, n, (advance t s).tim.up, x.order, false, got, got.map (·.1), []⟩ ∧
         (∀ j, j ≠ i → find? (memCtl c u).reads j = find? x.reads j) ∧ (memCtl c u).writes = x.writes ∧ (memCtl c u).order = x.order + 1 ∧
         (∀ d, d ≠ c → memCtl d u = memCtl d s) ∧ u.mem.cells = s.mem.cells ∧ KeepsBut [.mem] s u)) ∧
     ((memReqOk req false addr n s = false ∨ memServes c s = false ∨ freeSlot x.reads 1024 0 = none) →
       Runs (.memReadRequest t req addr n) s (fun u => KeepsBut [] s u)))) ∧
  (∀ t req addr b s, held s = false →
    (let c := unitCtl (addr / 2048) s
     let x := memCtl c s
     let lu := unitLocal (addr / 2048) s
     let first := addr / 64 % 32
     let gs := granules b
     let covered := (upto first gs.length).all (fun g => (coverOf x lu g).isSome)
     let merged (w : MemWrite) : MemWrite := (List.range gs.length).foldl (fun a k => mergeWrite lu (first + k) (gs.getD k []) a) w
     let rest (u : State) : Prop := (memCtl c u).reads.map (·.1) = x.reads.map (·.1) ∧ (∀ d, d ≠ c → memCtl d u = memCtl d s) ∧
       u.mem.cells = s.mem.cells ∧ KeepsBut [.mem] s u
     (∀ i, memReqOk req true addr gs.length s = true → memServes c s = true → covered = false → freeSlot x.writes 512 0 = some i →
       Runs (.memWriteRequest t req addr b) s (fun u => find? (memCtl c u).writes i = some ⟨req, lu, first, gs, (advance t s).tim.up, x.order⟩ ∧
         (∀ j, j ≠ i → find? (memCtl c u).writes j = (find? x.writes j).map merged) ∧ (memCtl c u).order = x.order + 1 ∧ rest u)) ∧
     (memReqOk req true addr gs.length s = true → memServes c s = true → covered = true →
       Runs (.memWriteRequest t req addr b) s (fun u => (memCtl c u).writes = x.writes.map (fun e => (e.1, merged e.2)) ∧
         (memCtl c u).order = x.order ∧ rest u)) ∧
     ((memReqOk req true addr gs.length s = false ∨ memServes c s = false ∨ (covered = false ∧ freeSlot x.writes 512 0 = none)) →
       Runs (.memWriteRequest t req addr b) s (fun u => KeepsBut [] s u)))) ∧
  (∀ t c s, held s = false → (memCtl c s).st = 3 →
    (let x := memCtl c s
     let old (at_ : Nat) : Bool := decide (at_ + 400 * 2 ^ 32 < (advance t s).tim.up)
     let ro := leastBy x.reads (fun r => !r.issued && old r.at_) (·.order)
     let wo := leastBy x.writes (fun w => old w.at_ && !writeHeld x w) (·.order)
     let wn := leastBy x.writes (fun w => !writeHeld x w) (·.order)
     let rn := leastBy x.reads (fun r => !r.issued) (fun r =>
       ((if find? x.rows (luBank r.lu) = some (luRow r.lu) then 0 else 1) * 3 + readClass r.req) * 2 ^ 64 + r.order)
     (∀ i r, find? x.reads i = some r →
       ((ro = some i ∧ (wo.bind (find? x.writes)).all (fun w => decide (r.order < w.order)) = true) ∨
         (ro = none ∧ wo = none ∧ rn = some i ∧ (x.drain = false ∨ wn = none))) →
       Runs (.commandIssue t c) s (fun u => (∃ e, find? (memCtl c u).reads i = some e ∧ e = { r with issued := true, data := e.data } ∧
           ∀ g, r.first ≤ g → g < r.first + r.n → has r.fwd g = false → find? e.data g = some (cell (granAt c r.lu g s) s)) ∧
         (∀ j, j ≠ i → find? (memCtl c u).reads j = find? x.reads j) ∧ (memCtl c u).writes = x.writes ∧
         find? (memCtl c u).rows (luBank r.lu) = some (luRow r.lu) ∧ (∀ d, d ≠ c → memCtl d u = memCtl d s) ∧ u.mem.cells = s.mem.cells ∧
         KeepsBut [.mem] s u)) ∧
     (∀ j w, find? x.writes j = some w →
       ((wo = some j ∧ (ro.bind (find? x.reads)).all (fun r => decide (w.order ≤ r.order)) = true) ∨
         (ro = none ∧ wo = none ∧ wn = some j ∧ (x.drain = true ∨ rn = none))) →
       Runs (.commandIssue t c) s (fun u => find? (memCtl c u).writes j = none ∧
         (∀ k d, w.data[k]? = some d → cell (granAt c w.lu (w.first + k) s) u = d) ∧
         (∀ n, (∀ k, k < w.data.length → n ≠ granAt c w.lu (w.first + k) s) → cell n u = cell n s) ∧
         (∀ k, k ≠ j → find? (memCtl c u).writes k = find? x.writes k) ∧ (memCtl c u).reads = x.reads ∧
         (∀ d, d ≠ c → memCtl d u = memCtl d s) ∧ KeepsBut [.mem] s u)) ∧
     (rn = none → wn = none → ro = none → wo = none → Runs (.commandIssue t c) s (fun u => KeepsBut [] s u)))) ∧
  (∀ t c s, held s = false → (memCtl c s).st ≠ 3 → Runs (.commandIssue t c) s (fun u => KeepsBut [] s u)) ∧
  (∀ t c req i r s, held s = false → (memCtl c s).st = 3 → leastBy (memCtl c s).reads (fun r => r.req == req) (·.order) = some i →
    find? (memCtl c s).reads i = some r → r.issued = true →
    Runs (.readReturn t c req [] none) s (fun u => find? (memCtl c u).reads i = none ∧
      (∀ j, j ≠ i → find? (memCtl c u).reads j = find? (memCtl c s).reads j) ∧ (memCtl c u).writes = (memCtl c s).writes ∧
      u.mem.out = (req, r.lu, r.first, r.data.map (·.2)) ∧ (∀ d, d ≠ c → memCtl d u = memCtl d s) ∧ u.mem.cells = s.mem.cells ∧
      KeepsBut [.mem] s u)) ∧
  (∀ t c req ce ue s, held s = false → ((memCtl c s).st ≠ 3 ∨
      ((leastBy (memCtl c s).reads (fun r => r.req == req) (·.order)).bind (find? (memCtl c s).reads)).all (fun r => !r.issued) = true) →
    Runs (.readReturn t c req ce ue) s (fun u => KeepsBut [] s u)) ∧
  (∀ t c req i r s, held s = false → c < 12 → (memCtl c s).st = 3 → leastBy (memCtl c s).reads (fun r => r.req == req) (·.order) = some i →
    find? (memCtl c s).reads i = some r → r.issued = true →
    (let mine (g : Nat) : Prop := r.first ≤ g ∧ g < r.first + r.n ∧ has r.fwd g = false
     let unit := unitOf c r.lu s
     let others (u : State) : Prop := ∀ j, j ≠ i → find? (memCtl c u).reads j = find? (memCtl c s).reads j
     let back (u : State) : Prop := find? (memCtl c u).reads i = none ∧ u.mem.out = (req, r.lu, r.first, r.data.map (·.2)) ∧ (∀ d, d ≠ c → memCtl d u = memCtl d s) ∧ u.mem.cells = s.mem.cells
     let ceNoted (g pc : Nat) (u : State) : Prop := (memCtl c u).ceLast = burstWord r.lu g pc ∧
       (rd (memPage c) 0x10C u).toNat = satAdd (rd (memPage c) 0x10C s).toNat 1 (2 ^ 32 - 1) ∧ KeepsBut [.mem, .regs] s u ∧
       RegsBut [(memPage c, 0x10C)] s u
     let poison := rb pgMem 0x100 0 s && !s.lock.paired && luRegion c r.lu s == 0 && (decide (s.mem.retired.length < 1024) || has s.mem.retired unit)
     (∀ g pc, mine g → req ≠ 6 →
       Runs (.readReturn t c req [(g, pc)] none) s (fun u => back u ∧ others u ∧ ceNoted g pc u ∧
         (memCtl c u).writes = (memCtl c s).writes)) ∧
     (∀ g pc k, mine g → req = 6 → (memCtl c s).writes.length ≤ 480 → has r.newer g = false → coverOf (memCtl c s) r.lu g = none →
       freeSlot (memCtl c s).writes 512 0 = some k →
       Runs (.readReturn t c req [(g, pc)] none) s (fun u => back u ∧ ceNoted g pc u ∧
         (∀ j, j ≠ i → (find? (memCtl c u).reads j).isSome = (find? (memCtl c s).reads j).isSome) ∧
         find? (memCtl c u).writes k = some ⟨6, r.lu, g, [look (zeros 64) r.data g], (advance t s).tim.up, (memCtl c s).order⟩ ∧
         (∀ j, j ≠ k → find? (memCtl c u).writes j = find? (memCtl c s).writes j))) ∧
     (∀ g pc syn, mine g → poison = false →
       Runs (.readReturn t c req [] (some (g, pc, syn))) s (fun u => memCtl c u = { memCtl c s with
           ueLast := burstWord r.lu g pc
           ueSyn := syn % 65536 + r.req % 8 * 65536 + b2n (r.req == 6) * 2 ^ 19
           st := 4
           frzAt := nowStamp (advance t s)
           diagBusy := false } ∧
         (∀ d, d ≠ c → memCtl d u = memCtl d s) ∧ u.mem.cells = s.mem.cells ∧ u.mem.out = s.mem.out ∧ u.bas = { s.bas with credit := 0 } ∧
         0x01 ∈ u.pair.trig ∧ (∀ k, k ≠ 0x01 → (k ∈ u.pair.trig ↔ k ∈ s.pair.trig)) ∧ KeepsBut [.mem, .bas, .pair] s u)) ∧
     (∀ g pc syn, mine g → poison = true → r.req = req → (req = 1 → readsDeep unit s = none) →
       Runs (.readReturn t c req [] (some (g, pc, syn))) s (fun u => back u ∧ others u ∧ (memCtl c u).st = 3 ∧ has u.mem.retired unit = true ∧
         (has s.mem.retired unit = false → unit ∈ u.bas.deepUsed) ∧ u.bas.q = s.bas.q ∧ KeepsBut [.mem, .bas] s u)) ∧
     (∀ g pc syn q x, mine g → poison = true → r.req = 1 → req = 1 → readsDeep unit s = some (q, x) →
       Runs (.readReturn t c req [] (some (g, pc, syn))) s (fun u => back u ∧ others u ∧ (memCtl c u).st = 3 ∧ has u.mem.retired unit = true ∧
         queue q u = (queue q s).filter (fun y => y.id != x.id) ∧ (∀ p, p ≠ q → queue p u = queue p s) ∧
         KeepsBut [.mem, .bas, .lic, .arc, .pcr, .regs] s u))))

/-! ## The archive -/

/-- Staging (R367-R372, R376, R377, R381, R382). A record whose frame's predecessors at its point are recorded enters the filling extent and the HBM, with
a mark where it is the first of its epoch and point; without room that extent closes, and the next free slot opens with the next number; without a slot, or with the
archive off or the HBM not ready, it is lost and counted; an earlier one makes it wait. An extent closes when its time has passed, or on command;
DROP_STAGED frees the closed ones; a closed extent goes to the next target, and its segments, at most 64 at once, and its COMMIT to that
target's queue. -/
def Obligations.ArchiveStaging : Prop :=
  (∀ t id x s, held s = false → find? s.bas.desc id = some x → x.req = .capture → (frm id s).bytes.length ≤ 256 * x.berths.length →
    recAhead (recPoint id s) (frm id s).stamp (advance t s) = false →
    (let b := (frm id s).bytes
     let p := recPoint id s
     let n := look 0 s.arc.epochs id
     let newMark (e : Extent) : Bool := !e.marks.any (fun m => m.epoch == n && m.point == p)
     let gone (u : State) : Prop := find? u.bas.desc id = none ∧ find? u.lic.frames id = none ∧ u.bas.used = s.bas.used ∧ u.bas.q = s.bas.q ∧
       u.bas.rel = s.bas.rel ++ x.berths.map (fun i => (i, x.pool))
     let into (i : Nat) (e : Extent) (u : State) : Prop := (extent i u).st = e.st ∧ (extent i u).ext = e.ext ∧ (extent i u).used = e.used + b.length ∧
       (extent i u).records = e.records + 1 ∧ (extent i u).first = (if e.records = 0 then n else min e.first n) ∧
       (extent i u).last = (if e.records = 0 then n else max e.last n) ∧
       (extent i u).marks = (if newMark e then e.marks ++ [⟨n, p, e.used / 16⟩] else e.marks)
     let lost (u : State) : Prop := gone u ∧ u.arc.lostAll = s.arc.lostAll + 1 ∧
       (rd pgArc 0x11C u).toNat = satAdd (rd pgArc 0x11C s).toNat 1 (2 ^ 32 - 1) ∧ RegsBut [(pgArc, 0x11C)] s u
     (∀ i, memAllReady s = true → arcOn s = true → filling s = some i → extRoom (extent i s) b.length (newMark (extent i s)) = true →
       Runs (.recordStage t id) s (fun u => gone u ∧ into i (extent i s) u ∧ (∀ j, j ≠ i → extent j u = extent j s) ∧
         u.mem = (hbmWrite (slotBase i s + (extent i s).used) b s).mem ∧ KeepsBut [.arc, .bas, .lic, .mem] s u)) ∧
     (∀ i, memAllReady s = true → arcOn s = true → filling s = none → (List.range 256).find? (fun k => (extent k s).st == 0) = some i →
       Runs (.recordStage t id) s (fun u => gone u ∧ into i { st := 1, ext := rf pgArc 0x10C 0 29 s } u ∧ (∀ j, j ≠ i → extent j u = extent j s) ∧
         rf pgArc 0x10C 0 29 u = (rf pgArc 0x10C 0 29 s + 1) % 2 ^ 29 ∧ u.mem = (hbmWrite (slotBase i s + 64) b s).mem ∧
         KeepsBut [.arc, .bas, .lic, .mem, .regs] s u ∧ RegsBut [(pgArc, 0x10C)] s u)) ∧
     (∀ k i, memAllReady s = true → arcOn s = true → filling s = some k → extRoom (extent k s) b.length (newMark (extent k s)) = false →
       (extent k s).st = 1 → filling (closeExtent s) = none → (List.range 256).find? (fun j => (extent j s).st == 0) = some i →
       Runs (.recordStage t id) s (fun u => gone u ∧ extent k u = { extent k s with st := 2 } ∧ into i { st := 1, ext := rf pgArc 0x10C 0 29 s } u ∧
         (∀ j, j ≠ i → j ≠ k → extent j u = extent j s) ∧ rf pgArc 0x10C 0 29 u = (rf pgArc 0x10C 0 29 s + 1) % 2 ^ 29 ∧
         KeepsBut [.arc, .bas, .lic, .mem, .regs] s u ∧ RegsBut [(pgArc, 0x10C)] s u)) ∧
     ((memAllReady s = false ∨ arcOn s = false) →
       Runs (.recordStage t id) s (fun u => lost u ∧ u.arc.slots = s.arc.slots ∧ KeepsBut [.arc, .bas, .lic, .regs] s u)) ∧
     (memAllReady s = true → arcOn s = true → filling s = none → (List.range 256).find? (fun k => (extent k s).st == 0) = none →
       Runs (.recordStage t id) s (fun u => lost u ∧ u.arc.slots = s.arc.slots ∧ KeepsBut [.arc, .bas, .lic, .regs] s u)))) ∧
  (∀ t id s, held s = false → (∀ x, find? s.bas.desc id = some x → x.req ≠ .capture ∨ 256 * x.berths.length < (frm id s).bytes.length ∨
      recAhead (recPoint id s) (frm id s).stamp (advance t s) = true) →
    Runs (.recordStage t id) s (fun u => KeepsBut [] s u)) ∧
  (∀ t i s, held s = false → filling s = some i → closeDue (advance t s) = true →
    Runs (.closeMsTimeout t) s (fun u => extent i u = { extent i s with st := 2 } ∧ find? u.arc.marks (extent i s).ext = some (extent i s).marks ∧
      (∀ j, j ≠ i → extent j u = extent j s) ∧ KeepsBut [.arc, .mem] s u)) ∧
  (∀ t s, held s = false → closeDue (advance t s) = false → Runs (.closeMsTimeout t) s (fun u => KeepsBut [] s u)) ∧
  (∀ t o i s, Reaches o pgArc 0x124 s → filling s = some i →
    Runs (.closeNow t o) s (fun u => extent i u = { extent i s with st := 2 } ∧ find? u.arc.marks (extent i s).ext = some (extent i s).marks ∧
      (∀ j, j ≠ i → extent j u = extent j s) ∧ KeepsBut [.arc, .mem, .resp] s u)) ∧
  (∀ t o s, Reaches o pgArc 0x124 s → filling s = none → Runs (.closeNow t o) s (fun u => KeepsBut [.resp] s u)) ∧
  (∀ t o s, Reaches o pgArc 0x124 s → arcOn s = false →
    Runs (.dropStaged t o) s (fun u => (∀ i, (extent i s).st = 2 →
        extent i u = { extent i s with st := if s.arc.rpl.any (fun r => r.slot == i) then 5 else 0 }) ∧
      (∀ i, (extent i s).st ≠ 2 → extent i u = extent i s) ∧ KeepsBut [.arc, .mem, .resp] s u)) ∧
  (∀ t o s, Reaches o pgArc 0x124 s → arcOn s = true → Runs (.dropStaged t o) s (fun u => KeepsBut [.resp] s u)) ∧
  (∀ t i g s, held s = false → arcOn s = true → leastBy s.arc.slots (fun e => e.st == 2) (·.order) = some i → nextTarget s = some g →
    Runs (.extentAssign t) s (fun u => extent i u = { extent i s with
        st := 3, attempt := (extent i s).attempt + 1, target := g, todo := segList (extent i s) s, resend := false, tries := 0, sends := 1 } ∧
      (∀ j, j ≠ i → extent j u = extent j s) ∧ u.arc.lastTarget = g ∧ u.arc.targets = s.arc.targets ∧ KeepsBut [.arc, .mem] s u)) ∧
  (∀ t s, held s = false → (arcOn s = false ∨ leastBy s.arc.slots (fun e => e.st == 2) (·.order) = none ∨ nextTarget s = none) →
    Runs (.extentAssign t) s (fun u => KeepsBut [] s u)) ∧
  (∀ t i q s, held s = false → (extent i s).st = 3 → arcOn s = true →
    queueOf (.dport (tf tbTgt (extent i s).target 0 8 16 s)) (tf tbTgt (extent i s).target 0 24 3 s) false s = some q →
    (let e := extent i s
     let g := e.target
     let rest (u : State) : Prop := (∀ p, p ≠ q → queue p u = queue p s) ∧ (∀ j, j ≠ i → extent j u = extent j s) ∧ u.bas.used = s.bas.used ∧
       KeepsBut [.arc, .bas, .lic] s u
     let sentSeg (k : Nat) (u : State) : Prop := let d := segData i k s
       (frm s.lic.nextFrame u).bytes = atpFrame g (atpHeader 0x01 g e.ext e.attempt k d.length (crc32c d) s ++ d) s
     (∀ k r, e.todo = k :: r → r ≠ [] → segsQueued g (segsPrune s) < 64 →
       Runs (.segmentQueue t i) s (fun u => extent i u = { e with todo := r } ∧ sentSeg k u ∧
         (∃ f, queue q u = queue q s ++ [f] ∧ f.id = s.lic.nextFrame) ∧ rest u)) ∧
     (∀ k, e.todo = [k] → segsQueued g (segsPrune s) < 64 →
       Runs (.segmentQueue t i) s (fun u => extent i u = { e with
           st := 4, todo := [], tries := e.tries + 1, commitAt := (advance t s).tim.up } ∧ sentSeg k u ∧
         (∃ f c, queue q u = queue q s ++ [f, c] ∧ f.id = s.lic.nextFrame) ∧ rest u)) ∧
     (e.todo = [] → Runs (.segmentQueue t i) s (fun u => extent i u = { e with
           st := 4, todo := [], tries := e.tries + 1, commitAt := (advance t s).tim.up } ∧
         (∃ f, queue q u = queue q s ++ [f]) ∧ rest u)))) ∧
  (∀ t i s, held s = false → ((extent i s).st ≠ 3 ∨ arcOn s = false ∨
      ((extent i s).todo ≠ [] ∧ 64 ≤ segsQueued (extent i s).target (segsPrune s)) ∨
      queueOf (.dport (tf tbTgt (extent i s).target 0 8 16 s)) (tf tbTgt (extent i s).target 0 24 3 s) false s = none) →
    Runs (.segmentQueue t i) s (fun u => u.arc = (segsPrune s).arc ∧ KeepsBut [.arc] s u))

/-- Replies and probes (R372, R374, R379-R381). A reply for the extent that it names is taken from the punt queue: an acknowledged extent is freed, missing
segments go again, a FULL target is FULL, a bad CRC repeats the whole extent until its target fails, and BUSY gives it back; a reply for no extent is
discarded, and one of another type stays for its command. A COMMIT without reply in its time is repeated, until its target fails. Every enabled
target is probed when the time has come, a silent one fails, and its answer makes it UP or FULL. -/
def Obligations.ArchiveReplies : Prop :=
  (∀ t m a i s, held s = false → atpTake (advance t s) = some (m, a) → atpMatch m a = some i →
    (let e := extent i a
     let taken (u : State) : Prop := queue (ackQueue s) u = (queue (ackQueue s) s).drop 1 ∧ (∀ p, p ≠ ackQueue s → queue p u = queue p s) ∧
       KeepsBut [.arc, .bas, .lic, .mem, .regs] s u ∧ RegsBut [(pgBas, 0x120)] s u
     let others (u : State) : Prop := ∀ j, j ≠ i → extent j u = extent j a
     (atpType m a = some 0x81 → e.st = 4 →
       Runs (.atpAck t) s (fun u => extent i u = { e with st := if a.arc.rpl.any (fun r => r.slot == i) then 5 else 0 } ∧ others u ∧
         target e.target u = { target e.target a with archived := ((target e.target a).archived + 1) % 2 ^ 32 } ∧
         (∀ g, g ≠ e.target → target g u = target g a) ∧ taken u)) ∧
     (atpType m a = some 0x81 → e.st ≠ 4 → Runs (.atpAck t) s (fun u => KeepsBut [] a u ∧ taken u)) ∧
     (atpType m a = some 0x82 → e.st = 4 →
       Runs (.atpMissing t) s (fun u => extent i u = { e with
           st := 3
           todo := (segList e a).filter (fun k => nbit (byteAt m (32 + k / 8)) (7 - k % 8))
           resend := true
           tries := 0 } ∧ others u ∧ u.arc.targets = a.arc.targets ∧ taken u)) ∧
     (atpType m a = some 0x82 → e.st ≠ 4 → Runs (.atpMissing t) s (fun u => KeepsBut [] a u ∧ taken u)) ∧
     (atpType m a = some 0x83 → beAt m 22 2 = 1 →
       Runs (.atpRefused t) s (fun u => (target e.target u).st = 3 ∧ (∀ g, g ≠ e.target → target g u = target g a) ∧
         ((target e.target a).st = 2 → ∀ j ∈ inFlight e.target a, (extent j a).st = 3 ∨ (extent j a).st = 4 → (extent j u).st = 2) ∧
         (∀ j, j ∉ inFlight e.target a → extent j u = extent j a) ∧ taken u)) ∧
     (atpType m a = some 0x83 → beAt m 22 2 = 2 → e.st = 4 → e.sends < retryMax s →
       Runs (.atpRefused t) s (fun u => extent i u = { e with
           st := 3, attempt := e.attempt + 1, todo := segList e a, resend := true, tries := 0, sends := e.sends + 1 } ∧ others u ∧
         u.arc.targets = a.arc.targets ∧ taken u)) ∧
     (atpType m a = some 0x83 → beAt m 22 2 = 2 → e.st = 4 → retryMax s ≤ e.sends →
       Runs (.atpRefused t) s (fun u => (target e.target u).st = 4 ∧ (∀ g, g ≠ e.target → target g u = target g a) ∧
         (∀ j, j ∉ inFlight e.target a → extent j u = extent j a) ∧ taken u)) ∧
     (atpType m a = some 0x83 → beAt m 22 2 = 3 →
       Runs (.atpRefused t) s (fun u => extent i u = { e with st := 2, todo := [] } ∧ others u ∧ u.arc.targets = a.arc.targets ∧ taken u)) ∧
     (atpType m a = some 0x83 → (beAt m 22 2 = 2 ∧ e.st ≠ 4 ∨ beAt m 22 2 ∉ [1, 2, 3]) →
       Runs (.atpRefused t) s (fun u => KeepsBut [] a u ∧ taken u)))) ∧
  (∀ ty cmd t m a s, (ty, cmd) ∈ [(0x81, Instr.atpAck t), (0x82, Instr.atpMissing t), (0x83, Instr.atpRefused t)] → held s = false →
    atpTake (advance t s) = some (m, a) →
    ((atpType m a = none ∨ (atpType m a = some ty ∧ atpMatch m a = none) ∨
        ∃ k, atpType m a = some k ∧ k ∉ [0x81, 0x82, 0x83, 0x84]) →
      Runs cmd s (fun u => KeepsBut [] a u ∧ queue (ackQueue s) u = (queue (ackQueue s) s).drop 1 ∧ KeepsBut [.arc, .bas, .lic, .regs] s u)) ∧
    (∀ k, atpType m a = some k → k ≠ ty → k ∈ [0x81, 0x82, 0x83, 0x84] → Runs cmd s (fun u => KeepsBut [] s u))) ∧
  (∀ t i s, held s = false → (extent i s).st = 4 →
    (let e := extent i s
     let due := e.commitAt + rf pgArc 0x104 0 8 s * 1000000 * 2 ^ 32 ≤ (advance t s).tim.up
     (∀ q, due → e.tries < retryMax s → queueOf (.dport (tf tbTgt e.target 0 8 16 s)) (tf tbTgt e.target 0 24 3 s) false s = some q →
       Runs (.ackTimeout t i) s (fun u => extent i u = { e with todo := [], tries := e.tries + 1, commitAt := (advance t s).tim.up } ∧
         (∀ j, j ≠ i → extent j u = extent j s) ∧ (∃ f, queue q u = queue q s ++ [f]) ∧ (∀ p, p ≠ q → queue p u = queue p s) ∧
         u.arc.targets = s.arc.targets ∧ KeepsBut [.arc, .bas, .lic] s u)) ∧
     (due → retryMax s ≤ e.tries → Runs (.ackTimeout t i) s (fun u => (target e.target u).st = 4 ∧
       (∀ g, g ≠ e.target → target g u = target g s) ∧ (∀ j, j ∉ inFlight e.target s → extent j u = extent j s) ∧ KeepsBut [.arc] s u)) ∧
     (¬due → Runs (.ackTimeout t i) s (fun u => KeepsBut [] s u)))) ∧
  (∀ t i s, held s = false → (extent i s).st ≠ 4 → Runs (.ackTimeout t i) s (fun u => KeepsBut [] s u)) ∧
  (∀ t s, held s = false → arcOn s = true → probeDue (advance t s) = true →
    Runs (.atpProbe t) s (fun u => u.arc.probeAt = some (advance t s).tim.up ∧ KeepsBut [.arc, .bas, .lic] s u ∧ ∀ g, g < 64 →
      (tb tbTgt g 0 0 s = false → target g u = target g s) ∧
      (tb tbTgt g 0 0 s = true →
        (queueOf (.dport (tf tbTgt g 0 8 16 s)) (tf tbTgt g 0 24 3 s) false s).isSome = true →
        (target g u).waiting = true ∧ (target g u).missed = (if (target g s).waiting then (target g s).missed + 1 else 0) ∧
        (target g u).st = (if (target g s).st = 2 ∧ (target g s).waiting ∧ rf pgArc 0x104 12 4 s ≤ (target g s).missed + 1 then 4
          else (target g s).st)))) ∧
  (∀ t s, held s = false → (arcOn s = false ∨ probeDue (advance t s) = false) → Runs (.atpProbe t) s (fun u => KeepsBut [] s u)) ∧
  (∀ t m a s, held s = false → atpTake (advance t s) = some (m, a) → atpType m a = some 0x84 →
    (let g := byteAt m 28
     let ok := decide (g < 64) && tb tbTgt g 0 0 a && decide (40 ≤ m.length)
     let taken (u : State) : Prop := queue (ackQueue s) u = (queue (ackQueue s) s).drop 1 ∧ (∀ p, p ≠ ackQueue s → queue p u = queue p s) ∧
       KeepsBut [.arc, .bas, .lic, .regs] s u ∧ RegsBut [(pgBas, 0x120)] s u
     (ok = true → Runs (.probeAck t) s (fun u => (target g u).st = (if beAt m 32 8 = 0 then 3 else 2) ∧ (target g u).waiting = false ∧
       (target g u).missed = 0 ∧ (∀ h, h ≠ g → target h u = target h a) ∧ (∀ j, j ∉ inFlight g a → extent j u = extent j a) ∧ taken u)) ∧
     (ok = false → Runs (.probeAck t) s (fun u => KeepsBut [] a u ∧ taken u))))

/-- Retrieval and replay (R383-R385). A lookup starts, goes on where it stopped, and ends with at most 64 results. A replay of a slot that is not filling
starts when none runs; each frame it sends goes through class B7 of its channel against that class's credit, no faster than its rate, and waits
otherwise; it ends with the last record, or on command, and frees a slot that was archived meanwhile. -/
def Obligations.ArchiveReading : Prop :=
  (∀ t o s, Reaches o pgArc 0x14C s →
    Runs (.retrievalGo t o) s (fun u => u.arc = { s.arc with retBusy := true, retDone := false, retMore := false, retFrom := 0, results := [] } ∧
      KeepsBut [.arc, .resp] s u)) ∧
  (∀ t o s, Reaches o pgArc 0x14C s → s.arc.retMore = true →
    Runs (.retrievalContinue t o) s (fun u => u.arc = { s.arc with retBusy := true, retDone := false, retMore := false, results := [] } ∧
      KeepsBut [.arc, .resp] s u)) ∧
  (∀ t o s, Reaches o pgArc 0x14C s → s.arc.retMore = false → Runs (.retrievalContinue t o) s (fun u => KeepsBut [.resp] s u)) ∧
  (∀ t s, held s = false → s.arc.retBusy = true →
    (let hits := ((idxEntries s).filter (fun e => decide (s.arc.retFrom ≤ e.1))).filterMap (fun e => retOne e.1 e.2 (advance t s))
     Runs (.retrievalDone t) s (fun u => u.arc = { s.arc with
         retBusy := false
         retDone := true
         retMore := decide (64 < hits.length)
         results := u.arc.results
         retFrom := match u.arc.results.getLast? with
           | some r => r.ext + 1
           | none => s.arc.retFrom } ∧
       u.arc.results.length = min 64 hits.length ∧ (∀ k r, k < 64 → hits[k]? = some (r, true) → u.arc.results[k]? = some r) ∧
       (∀ k r, k < 64 → hits[k]? = some (r, false) → ∃ v, u.arc.results[k]? = some { r with off := v }) ∧ KeepsBut [.arc, .free] s u))) ∧
  (∀ t s, held s = false → s.arc.retBusy = false → Runs (.retrievalDone t) s (fun u => KeepsBut [] s u)) ∧
  (∀ t o s, Reaches o pgArc 0x168 s → rplRefused s = false →
    Runs (.replayGo t o) s (fun u =>
      u.arc = { s.arc with rpl := some ⟨rf pgArc 0x160 0 8 s, rf pgArc 0x160 8 9 s, rf pgArc 0x160 17 8 s, 64, 0⟩, rplSent := 0 } ∧
      KeepsBut [.arc, .resp] s u)) ∧
  (∀ t o s, Reaches o pgArc 0x168 s → rplRefused s = true → Runs (.replayGo t o) s (fun u => KeepsBut [.resp] s u)) ∧
  (∀ t o r s, Reaches o pgArc 0x168 s → s.arc.rpl = some r →
    Runs (.replayStop t o) s (fun u => u.arc.rpl = none ∧ u.arc.rplSent = s.arc.rplSent ∧
      (extent r.slot u).st = (if (extent r.slot s).st = 5 then 0 else (extent r.slot s).st) ∧ (∀ j, j ≠ r.slot → extent j u = extent j s) ∧
      KeepsBut [.arc, .resp] s u)) ∧
  (∀ t o s, Reaches o pgArc 0x168 s → s.arc.rpl = none → Runs (.replayStop t o) s (fun u => KeepsBut [.resp] s u)) ∧
  (∀ t r off b s, held s = false → s.jtag.outOfService = false → s.arc.rpl = some r → rplNext r s 1048576 r.off = some (off, b) →
    (let rate := rf pgArc 0x164 0 19 s
     let ready := rate ≠ 0 ∧ s.pair.egressHold = false ∧ r.nextAt ≤ nowStamp (advance t s) ∧ b.length ≤ credit r.chan 7 s
     (ready → Runs (.replayFrame t) s (fun u =>
       look [] (port r.chan u).stage 7 = look [] (port r.chan s).stage 7 ++ [s.lic.nextFrame] ∧ (frm s.lic.nextFrame u).bytes = b ∧
       (∀ k, look 0 u.pcr.creditUsed k = look 0 s.pcr.creditUsed k + (if k = 8 * r.chan + 7 then b.length else 0)) ∧
       (∀ d, d ≠ r.chan → port d u = port d s) ∧ u.arc = { s.arc with
         rpl := some { r with
           off := off + 32 + pad16 b.length
           nextAt := max (nowStamp (advance t s)) r.nextAt + b.length * capScale / rate }
         rplSent := satAdd s.arc.rplSent 1 0xFFFFFF } ∧
       KeepsBut [.arc, .lic, .pcr] s u)) ∧
     (¬ready → Runs (.replayFrame t) s (fun u => KeepsBut [] s u)))) ∧
  (∀ t r s, held s = false → s.jtag.outOfService = false → s.arc.rpl = some r → rplNext r s 1048576 r.off = none →
    Runs (.replayFrame t) s (fun u => u.arc.rpl = none ∧
      (extent r.slot u).st = (if (extent r.slot s).st = 5 then 0 else (extent r.slot s).st) ∧ (∀ j, j ≠ r.slot → extent j u = extent j s) ∧
      KeepsBut [.arc] s u)) ∧
  (∀ t s, held s = false → s.jtag.outOfService = false → s.arc.rpl = none → Runs (.replayFrame t) s (fun u => KeepsBut [] s u))

/-! ## Paired operation -/

/-- Roles (R392, R394, R400, R403-R406, R410). A write of PAIR_POLICY takes a member from SOLO to LINK, or to SOLO; a fault is declared, by its causes or by
force, with its boundary named and bulk held; the standby takes over at that boundary; a handover is named and swaps the roles at
its epoch; the loss of the baton holds bulk at the standby, and silence leads to a takeover unless it is vetoed; a device alone becomes ACTIVE when
LINK_WAIT has passed; a device in FAULT whose causes have gone resynchronises. A command whose condition does not hold leaves the role, and a
marshal's is refused. -/
def Obligations.PairRoleCommands : Prop :=
  (∀ t o v s, Reaches o pgPair 0x100 s → rb pgPair 8 0 s = false →
    (let common (u : State) : Prop := rd pgPair 0x100 u = (rd pgPair 0x100 s &&& ~~~0x00FFFF3F) ||| (v &&& 0x00FFFF3F) ∧
       u.pair.policyPending = false ∧ KeepsBut [.pair, .lock, .lic, .regs, .resp] s u ∧ RegsBut [(pgPair, 0x100)] s u
     (s.pair.role = .solo → bitOf v 0 = true →
       Runs (.pairPolicyWrite t o v) s (fun u => u.pair.role = .link ∧ u.pair.mute = 1 ∧ u.lock.paired = true ∧ common u)) ∧
     (s.pair.role = .solo → bitOf v 0 = false →
       Runs (.pairPolicyWrite t o v) s (fun u => u.pair.role = .solo ∧ u.pair.mute = (if s.pair.mute = 1 then 1 else 0) ∧ u.lock = s.lock ∧
         u.lic = s.lic ∧ common u)) ∧
     (s.pair.role ≠ .solo → bitOf v 0 = false →
       Runs (.pairPolicyWrite t o v) s (fun u => u.pair.role = .solo ∧ u.pair.egressHold = false ∧ u.pair.takeover = none ∧
         u.lock.paired = false ∧ common u)) ∧
     (s.pair.role ≠ .solo → bitOf v 0 = true →
       Runs (.pairPolicyWrite t o v) s (fun u => u.pair = { s.pair with policyPending := false } ∧ u.lock = s.lock ∧ u.lic = s.lic ∧ common u)))) ∧
  (∀ t o s, Reaches o pgPair 0x104 s → handoverRefused s = false →
    Runs (.handover t o) s (fun u => u.pair = { s.pair with
        handover := some (handoverEpoch s)
        out := (upLanes s).map (fun b => (b, tally 6 b false (epochNow s) 0 (toBE 8 (handoverEpoch s)))) } ∧
      KeepsBut [.pair, .regs, .resp] s u ∧ RegsBut [(pgPair, 0x104)] s u)) ∧
  (∀ t o s, Reaches o pgPair 0x104 s → s.pair.role = .active →
    Runs (.forceFault t o) s (fun u => u.pair.role = .fault ∧ u.pair.egressHold = true ∧ u.pair.takeover = some (boundaryFree (advance t s), 7) ∧
      u.pair.faultAt = nowStamp (advance t s) ∧ u.pair.mute = s.pair.mute ∧
      KeepsBut [.pair, .lock, .regs, .resp] s u ∧ RegsBut [(pgPair, 0x104)] s u)) ∧
  (∀ t o s, Reaches o pgPair 0x104 s → s.pair.role = .fault → s.pair.trig = [] →
    Runs (.resync t o) s (fun u => u.pair.role = .link ∧ u.pair.egressHold = false ∧ u.pair.takeover = none ∧ u.pair.mute = 1 ∧
      u.pair.linkAt = (advance t s).tim.up ∧ KeepsBut [.pair, .lock, .lic, .regs, .resp] s u ∧ RegsBut [(pgPair, 0x104)] s u)) ∧
  (∀ t o s, Reaches o pgPair 0x104 s →
    (handoverRefused s = true → Runs (.handover t o) s (fun u => KeepsBut [.resp] s u)) ∧
    (s.pair.role ≠ .active → Runs (.forceFault t o) s (fun u => KeepsBut [.resp] s u)) ∧
    ((s.pair.role ≠ .fault ∨ s.pair.trig ≠ []) → Runs (.resync t o) s (fun u => KeepsBut [.resp] s u))) ∧
  (∀ t s, held s = false → s.jtag.outOfService = false →
    (let still (u : State) : Prop := u.pair = { s.pair with out := [] } ∧ KeepsBut [.pair] s u
     let up := (advance t s).tim.up
     (∀ ms mu c r, s.pair.role = .active → causes ms mu (advance t s) = c :: r →
       Runs (.faultDeclared t ms mu) s (fun u => u.pair.role = .fault ∧ u.pair.egressHold = true ∧
         u.pair.takeover = some (boundaryFree (advance t s), c) ∧ u.pair.faultAt = nowStamp (advance t s) ∧ u.pair.mute = s.pair.mute ∧
         KeepsBut [.pair, .lock] s u)) ∧
     (∀ ms mu, s.pair.role = .active → causes ms mu (advance t s) = [] → Runs (.faultDeclared t ms mu) s still) ∧
     (∀ ms mu e c, s.pair.role = .fault → s.pair.takeover = some (e, c) →
       Runs (.faultDeclared t ms mu) s (fun u => u.pair = { s.pair with
         out := (upLanes s).map (fun b => (b, tally 5 b false (epochNow s) 0 (faultPay c e s))) } ∧ KeepsBut [.pair] s u)) ∧
     (∀ ms mu, s.pair.role ≠ .active → s.pair.role ≠ .fault → Runs (.faultDeclared t ms mu) s still) ∧
     (pairBehind s = true → s.pair.takeover = none →
       Runs (.matePgLow t) s (fun u => u.pair = { s.pair with
         out := []
         takeover := some (boundaryAfter (advance t s), 9) } ∧ KeepsBut [.pair] s u)) ∧
     ((pairBehind s = false ∨ s.pair.takeover.isSome = true) → Runs (.matePgLow t) s still) ∧
     (s.pair.role ≠ .solo → s.pair.tallyAt + 12000 * 2 ^ 32 ≤ up →
       Runs (.batonLoss t) s (fun u => u.pair = { s.pair with
         out := []
         lost := true
         present := false
         egressHold := s.pair.egressHold || (pairBehind s && s.pair.takeover.isNone) } ∧ KeepsBut [.pair] s u)) ∧
     ((s.pair.role = .solo ∨ up < s.pair.tallyAt + 12000 * 2 ^ 32) → Runs (.batonLoss t) s still) ∧
     (∀ edge, pairBehind s = true → s.pair.lost = true → s.pair.tallyEpoch + 3 ≤ epochNow s → rb pgPair 0x100 5 s && edge = true →
       Runs (.silence t edge) s (fun u => u.pair.role = .sync ∧ u.pair.egressHold = false ∧ u.pair.takeover = s.pair.takeover ∧
         KeepsBut [.pair, .lock] s u)) ∧
     (∀ edge, pairBehind s = true → s.pair.lost = true → s.pair.tallyEpoch + 3 ≤ epochNow s → rb pgPair 0x100 5 s && edge = false →
       Runs (.silence t edge) s (fun u => u.pair = { s.pair with
         out := []
         takeover := some (epochNow s, 8) } ∧ KeepsBut [.pair] s u)) ∧
     (∀ edge, (pairBehind s = false ∨ s.pair.lost = false ∨ epochNow s < s.pair.tallyEpoch + 3) → Runs (.silence t edge) s still) ∧
     (∀ e c, pairBehind s = true → s.pair.takeover = some (e, c) → e ≤ epochNow s →
       ((look {} s.pair.rx ((epochNow s - 1) % 2 ^ 32)).whole = none →
         Runs (.takeover t) s (fun u => u.pair.role = .active ∧ u.pair.mute = 0 ∧ u.pair.egressHold = false ∧ u.pair.takeover = none ∧
           u.pair.handover = none ∧ u.pair.learnAt = epochNow s + 1 ∧ u.pair.corr = some (epochNow s - 1) ∧ same .msh (sealSkip s) u ∧
           KeepsBut [.pair, .lock, .msh] s u)) ∧
       (∀ r, (look {} s.pair.rx ((epochNow s - 1) % 2 ^ 32)).whole = some r →
         Runs (.takeover t) s (fun u => u.pair.role = .active ∧ u.pair.mute = 0 ∧ u.pair.egressHold = false ∧ u.pair.takeover = none ∧
           u.pair.learnAt = epochNow s + 1 ∧ u.pair.corr = none ∧ u.pair.rx = [] ∧
           KeepsBut [.pair, .lock, .msh, .tim, .pcr, .exp, .ftb, .sdh, .arc, .mem, .regs] s u))) ∧
     ((∀ e c, s.pair.takeover = some (e, c) → pairBehind s = false ∨ epochNow s < e) → Runs (.takeover t) s still) ∧
     (s.pair.role = .link → s.pair.info.hello = false → linkWaited (advance t s) = true →
       Runs (.linkWaitExpiry t) s (fun u => u.pair.role = .active ∧ u.pair.mute = 0 ∧ u.pair.reason = 1 ∧ u.pair.present = false ∧
         KeepsBut [.pair, .lock] s u)) ∧
     ((s.pair.role ≠ .link ∨ s.pair.info.hello = true ∨ linkWaited (advance t s) = false) → Runs (.linkWaitExpiry t) s still) ∧
     (∀ e, s.pair.handover = some e → e ≤ epochNow s →
       (s.pair.role = .active → Runs (.handoverInstant t) s (fun u => u.pair.role = .standby ∧ u.pair.mute = 1 ∧ u.pair.handover = none ∧
         u.pair.takeAt = nowStamp (advance t s) ∧ KeepsBut [.pair, .lock] s u)) ∧
       (s.pair.role = .standby → Runs (.handoverInstant t) s (fun u => u.pair.role = .active ∧ u.pair.mute = 0 ∧ u.pair.handover = none ∧
         u.pair.takeAt = nowStamp (advance t s) ∧ u.pair.lastCause = s.pair.lastCause ∧ same .msh (sealSkip s) u ∧
         KeepsBut [.pair, .lock, .msh] s u)) ∧
       (s.pair.role ≠ .active → s.pair.role ≠ .standby → Runs (.handoverInstant t) s (fun u => u.pair = { s.pair with
         out := []
         handover := none } ∧ KeepsBut [.pair] s u))) ∧
     ((∀ e, s.pair.handover = some e → epochNow s < e) → Runs (.handoverInstant t) s still)))

/-- Tallies and records (R395, R397-R402, R408, R409). A tally whose checks fail leaves its lane hunting and, at a standby, is asked for again; an
acknowledgement forgets its record, a list of gaps is queued to go again, a FAULT and a HANDOVER are named at the standby, a BEAT tells of the mate, a HELLO
decides between two members in LINK, and a record that is whole is acknowledged. BEAT or HELLO, with FAULT and HANDOVER, go out on every lane that is UP, every
8 us; the active member sends the record of the closed epoch, what was asked for again, and the full copy; the standby applies a whole
record in time, and leaves for SYNC on a late or a foreign one; SYNC ends when nothing is missing, and otherwise says what is. -/
def Obligations.PairRecordCommands : Prop :=
  ∀ t s, held s = false → s.jtag.outOfService = false →
    (let still (u : State) : Prop := u.pair = { s.pair with out := [] } ∧ KeepsBut [.pair] s u
     let n := epochNow s
     let each (ty : Nat) (pay : Bytes) : List (Nat × Bytes) := (upLanes s).map (fun b => (b, tally ty b false n 0 pay))
     let record : List Part := [.pair, .tim, .pcr, .exp, .ftb, .msh, .sdh, .arc, .mem, .regs]
     (∀ l b, l < 8 → (blane l s).st = 3 → s.pair.role ≠ .solo → has s.pair.hunt l = false → tallyOk b = false →
       huntFind tallyHead tallyLen ((b.drop 16).length / 16 + 1) (b.drop 16) = none →
       (pairBehind s = false → Runs (.batonTally t l b) s (fun u => u.pair = { s.pair with
         out := []
         hunt := add s.pair.hunt l } ∧ KeepsBut [.pair] s u)) ∧
       (pairBehind s = true → tallyHead b = true → byteAt b 0 / 16 = 1 → Runs (.batonTally t l b) s (fun u => u.pair = { s.pair with
         out := ((upLanes s).take 1).map (fun k =>
           (k, tally 4 k false n 0 (nackPay (fullEpoch (beAt b 4 4) s) [(beAt b 8 4, tallyLen b)])))
         hunt := add s.pair.hunt l } ∧ KeepsBut [.pair] s u))) ∧
     (∀ l b, has s.pair.hunt l = true → huntFind tallyHead tallyLen (b.length / 16 + 1) b = none → Runs (.batonTally t l b) s still) ∧
     (∀ l b, (8 ≤ l ∨ (blane l s).st ≠ 3 ∨ s.pair.role = .solo) → Runs (.batonTally t l b) s still) ∧
     (∀ l b, l < 8 → (blane l s).st = 3 → has s.pair.hunt l = false → tallyOk b = true → s.pair.lost = false →
       (let ty := byteAt b 0 / 16
        let pay := tallyPay b
        let heard : Pair := { s.pair with out := [], hunt := rem s.pair.hunt l, tallyAt := (advance t s).tim.up, tallyEpoch := n }
        (s.pair.role = .active → ty = 3 → Runs (.batonTally t l b) s (fun u => u.pair = { heard with sent := del s.pair.sent (beAt pay 0 8) } ∧
          KeepsBut [.pair] s u)) ∧
        (s.pair.role = .active → ty = 4 → Runs (.batonTally t l b) s (fun u => u.pair = { heard with
          resend := s.pair.resend ++ (List.range ((pay.length - 8) / 8)).map (fun i =>
            (beAt pay 0 8, beAt pay (8 + 8 * i) 4, beAt pay (12 + 8 * i) 4)) } ∧ KeepsBut [.pair] s u)) ∧
        (pairBehind s = true → ty = 5 → Runs (.batonTally t l b) s (fun u => u.pair = { heard with
          egressHold := true
          takeover := some (beAt pay 16 8, byteAt pay 0) } ∧ KeepsBut [.pair] s u)) ∧
        (s.pair.role = .standby → ty = 6 → Runs (.batonTally t l b) s (fun u => u.pair = { heard with handover := some (beAt pay 0 8) } ∧
          KeepsBut [.pair] s u)) ∧
        (pairBehind s = true → ty = 2 → Runs (.batonTally t l b) s (fun u => u.pair = { heard with
          present := true
          info := { s.pair.info with
            role := byteAt pay 8
            flags := byteAt pay 9
            cfgTag := beAt pay 12 4
            oldest := beAt pay 16 8
            active := beAt pay 24 8
            digest := beAt pay 32 4
            lockEpoch := beAt pay 40 8
            beatAt := some (advance t s).tim.up } } ∧ KeepsBut [.pair] s u)) ∧
        (s.pair.role = .link → ty = 7 → beAt pay 18 2 = 1 → beAt pay 8 4 % 2 = idVariant s % 2 → setVerForeign pay s = false → byteAt pay 16 = 1 →
          (let prefer := byteAt pay 17 % 2 == 1
           let won := if pairPrefer s != prefer then pairPrefer s else decide (s.fixed.ident.serial < beAt pay 0 8)
           Runs (.batonTally t l b) s (fun u => u.pair.role = (if won then .active else .sync) ∧ u.pair.mate = beAt pay 0 8 ∧
             u.pair.info.hello = true ∧ u.pair.present = true ∧ KeepsBut [.pair, .lock] s u))) ∧
        (∀ r, pairBehind s = true → ty = 1 → find? s.pair.rx (beAt b 4 4) = none → beAt b 8 4 = 0 → nbit (byteAt b 0) 0 = true →
          decodeRec pay = some r →
          Runs (.batonTally t l b) s (fun u => u.pair = { heard with
            rx := ins s.pair.rx (beAt b 4 4) { total := some pay.length, whole := some r, size := pay.length }
            out := ((upLanes s).take 1).map (fun k => (k, tally 3 k false n 0 (toBE 8 (fullEpoch (beAt b 4 4) s)))) } ∧
            KeepsBut [.pair] s u)))) ∧
     (s.pair.role ≠ .solo → (∀ b, s.pair.beatSent = some b → b + 8000 * 2 ^ 32 ≤ (advance t s).tim.up) →
       Runs (.beatSend t) s (fun u => u.pair = { s.pair with
         beatSent := some (advance t s).tim.up
         out := (match s.pair.role, s.pair.takeover with
             | .fault, some (e, c) => each 5 (faultPay c e s)
             | _, _ => []) ++
           (match s.pair.role, s.pair.handover with
             | .active, some e => if n < e then each 6 (toBE 8 e) else []
             | _, _ => []) ++
           (if s.pair.role = .link ∨ s.pair.info.role = 1 then each 7 (helloPairPay (advance t s)) else each 2 (beatPay (advance t s))) } ∧
         KeepsBut [.pair] s u)) ∧
     ((s.pair.role = .solo ∨ ∃ b, s.pair.beatSent = some b ∧ (advance t s).tim.up < b + 8000 * 2 ^ 32) → Runs (.beatSend t) s still) ∧
     (∀ r, s.pair.role = .active → find? s.pair.own (n - 1) = some r →
       (let b := recBytes (n - 1) (look 0 s.pair.applied (n - 1)) r (advance t s)
        Runs (.recordBuild t) s (fun u => u.pair = { s.pair with
          sent := ins s.pair.sent (n - 1) b
          recSize := (b.length + 15) / 16
          out := stripes 1 (n - 1) b.length b 0 s } ∧ KeepsBut [.pair] s u))) ∧
     ((s.pair.role ≠ .active ∨ find? s.pair.own (n - 1) = none) → Runs (.recordBuild t) s still) ∧
     Runs (.rangeResend t) s (fun u => u.pair = { s.pair with
       resend := []
       out := s.pair.resend.flatMap (fun r => match find? s.pair.sent r.1 with
         | none => []
         | some b => stripes 1 r.1 b.length (sub b r.2.1 r.2.2) r.2.1 s) } ∧ KeepsBut [.pair] s u) ∧
     (s.pair.role = .active → (s.pair.copyDue || s.pair.macDue) = true →
       (let ps := if s.pair.copyDue then copyParts (advance t s) else (copyParts (advance t s)).take 1
        Runs (.fullCopy t) s (fun u => u.pair = { s.pair with
          copyDue := false
          macDue := false
          out := (List.range ps.length).flatMap (fun k => stripes 8 k (ps.getD k []).length (ps.getD k []) 0 s) } ∧ KeepsBut [.pair] s u))) ∧
     ((s.pair.role ≠ .active ∨ (s.pair.copyDue || s.pair.macDue) = false) → Runs (.fullCopy t) s still) ∧
     (∀ r, (look {} s.pair.rx ((n - 2) % 2 ^ 32)).whole = some r →
       (s.pair.role = .standby → recHead r 2 = look 0 s.pair.applied (n - 2) →
         Runs (.recordApply t) s (fun u => u.pair.role = .standby ∧ u.pair.recEpoch = n - 2 ∧ find? u.pair.rx ((n - 2) % 2 ^ 32) = none ∧
           u.pair.syncCurrent = true ∧ KeepsBut record s u)) ∧
       (s.pair.role = .standby → recHead r 2 ≠ look 0 s.pair.applied (n - 2) →
         Runs (.recordApply t) s (fun u => u.pair.role = .sync ∧ u.pair.reason = 4 ∧ u.pair.syncS = n + 1 ∧ u.pair.rx = [] ∧
           KeepsBut [.pair, .lock] s u)) ∧
       (s.pair.role = .sync → n - 2 < s.pair.syncS →
         Runs (.recordApply t) s (fun u => u.pair = { s.pair with
           out := []
           rx := del s.pair.rx ((n - 2) % 2 ^ 32) } ∧ KeepsBut [.pair] s u)) ∧
       (s.pair.role = .sync → s.pair.syncS ≤ n - 2 → s.pair.copyDone.length < 6 → Runs (.recordApply t) s still) ∧
       (s.pair.role = .sync → s.pair.syncS ≤ n - 2 → 6 ≤ s.pair.copyDone.length →
         Runs (.recordApply t) s (fun u => u.pair.role = .sync ∧ u.pair.recEpoch = n - 2 ∧ u.pair.syncCurrent = true ∧
           u.pair.okRecs = (if recHead r 2 = look 0 s.pair.applied (n - 2) then s.pair.okRecs + 1 else 0) ∧ KeepsBut record s u)) ∧
       (pairBehind s = false → Runs (.recordApply t) s still)) ∧
     ((look {} s.pair.rx ((n - 2) % 2 ^ 32)).whole = none → Runs (.recordApply t) s still) ∧
     (pairBehind s = true → boundaryNear (advance t s) = true → (look {} s.pair.rx ((n - 1) % 2 ^ 32)).whole = none →
       Runs (.recordLate t) s (fun u => u.pair.role = .sync ∧ u.pair.syncCurrent = false ∧ u.pair.okRecs = 0 ∧
         u.pair.reason = (if s.pair.role = .standby then 8 else s.pair.reason) ∧ u.pair.syncS = (if s.pair.role = .standby then n + 1 else s.pair.syncS) ∧
         (rd pgPair 0x13C u).toNat = satAdd (rd pgPair 0x13C s).toNat 1 (2 ^ 32 - 1) ∧ KeepsBut [.pair, .lock, .regs] s u ∧
         RegsBut [(pgPair, 0x13C)] s u)) ∧
     ((pairBehind s = false ∨ boundaryNear (advance t s) = false ∨ (look {} s.pair.rx ((n - 1) % 2 ^ 32)).whole.isSome = true) →
       Runs (.recordLate t) s still) ∧
     (s.pair.role = .sync →
       (let why := if s.pair.copyDone.length < 6 then 5 else if s.pair.info.cfgTag ≠ (rd pgPair 0x11C s).toNat then 4
          else if s.pair.info.oldest < s.pair.syncS then 6 else if s.pair.okRecs < 2 then 9 else 0
        (why = 0 → Runs (.syncDone t) s (fun u => u.pair.role = .standby ∧ u.pair.reason = 0 ∧ u.pair.mute = 1 ∧ KeepsBut [.pair, .lock] s u)) ∧
        (why ≠ 0 → Runs (.syncDone t) s (fun u => u.pair = { s.pair with
          out := []
          reason := why } ∧ KeepsBut [.pair] s u)))) ∧
     (s.pair.role ≠ .sync → Runs (.syncDone t) s still))

/-! ## The marshal and the safety partition -/

/-- Commands of the marshal (R200, R416-R431, R441, R490). The marshal takes the next command once its standing orders have ended and while it is not
halted: one of bad form, for another device or boot, without a key that may authorise, or with a wrong tag is refused with RESULT 0x01-0x05, and
otherwise the key's counter is noted; the last one again gets its response again and is not executed; an older counter is 0x06, and a check
of its operations that fails 0x07-0x0A; one that every check passes is executed, counted and remembered, and a KEY_ERASE zeroises its slot. The petition mailbox
takes its owner's command, the towpath a frame of good form while its buffer has room, the bank copy starts, the standing orders run once, and
STATUS goes out on every lane that is UP when it is due. -/
def Obligations.MarshalCommands : Prop :=
  (∀ t c r s, held s = false → s.msh.queue = c :: r → s.msh.st ≠ 2 → s.boot.ordersEnded = true →
    (let m := c.bytes
     let slot := byteAt m 28
     let k := keySlot slot s
     let ctr := beAt m 20 8
     let tag := beAt m (m.length - 16) 16
     let lock := byteAt m 29 % 2 == 1
     let s1 := setMsh (fun x => { x with queue := r, petSt := if c.source = 0 then 2 else x.petSt }) (advance t s)
     let s2 := setKey slot { k with lastCounter := max k.lastCounter ctr } s1
     let answered (code : Nat) (u : State) : Prop := u.msh.cmdResult = code ∧ u.msh.cmdSource = c.source ∧ u.msh.queue = r ∧
       (c.source = 0 → u.msh.petSt = 3 ∧ u.msh.petResult = code) ∧
       (c.source = 1 ∨ c.source = 2 → u.msh.out.take s.msh.out.length = s.msh.out ∧
         (u.msh.out.drop s.msh.out.length).map (fun e => (e.1, beAt e.2 0 6)) = [(c.source - 1, c.sa % 2 ^ 48)])
     let rejected (code : Nat) (u : State) : Prop := answered code u ∧ u.msh.cmdCtr = s.msh.cmdCtr ∧ u.msh.lasts = s.msh.lasts ∧
       (rd pgMsh 0x11C u).toNat = satAdd (rd pgMsh 0x11C s).toNat 1 (2 ^ 32 - 1) ∧ KeepsBut [.msh, .regs] s u ∧ RegsBut [(pgMsh, 0x11C)] s u
     let noted (u : State) : Prop := keySlot slot u = { k with lastCounter := max k.lastCounter ctr } ∧ ∀ j, j ≠ slot → keySlot j u = keySlot j s
     (mshForm c.source m = none → Runs (.commandJudge t) s (fun u => rejected 1 u ∧ u.msh.keys = s.msh.keys)) ∧
     (∀ ops, mshForm c.source m = some ops →
       (let code := if beAt m 4 8 ≠ s.fixed.ident.serial then 2 else if beAt m 12 8 ≠ (if c.source = 3 then 0 else s.msh.bootId) then 3
          else if ¬(k.valid = true ∧ nbit k.uses 2 = true) then 4
          else if gmac k.key ctr (natsOf (m.take (m.length - 16))) ≠ tag then 5 else 0
        let again := (find? s.msh.lasts slot).any (fun x => x.counter == ctr && x.tag == tag)
        (code ≠ 0 → Runs (.commandJudge t) s (fun u => rejected code u ∧ u.msh.keys = s.msh.keys)) ∧
        (∀ x, code = 0 → find? s.msh.lasts slot = some x → x.counter = ctr → x.tag = tag →
          Runs (.commandJudge t) s (fun u => noted u ∧ u.msh.queue = r ∧ u.msh.cmdResult = s.msh.cmdResult ∧ u.msh.cmdCtr = s.msh.cmdCtr ∧
            u.msh.lasts = s.msh.lasts ∧ (c.source = 0 → u.msh.petSt = 3 ∧ u.msh.petResp = x.response) ∧ KeepsBut [.msh] s u)) ∧
        (code = 0 → again = false → ctr ≤ k.lastCounter → Runs (.commandJudge t) s (fun u => rejected 6 u ∧ noted u)) ∧
        (code = 0 → again = false → k.lastCounter < ctr → (mshChecks c.source lock ops s2).1 ≠ 0 →
          Runs (.commandJudge t) s (fun u => rejected (mshChecks c.source lock ops s2).1 u ∧ noted u)) ∧
        (code = 0 → again = false → k.lastCounter < ctr → (mshChecks c.source lock ops s2).1 = 0 →
          Runs (.commandJudge t) s (fun u => answered 0 u ∧ u.msh.cmdSlot = slot ∧ u.msh.cmdCtr = ctr ∧
            (∃ x, find? u.msh.lasts slot = some x ∧ x.counter = ctr ∧ x.tag = tag) ∧
            (∀ j, j ≠ slot → find? u.msh.lasts j = find? s.msh.lasts j) ∧
            (∀ v, ops = [.keyErase v] → lock = false → keySlot v u = { loads := (keySlot v s).loads } ∧
              (∀ j, j ≠ v → j ≠ slot → keySlot j u = keySlot j s) ∧ KeepsBut [.msh, .regs] s u ∧ RegsBut [(pgMsh, 0x118)] s u))))))) ∧
  (∀ t s, held s = false → (s.msh.queue = [] ∨ s.msh.st = 2 ∨ s.boot.ordersEnded = false) → Runs (.commandJudge t) s (fun u => KeepsBut [] s u)) ∧
  (∀ t o s, Reaches o pgPet 0x100 s → petRegRefused true o s = false →
    (s.msh.petSt = 0 → s.msh.st ≠ 2 → Runs (.petSubmit t o) s (fun u => same .msh { s with msh := { s.msh with
        petSt := 1
        queue := s.msh.queue ++ [⟨0, tblBytes tbPet (rf pgPet 0x104 0 14 s) s, 0⟩] } } u ∧ KeepsBut [.msh, .resp] s u)) ∧
    (s.msh.petSt = 0 → s.msh.st = 2 → Runs (.petSubmit t o) s (fun u => same .msh { s with msh := { s.msh with
        petSt := 3
        petResult := 0x0C
        petResp := [] } } u ∧ KeepsBut [.msh, .resp] s u)) ∧
    (s.msh.petSt = 0 → Runs (.petCancel t o) s (fun u => same .msh { s with msh := { s.msh with petOwner := none } } u ∧
      (∀ i w, i < 2 ^ 24 → w < 64 → tw tbPet i w u = 0) ∧ (∀ x i w, tkey x i w / 2 ^ 30 ≠ tbPet → tw x i w u = tw x i w s) ∧
      (∀ q off, q ≠ 2 → 0x100 ≤ off → off < 65536 → rd q off u = rd q off s) ∧ KeepsBut [.msh, .regs, .resp] s u)) ∧
    (s.msh.petSt ≠ 0 → Runs (.petSubmit t o) s (fun u => KeepsBut [.resp] s u) ∧ Runs (.petCancel t o) s (fun u => KeepsBut [.resp] s u))) ∧
  (∀ t o s, Reaches o pgPet 0x100 s → petRegRefused true o s = true →
    Runs (.petSubmit t o) s (fun u => KeepsBut [.resp] s u) ∧ Runs (.petCancel t o) s (fun u => KeepsBut [.resp] s u)) ∧
  (∀ t laneB b s, held s = false →
    (let n := b.length
     let m := sub b 14 (n - 18)
     let src := if laneB then 2 else 1
     let takes := rb pgTp 0x100 (b2n laneB) s = true ∧ s.msh.st ≠ 2
     let good := 64 ≤ n ∧ b.drop (n - 4) = fcsOf (b.take (n - 4)) ∧ beAt b 0 6 = tpMac s ∧ beAt b 12 2 = 0x88B5 ∧ beAt m 0 2 = 0x5450 ∧
       byteAt m 3 = 1
     (takes → good → (s.msh.queue.filter (fun c => c.source == src)).length < 4 →
       Runs (.towpathFrame t laneB b) s (fun u => same .msh { s with msh := { s.msh with
         queue := s.msh.queue ++ [⟨src, m, beAt b 6 6⟩] } } u ∧ KeepsBut [.msh] s u)) ∧
     (takes → good → 4 ≤ (s.msh.queue.filter (fun c => c.source == src)).length →
       Runs (.towpathFrame t laneB b) s (fun u => (rd pgTp 0x118 u).toNat = satAdd (rd pgTp 0x118 s).toNat 1 (2 ^ 32 - 1) ∧
         KeepsBut [.regs] s u ∧ RegsBut [(pgTp, 0x118)] s u)) ∧
     ((¬takes ∨ ¬good) → Runs (.towpathFrame t laneB b) s (fun u => KeepsBut [] s u)))) ∧
  (∀ t laneB up an s, held s = false →
    (let l := up && rb pgTp 0x100 (b2n laneB) s
     let a := l && an && rb pgTp 0x100 2 s
     Runs (.towpathLinkChange t laneB up an) s (fun u =>
       same .msh { s with msh := if laneB then { s.msh with upB := l, anB := a } else { s.msh with upA := l, anA := a } } u ∧
       KeepsBut [.msh] s u))) ∧
  (∀ t o s, Reaches o pgMsh 0x130 s →
    Runs (.bankCopyGo t o) s (fun u => u.exp = (if bankNamed (1 - rf pgExp 0x100 0 1 s) s then s.exp else { s.exp with copyBusy := true }) ∧
      KeepsBut [.exp, .regs, .resp] s u ∧ RegsBut [(pgMsh, 0x130)] s u)) ∧
  (∀ t s, held s = false → s.boot.ordersEnded = false → s.msh.st = 0 → (s.boot.active.isSome = true ∨ s.boot.recovery = true) →
    Runs (.standingOrders t true) s (fun u => u.msh.st = 2 ∧ u.boot = s.boot ∧ KeepsBut [.msh, .pair] s u) ∧
    Runs (.standingOrders t false) s (fun u => u.msh.st = 1 ∧ u.msh.standingDone = true ∧ u.boot.ordersEnded = true) ∧
    ((s.boot.recovery = true ∨ s.boot.standing = []) → s.msh.standingFail = false →
      Runs (.standingOrders t false) s (fun u => u.msh.st = 1 ∧ u.msh.keys = put {} [] 0 (fuseKey s) ∧ u.msh.rngOk = !nbit s.msh.fault 3 ∧
        (nbit s.msh.fault 3 = true → u.msh.bootId = s.msh.bootId) ∧ u.msh.lasts = s.msh.lasts ∧ u.boot.ordersEnded = true ∧
        u.pair.mute = (if s.pair.mute = 2 ∧ s.boot.recovery = false then 0 else s.pair.mute) ∧
        u.pair.policyPending = (s.pair.policyPending || (s.pair.mute == 2 && s.boot.recovery)) ∧
        KeepsBut [.msh, .boot, .pair, .free] s u))) ∧
  (∀ t bad s, held s = false → (s.boot.ordersEnded = true ∨ s.msh.st ≠ 0 ∨ (s.boot.active = none ∧ s.boot.recovery = false)) →
    Runs (.standingOrders t bad) s (fun u => KeepsBut [] s u)) ∧
  (∀ t s, held s = false →
    (let due := s.msh.st = 1 ∧ rf pgTp 0x100 16 16 s ≠ 0 ∧ (s.msh.upA = true ∨ s.msh.upB = true) ∧
       (s.msh.statusDue = true ∨ statusPeriod (advance t s) = true)
     let q := (s.msh.statusSeq + 1) % 2 ^ 32
     (due → Runs (.statusSend t) s (fun u => same .msh { s with msh := { s.msh with
           statusSeq := q
           statusAt := if statusPeriod (advance t s) then (advance t s).tim.up else s.msh.statusAt
           out := u.msh.out } } u ∧ u.msh.out.take s.msh.out.length = s.msh.out ∧
         (u.msh.out.drop s.msh.out.length).map (fun e => (e.1, beAt e.2 0 6, beAt e.2 6 6, sub e.2 14 104)) =
           ((if s.msh.upA then [0] else []) ++ (if s.msh.upB then [1] else [])).map (fun p => (p, tpPeer s, tpMac s, statusMessage q (advance t s))) ∧
       u.msh.statusDue = false ∧ KeepsBut [.msh] s u)) ∧
     (¬due → Runs (.statusSend t) s (fun u => KeepsBut [] s u))))

/-- The seal console (R433-R437, R441). It is claimed by an origin for itself when it is free, and released by its holder, with its registers and buffers
zeroed, and lost after its lease and by a reset of its origin, which acts on its petition too. A job computes a GMAC or checks one, or seals or opens a text, and every access
of the holder renews the lease; a key that is not valid for the use, a spent counter, a text too long or a failed random source end it
with their codes; its outcome appears when its fixed time has passed, and not before. -/
def Obligations.ConsoleCommands : Prop :=
  (∀ t o v s, Reaches o pgCon 0x100 s → s.msh.con.owner = none → fld v 0 8 = o →
    Runs (.sealClaim t o v) s (fun u => same .msh { s with msh := { s.msh with con := { s.msh.con with
        owner := some o
        accessAt := (advance t s).tim.up } } } u ∧ KeepsBut [.msh, .regs, .resp] s u ∧ RegsBut [(pgCon, 0x100)] s u)) ∧
  (∀ t o v h s, Reaches o pgCon 0x100 s → s.msh.con.owner = some h → h ≠ o →
    Runs (.sealClaim t o v) s (fun u => KeepsBut [.resp] s u) ∧ Runs (.sealRelease t o v) s (fun u => KeepsBut [.resp] s u)) ∧
  (∀ t o v s, Reaches o pgCon 0x100 s → s.msh.con.owner = none → fld v 0 8 ≠ o → Runs (.sealClaim t o v) s (fun u => KeepsBut [.resp] s u)) ∧
  (∀ t o v s, Reaches o pgCon 0x100 s → s.msh.con.owner = some o →
    Runs (.sealRelease t o v) s (fun u => same .msh { s with msh := { s.msh with con := { s.msh.con with
        owner := none
        output := []
        job := s.msh.con.job.map (fun j => (j.1, [], none, none))
        accessAt := (advance t s).tim.up } } } u ∧
      (∀ off, off ∈ [0x110, 0x114, 0x118, 0x130, 0x134, 0x138, 0x13C] → rd pgCon off u = 0) ∧
      (∀ i w, i < 2 ^ 24 → w < 64 → tw tbConI i w u = 0) ∧ (∀ x i w, tkey x i w / 2 ^ 30 ≠ tbConI → tw x i w u = tw x i w s) ∧
      KeepsBut [.msh, .regs, .resp] s u)) ∧
  (∀ t h s, held s = false → s.msh.con.owner = some h →
    (s.msh.con.accessAt + 100000000 * 2 ^ 32 ≤ (advance t s).tim.up →
      Runs (.consoleLeaseExpiry t) s (fun u => same .msh { s with msh := { s.msh with con := { s.msh.con with
          owner := none
          output := []
          job := s.msh.con.job.map (fun j => (j.1, [], none, none)) } } } u ∧
        (∀ i w, i < 2 ^ 24 → w < 64 → tw tbConI i w u = 0) ∧ KeepsBut [.msh, .regs] s u)) ∧
    ((advance t s).tim.up < s.msh.con.accessAt + 100000000 * 2 ^ 32 → Runs (.consoleLeaseExpiry t) s (fun u => KeepsBut [] s u))) ∧
  (∀ t s, held s = false → s.msh.con.owner = none → Runs (.consoleLeaseExpiry t) s (fun u => KeepsBut [] s u)) ∧
  (∀ t c s, held s = false → c < 4 →
    (let o := 0x40 + c
     let con := s.msh.con.owner = some o
     let pet := s.msh.petOwner = some o ∧ s.msh.petSt ≠ 3
     Runs (.managementCoreReset t c) s (fun u =>
       (con → u.msh.con.owner = none ∧ u.msh.con.output = [] ∧ ∀ i w, i < 2 ^ 24 → w < 64 → tw tbConI i w u = 0) ∧
       (¬con → u.msh.con = s.msh.con) ∧
       (pet → s.msh.petSt = 0 → u.msh.petOwner = none ∧ u.msh.petSt = 0 ∧ u.msh.queue = s.msh.queue ∧
         ∀ i w, i < 2 ^ 24 → w < 64 → tw tbPet i w u = 0) ∧
       (pet → s.msh.petSt = 1 → u.msh.petOwner = some o ∧ u.msh.petSt = 3 ∧ u.msh.petResult = 0x0B ∧ u.msh.petResp = [] ∧
         u.msh.queue = s.msh.queue.filter (fun c => c.source != 0)) ∧
       ((¬pet ∨ s.msh.petSt = 2) → u.msh.petOwner = s.msh.petOwner ∧ u.msh.petSt = s.msh.petSt ∧ u.msh.queue = s.msh.queue) ∧
       u.msh.keys = s.msh.keys ∧ KeepsBut [.msh, .regs] s u) ∧
     (¬con → ¬pet → Runs (.managementCoreReset t c) s (fun u => KeepsBut [] s u)))) ∧
  (∀ op t o cmd s, (op, cmd) ∈ [(0, Instr.gmacGen t o), (1, Instr.gmacVerify t o), (2, Instr.gcmEnc t o), (3, Instr.gcmDec t o)] →
    (rf pgCon 0x104 0 2 s ≠ op → held s = false → Runs cmd s (fun u => KeepsBut [] s u)) ∧
    (Reaches o pgCon 0x11C s → rf pgCon 0x104 0 2 s = op → conForeign o s = false →
      (let slot := rf pgCon 0x104 2 8 s
       let na := rf pgCon 0x108 0 13 s
       let nt := rf pgCon 0x10C 0 13 s
       let k := keySlot slot s
       let inp := natsOf (tblBytes tbConI (na + nt) s)
       let iv := k.ivFixed * 2 ^ 32 + k.ivCtr
       let up := (advance t s).tim.up
       let touched : Console := if s.msh.con.owner = some o then { s.msh.con with accessAt := up } else s.msh.con
       let job (j : Nat × Bytes × Option Nat × Option Nat) (keys : Tab KeySlot) (u : State) : Prop :=
         same .msh { s with msh := { s.msh with keys := keys, con := { touched with
           busy := true
           done := false
           job := some j
           jobAt := up + conTime na nt * 2 ^ 32 } } } u ∧ KeepsBut [.msh, .resp] s u
       let used := put {} s.msh.keys slot { k with ivCtr := k.ivCtr + 1 }
       let bad := nbit s.msh.fault 3 = true ∨ 4096 < na + nt
       let usable := k.valid = true ∧ nbit k.uses (if 2 ≤ op then 5 else 4) = true
       (s.msh.con.busy = true → Runs cmd s (fun u => same .msh { s with msh := { s.msh with con := touched } } u ∧ KeepsBut [.msh, .resp] s u)) ∧
       (s.msh.con.busy = false →
         (bad → Runs cmd s (job (3, [], none, none) s.msh.keys)) ∧
         (¬bad → ¬usable → Runs cmd s (job (2, [], none, none) s.msh.keys)) ∧
         (¬bad → usable → op % 2 = 0 → k.ivCtr = 0xFFFFFFFF → Runs cmd s (job (3, [], none, none) s.msh.keys)) ∧
         (¬bad → usable → op = 0 → k.ivCtr ≠ 0xFFFFFFFF → Runs cmd s (job (0, [], some (gcmTag k.key iv inp []), some iv) used)) ∧
         (¬bad → usable → op = 1 →
           Runs cmd s (job (if gcmTag k.key (conIv s) inp [] = conTag s then 0 else 1, [], none, none) s.msh.keys)) ∧
         (¬bad → usable → op = 2 → k.ivCtr ≠ 0xFFFFFFFF →
           (let ct := gcmCrypt k.key iv (inp.drop na)
            Runs cmd s (job (0, bytesOfNats ct, some (gcmTag k.key iv (inp.take na) ct), some iv) used))) ∧
         (¬bad → usable → op = 3 → Runs cmd s (if gcmTag k.key (conIv s) (inp.take na) (inp.drop na) = conTag s
           then job (0, bytesOfNats (gcmCrypt k.key (conIv s) (inp.drop na)), none, none) s.msh.keys
           else job (1, [], none, none) s.msh.keys)))))) ∧
  (∀ t res out tag iv s, held s = false → s.msh.con.job = some (res, out, tag, iv) →
    (s.msh.con.jobAt ≤ (advance t s).tim.up →
      Runs (.consoleJobDone t) s (fun u => same .msh { s with msh := { s.msh with con := { s.msh.con with
          busy := false
          done := true
          result := res
          output := out
          job := none } } } u ∧
        (∀ x, tag = some x → x < 2 ^ 128 → conTag u = x) ∧ (∀ x, iv = some x → x < 2 ^ 96 → conIv u = x) ∧
        KeepsBut [.msh, .regs] s u ∧ RegsBut ((if tag.isSome then [(pgCon, 0x130), (pgCon, 0x134), (pgCon, 0x138), (pgCon, 0x13C)] else []) ++
          (if iv.isSome then [(pgCon, 0x110), (pgCon, 0x114), (pgCon, 0x118)] else [])) s u)) ∧
    ((advance t s).tim.up < s.msh.con.jobAt → Runs (.consoleJobDone t) s (fun u => KeepsBut [] s u))) ∧
  (∀ t s, held s = false → s.msh.con.job = none → Runs (.consoleJobDone t) s (fun u => KeepsBut [] s u))

/-- Self-test, memory test and the partition's faults (R436, R438-R441): a heat's outcome is kept once, within its time, and one whose pipeline did not fall
idle in 1.5 us is NOT_IDLE; a forced pipeline is a suspect, and a retired one may be tested again; the march tests the next express store cell and a
faulty one is removed; a lockstep mismatch, a lost clock and an uncorrectable SRAM error halt the marshal and ask for a takeover; a slot that fails
parity is zeroised; a failed random source is noted. -/
def Obligations.SelfTestAndFaults : Prop :=
  (∀ t s, held s = false → s.msh.heat.cur.isSome = true → s.msh.heat.res = none →
    (s.pac.draining = true → heatPast 1500 (advance t s) = true →
      Runs (.heatIdleTimeout t) s (fun u => same .msh { s with msh := { s.msh with heat := { s.msh.heat with res := some (2, 0) } } } u ∧
        KeepsBut [.msh] s u)) ∧
    ((s.pac.draining = false ∨ heatPast 1500 (advance t s) = false) → Runs (.heatIdleTimeout t) s (fun u => KeepsBut [] s u)) ∧
    (∀ d, s.pac.draining = false → heatPast 1980001 (advance t s) = false →
      Runs (.heatResult t d) s (fun u => same .msh { s with msh := { s.msh with heat := { s.msh.heat with res := some (match d with
          | none => (0, 0)
          | some n => (1, n % 65536)) } } } u ∧ KeepsBut [.msh] s u)) ∧
    (∀ d, (s.pac.draining = true ∨ heatPast 1980001 (advance t s) = true) → Runs (.heatResult t d) s (fun u => KeepsBut [] s u))) ∧
  (∀ t d s, held s = false → (s.msh.heat.cur = none ∨ s.msh.heat.res.isSome = true) →
    Runs (.heatIdleTimeout t) s (fun u => KeepsBut [] s u) ∧ Runs (.heatResult t d) s (fun u => KeepsBut [] s u)) ∧
  (∀ t o v s, Reaches o pgSt 0x114 s → fld v 0 5 < pipes s → fld v 0 5 ∉ s.pac.retired →
    Runs (.stForce t o v) s (fun u => u.pac = { s.pac with suspects := u.pac.suspects } ∧ fld v 0 5 ∈ u.pac.suspects ∧
      (∀ q, q ≠ fld v 0 5 → (q ∈ u.pac.suspects ↔ q ∈ s.pac.suspects)) ∧ KeepsBut [.pac, .regs, .resp] s u ∧ RegsBut [(pgSt, 0x114)] s u)) ∧
  (∀ t o v s, Reaches o pgSt 0x114 s → (pipes s ≤ fld v 0 5 ∨ fld v 0 5 ∈ s.pac.retired) →
    Runs (.stForce t o v) s (fun u => KeepsBut [.regs, .resp] s u ∧ RegsBut [(pgSt, 0x114)] s u)) ∧
  (∀ t o v s, Reaches o pgSt 0x118 s →
    Runs (.stUnretire t o v) s (fun u => same .msh { s with msh := { s.msh with heat := { s.msh.heat with
        unretire := if fld v 0 5 ∈ s.pac.retired then some (fld v 0 5) else s.msh.heat.unretire } } } u ∧
      KeepsBut [.msh, .regs, .resp] s u ∧ RegsBut [(pgSt, 0x118)] s u)) ∧
  (∀ t s, held s = false →
    (let halted (bit : Nat) (u : State) : Prop :=
       same .msh { s with msh := { s.msh with st := 2, fault := s.msh.fault ||| 2 ^ bit } } u ∧
       u.pair = { s.pair with trig := u.pair.trig } ∧ (s.msh.st ≠ 2 → 3 ∈ u.pair.trig) ∧ (∀ k, k ≠ 3 → (k ∈ u.pair.trig ↔ k ∈ s.pair.trig)) ∧
       KeepsBut [.msh, .pair, .regs] s u
     Runs (.lockstepMismatch t) s (fun u => halted 0 u ∧ RegsBut [] s u) ∧ Runs (.marshalClockLoss t) s (fun u => halted 1 u ∧ RegsBut [] s u) ∧
     (∀ n, Runs (.sramScrub t n true) s (fun u => halted 2 u ∧
       (rd pgMsh 0x138 u).toNat = satAdd (rd pgMsh 0x138 s).toNat n (2 ^ 32 - 1) ∧ RegsBut [(pgMsh, 0x138)] s u)) ∧
     (∀ n, Runs (.sramScrub t n false) s (fun u => (rd pgMsh 0x138 u).toNat = satAdd (rd pgMsh 0x138 s).toNat n (2 ^ 32 - 1) ∧
       KeepsBut [.regs] s u ∧ RegsBut [(pgMsh, 0x138)] s u)))) ∧
  (∀ t slot s, held s = false → slot < 256 →
    Runs (.keySlotScrub t slot true) s (fun u => same .msh { s with msh := { s.msh with
        keys := put {} s.msh.keys slot { loads := (keySlot slot s).loads } } } u ∧ KeepsBut [.msh] s u)) ∧
  (∀ t slot s, held s = false → Runs (.keySlotScrub t slot false) s (fun u => KeepsBut [] s u)) ∧
  (∀ t bad s, held s = false → rb pgSt 0x100 2 s = true →
    (let h := s.msh.heat
     let last := h.cellNext + 1 = 196608
     Runs (.memtestCell t bad) s (fun u => u.msh.heat = { h with
         cellNext := if last then 0 else h.cellNext + 1
         passes := if last then satAdd h.passes 1 0x1FFF else h.passes
         cellsGone := u.msh.heat.cellsGone
         rsvShort := u.msh.heat.rsvShort } ∧
       (h.cellNext ∈ u.msh.heat.cellsGone ↔ bad = true ∨ h.cellNext ∈ h.cellsGone) ∧
       (∀ i, i ≠ h.cellNext → (i ∈ u.msh.heat.cellsGone ↔ i ∈ h.cellsGone)) ∧
       (u.msh.heat.rsvShort = true ↔ h.rsvShort = true ∨ (bad = true ∧ h.cellNext ∉ h.cellsGone ∧
         196608 - u.msh.heat.cellsGone.length < storeRsv (rf pgExp 0x100 0 1 s) s)) ∧
       u.msh.keys = s.msh.keys ∧ u.msh.st = s.msh.st ∧ KeepsBut [.msh] s u))) ∧
  (∀ t bad s, held s = false → rb pgSt 0x100 2 s = false → Runs (.memtestCell t bad) s (fun u => KeepsBut [] s u)) ∧
  (∀ t s, held s = false → Runs (.rngHealthFail t) s (fun u =>
    same .msh { s with msh := { s.msh with rngOk := false, fault := s.msh.fault ||| 8 } } u ∧ KeepsBut [.msh] s u))

/-! ## The host interface -/

/-- Doorbells and DMA. A good doorbell sets the tail, a poisoned one is reported, and any other is ignored (R452, R460). The frame at the head of a pair's punt
queue goes to its descriptor's buffer, the descriptor is written back and the head moves on, and a bad descriptor puts the pair in ERROR (R453, R460). A
transmit descriptor that is refused is handed back; a BRIDGED frame goes to the pipelines and is handed back, a DIRECT one waits for
its berths (R454). A failed or silent completion puts the pair in ERROR, and hands back the descriptor whose data could not be read (R460). A
waiting message leaves when its interval ends (R463). What is not due, or not fetched, leaves all as it was. Without dirty logging nothing but the
writes named goes to host memory. -/
def Obligations.DmaCommands : Prop :=
  (∀ t f i v s, held s = false → f < 64 → i < 8 → (f = 0 ∨ vfOn f s = true) →
    (rxEn (8 * f + i) s = true → v.toNat < rxSize (8 * f + i) s →
      Runs (.doorbell t f (16 * i) v true false) s (fun u => same .hif { s with hif := { s.hif with
        qp := put {} s.hif.qp (8 * f + i) { qp (8 * f + i) s with rxTail := v.toNat } } } u ∧ KeepsBut [.hif] s u)) ∧
    (txEn (8 * f + i) s = true → v.toNat < txSize (8 * f + i) s →
      Runs (.doorbell t f (16 * i + 4) v true false) s (fun u => same .hif { s with hif := { s.hif with
        qp := put {} s.hif.qp (8 * f + i) { qp (8 * f + i) s with txTail := v.toNat } } } u ∧ KeepsBut [.hif] s u)) ∧
    ((rxEn (8 * f + i) s = false ∨ rxSize (8 * f + i) s ≤ v.toNat) →
      Runs (.doorbell t f (16 * i) v true false) s (fun u => KeepsBut [] s u)) ∧
    ((txEn (8 * f + i) s = false ∨ txSize (8 * f + i) s ≤ v.toNat) →
      Runs (.doorbell t f (16 * i + 4) v true false) s (fun u => KeepsBut [] s u))) ∧
  (∀ t f off v whole s, held s = false →
    (63 < f ∨ 128 ≤ off ∨ (off % 16 ≠ 0 ∧ off % 16 ≠ 4) ∨ whole = false ∨ (f ≠ 0 ∧ vfOn f s = false)) →
    Runs (.doorbell t f off v whole false) s (fun u => KeepsBut [] s u)) ∧
  (∀ t f off v whole s, held s = false → Runs (.doorbell t f off v whole true) s (fun u => same .hif { s with hif := { s.hif with
      aer := put 0 s.hif.aer f (look 0 s.hif.aer f + 1)
      vfEvents := if f = 0 then s.hif.vfEvents else put 0 s.hif.vfEvents f (look 0 s.hif.vfEvents f ||| 4) } } u ∧ KeepsBut [.hif] s u)) ∧
  (∀ t p desc reads s, held s = false →
    (let w (i : Nat) : Nat := (desc.getD i 0).toNat
     let fn := p / 8
     let due := pairFetches p s = true ∧ rxEn p s = true ∧ (qp p s).rxHead ≠ (qp p s).rxTail ∧ queue (puntQ p) s ≠ [] ∧
       ¬(arcOn s = true ∧ puntQ p = ackQueue s)
     let good := w 2 % 64 = 0 ∧ 64 ≤ w 2 ∧ w 2 ≤ 16384
     (¬due → Runs (.rxDma t p desc reads) s (fun u => KeepsBut [] s u)) ∧
     (due → ¬good → Runs (.rxDma t p desc reads) s (fun u => same .hif { s with hif := { s.hif with
         qp := put {} s.hif.qp p { qp p s with err := true, cause := 4 }
         errLast := p + 4 * 65536 + 2 ^ 31
         vfEvents := if fn = 0 then s.hif.vfEvents else put 0 s.hif.vfEvents fn (look 0 s.hif.vfEvents fn ||| 4) } } u ∧ KeepsBut [.hif] s u)) ∧
     (due → good → dequeue (puntQ p) (advance t s) = none → Runs (.rxDma t p desc reads) s (fun u => KeepsBut [] s u)) ∧
     (∀ id e a, due → good → dequeue (puntQ p) (advance t s) = some (id, e, a) →
       (let f := frm id a
        let n := f.bytes.length
        let cut := decide (w 2 < n)
        let cls := (((queue (puntQ p) s).head?.bind (fun e => find? s.bas.frames e.id)).map (·.cls)).getD 0
        let w3 := n % 16384 + b2n cut * 2 ^ 14 + f.src % 512 * 2 ^ 15 + cls % 16 * 2 ^ 24 + 2 ^ 31
        let back := [w3, (stampA f.stamp).toNat, (stampB f.stamp).toNat, (stampC f.stamp).toNat, e.why].flatMap (toLE 4)
        let x := { qp p s with rxHead := ((qp p s).rxHead + 1) % rxSize p s }
        Runs (.rxDma t p desc reads) s (fun u =>
          qp p u = (if itrOver p (advance t s) then { x with lastMsg := some (advance t s).tim.up, pend := false } else { x with pend := true }) ∧
          (∀ j, j ≠ p → qp j u = qp j s) ∧ u.bas = a.bas ∧ u.lic = (dropFrm id a).lic ∧ u.arc = (dropFrm id a).arc ∧
          (tb tbFn fn 0 2 s = false → same .hif { s with hif := { s.hif with
              qp := u.hif.qp
              out := s.hif.out ++ (if f.bytes = [] then [] else [⟨fn, w 1 * 2 ^ 32 + w 0, f.bytes.take (w 2)⟩]) ++
                [⟨fn, addr64 tbQp p 1 s + 32 * (qp p s).rxHead + 12, back⟩] } } u ∧ KeepsBut [.hif, .lic, .arc] a u) ∧
          KeepsBut [.hif, .lic, .bas, .arc, .regs] s u))))) ∧
  (∀ t p desc data reads s, held s = false → (pairFetches p s = false ∨ txEn p s = false ∨ (qp p s).txHead = (qp p s).txTail ∨ (qp p s).tx ≠ none) →
    Runs (.txDma t p desc data reads) s (fun u => KeepsBut [] s u)) ∧
  (∀ t p desc data reads s, held s = false → pairFetches p s = true → txEn p s = true → (qp p s).txHead ≠ (qp p s).txTail → (qp p s).tx = none →
    tb tbFn (p / 8) 0 2 s = false →
    (let w (i : Nat) : Nat := (desc.getD i 0).toNat
     let fn := p / 8
     let now := nowStamp (advance t s)
     let addr := addr64 tbQp p 3 s + 32 * (qp p s).txHead
     let irq := nbit (w 2) 16
     let st := txRefusal p (w 2) (w 3) s
     let len := w 2 % 16384
     let d := data.take len ++ zeros (len - data.length)
     let f : Machine.Frm := { src := 288, bytes := d ++ fcsOf d, stamp := now, gen := s.lock.gen }
     let id := s.lic.nextFrame
     let s1 := newFrm f (advance t s)
     let moved := { qp p s with txHead := ((qp p s).txHead + 1) % txSize p s }
     let back (u : State) : Prop :=
       qp p u = (if !irq then moved else if itrOver p (advance t s) then
         { moved with lastMsg := some (advance t s).tim.up, pend := false } else { moved with pend := true }) ∧ (∀ j, j ≠ p → qp j u = qp j s) ∧
       same .hif { s with hif := { s.hif with
         qp := u.hif.qp
         out := s.hif.out ++ [⟨fn, addr + 16, [st + 2 ^ 31, (stampA now).toNat, (stampB now).toNat, (stampC now).toNat].flatMap (toLE 4)⟩] } } u
     (st ≠ 0 → Runs (.txDma t p desc data reads) s (fun u => back u ∧ KeepsBut [.hif] s u)) ∧
     (st = 0 → w 2 / 16384 % 4 = 0 →
       (let g := if lengthBad (parseOf f s1) f.bytes len then { f with bad := true, lenBad := true } else f
        let u0 := urgent 288 (parseOf g s1) s
        let k := 2 * 288 + b2n (!u0)
        let q := look [] s.pac.fifo k
        (q.length < (if u0 then 4 else 16) → Runs (.txDma t p desc data reads) s (fun u => back u ∧ u.lic = { s.lic with frames := ins s.lic.frames id g, nextFrame := id + 1 } ∧
          u.pac = { s.pac with fifo := put [] s.pac.fifo k (q ++ [id]) } ∧ KeepsBut [.hif, .lic, .pac] s u)) ∧
        ((if u0 then 4 else 16) ≤ q.length → Runs (.txDma t p desc data reads) s (fun u => back u ∧ frmLive id u = false ∧ u.lic.nextFrame = id + 1 ∧
          (rd 0x160 0x128 u).toNat = satAdd (rd 0x160 0x128 s).toNat 1 (2 ^ 32 - 1) ∧
          KeepsBut [.hif, .lic, .arc, .regs] s u ∧ RegsBut [(0x160, 0x128)] s u)))) ∧
     (st = 0 → w 2 / 16384 % 4 = 1 → Runs (.txDma t p desc data reads) s (fun u =>
       u.lic = { s.lic with frames := ins s.lic.frames id f, nextFrame := id + 1 } ∧
       u.bas = { s.bas with desc := ins s.bas.desc id { req := .host, dest := .queue (w 3 % 2 ^ 20), cls := w 3 % 2 ^ 20 % 8, src := 288, ect := ectOf (parseOf f s1) } } ∧
       same .hif { s with hif := { s.hif with qp := put {} s.hif.qp p { qp p s with tx := some ⟨id, addr, irq, now⟩ } } } u ∧
       KeepsBut [.hif, .lic, .bas] s u)))) ∧
  (∀ t p s, held s = false →
    (let fn := p / 8
     let acts := p < 512 ∧ (rxEn p s = true ∨ txEn p s = true) ∧ (qp p s).err = false
     let hands := txEn p s = true ∧ (qp p s).tx = none ∧ (qp p s).txHead ≠ (qp p s).txTail
     let now := nowStamp (advance t s)
     let failed (x : Qp) (cause : Nat) (out : List HostWr) (u : State) : Prop := qp p u = { x with err := true, cause := cause } ∧
       (∀ j, j ≠ p → qp j u = qp j s) ∧ same .hif { s with hif := { s.hif with
         qp := u.hif.qp
         aer := put 0 s.hif.aer fn (look 0 s.hif.aer fn + 1)
         errLast := p + cause * 65536 + 2 ^ 31
         out := s.hif.out ++ out
         vfEvents := if fn = 0 then s.hif.vfEvents else put 0 s.hif.vfEvents fn (look 0 s.hif.vfEvents fn ||| 4) } } u ∧ KeepsBut [.hif] s u
     let back : HostWr := ⟨fn, addr64 tbQp p 3 s + 32 * (qp p s).txHead + 16,
       [4 + 2 ^ 31, (stampA now).toNat, (stampB now).toNat, (stampC now).toNat].flatMap (toLE 4)⟩
     let moved := { qp p s with txHead := ((qp p s).txHead + 1) % txSize p s }
     let after (d : List Word) : Qp := if !bitOf (d.getD 2 0) 16 then moved else if itrOver p (advance t s) then
       { moved with lastMsg := some (advance t s).tim.up, pend := false } else { moved with pend := true }
     (acts → (∀ data, Runs (.dmaError t p data none) s (failed (qp p s) (if data then 3 else 1) [])) ∧
       Runs (.dmaTimeout t p none) s (failed (qp p s) 2 []) ∧
       (∀ d, ¬hands → (∀ data, Runs (.dmaError t p data (some d)) s (failed (qp p s) (if data then 3 else 1) [])) ∧
         Runs (.dmaTimeout t p (some d)) s (failed (qp p s) 2 [])) ∧
       (∀ d, hands → tb tbFn fn 0 2 s = false →
         (∀ data, Runs (.dmaError t p data (some d)) s (failed (after d) (if data then 3 else 1) [back])) ∧
         Runs (.dmaTimeout t p (some d)) s (failed (after d) 2 [back]))) ∧
     (¬acts → ∀ tx, (∀ data, Runs (.dmaError t p data tx) s (fun u => KeepsBut [] s u)) ∧
       Runs (.dmaTimeout t p tx) s (fun u => KeepsBut [] s u)))) ∧
  (∀ t p s, held s = false →
    ((qp p s).pend = true → itrOver p (advance t s) = true →
      Runs (.itrExpiry t p) s (fun u => same .hif { s with hif := { s.hif with
        qp := put {} s.hif.qp p { qp p s with lastMsg := some (advance t s).tim.up, pend := false } } } u ∧ KeepsBut [.hif] s u)) ∧
    (((qp p s).pend = false ∨ itrOver p (advance t s) = false) → Runs (.itrExpiry t p) s (fun u => KeepsBut [] s u)))

/-- Mailboxes and dirty logging. Each side posts in an empty slot of its own and takes what the other has posted, the PF side through
HIF_MBX_BASE and a VF through its view; any other post or acknowledgement is discarded, and a view that does not answer returns the error (R456-R458). The
two bitmaps of a function change places at a swap, with its cached words written out, and not while one is under way (R461, R462). STOP
stands in the function's entry when the PF side sets it, and STOPPED follows once the pairs are quiet (R462). -/
def Obligations.MailboxAndDirtyCommands : Prop :=
  (∀ t o k len q s, Admitted o 0x01A s → pfSide o = true → k < 8 → len < 128 → q < 256 →
    (let v := mbxBase s
     let i := 8 * v + k
     let notice (u : State) : Prop := look 0 u.hif.msgs (v * 2048 + 8) = look 0 s.hif.msgs (v * 2048 + 8) + 1
     let posts := 4 ≤ k ∧ (mbx i s).posted = false ∧ 1 ≤ len ∧ len ≤ 64
     let takes := k < 4 ∧ (mbx i s).posted = true ∧ (mbx i s).seq = q
     (posts → Runs (.mbxPost t o k len) s (fun u => same .hif { s with hif := { s.hif with
         mbx := put {} s.hif.mbx i { posted := true, rst := false, seq := ((mbx i s).seq + 1) % 256, len := len } } } u ∧ notice u ∧
         KeepsBut [.hif, .resp] s u)) ∧
     (¬posts → Runs (.mbxPost t o k len) s (fun u => KeepsBut [.resp] s u)) ∧
     (takes → Runs (.mailboxAck t o k q) s (fun u => same .hif { s with hif := { s.hif with
         mbx := put {} s.hif.mbx i { mbx i s with posted := false, len := 0 } } } u ∧ notice u ∧
         (∀ w, w < 64 → tw tbMbx i w u = 0) ∧ (∀ x j w, tkey x j w / 64 ≠ tkey tbMbx i 0 / 64 → tw x j w u = tw x j w s) ∧
         (∀ p off, p ≠ 2 → 0x100 ≤ off → off < 65536 → rd p off u = rd p off s) ∧ KeepsBut [.hif, .regs, .resp] s u)) ∧
     (¬takes → Runs (.mailboxAck t o k q) s (fun u => KeepsBut [.resp] s u)))) ∧
  (∀ t o k len q s, held s = false → isVf o = true → viewAnswers o s = true → pageLive 0x01A s = true → pageLive pgHif s = true →
    heldOrigin 0x01A o s = false → k < 8 → len < 128 → q < 256 →
    (let i := 8 * o + k
     let posts := k < 4 ∧ (mbx i s).posted = false ∧ 1 ≤ len ∧ len ≤ 64
     let takes := 4 ≤ k ∧ (mbx i s).posted = true ∧ (mbx i s).seq = q
     let done := 0x10C + 4 * (o / 32)
     (posts → Runs (.mbxPost t o k len) s (fun u => same .hif { s with hif := { s.hif with
         mbx := put {} s.hif.mbx i { posted := true, rst := false, seq := ((mbx i s).seq + 1) % 256, len := len } } } u ∧
         rb pgHif 0x1C 9 u = true ∧ KeepsBut [.hif, .resp] s u)) ∧
     (¬posts → Runs (.mbxPost t o k len) s (fun u => KeepsBut [.resp] s u)) ∧
     (takes → Runs (.mailboxAck t o k q) s (fun u => same .hif { s with hif := { s.hif with
         mbx := put {} s.hif.mbx i { mbx i s with posted := false, len := 0 } } } u ∧
         rd 0x01A done u = rd 0x01A done s ||| w32 (2 ^ (o % 32)) ∧
         (∀ w, w < 64 → tw tbMbx i w u = 0) ∧ (∀ x j w, tkey x j w / 64 ≠ tkey tbMbx i 0 / 64 → tw x j w u = tw x j w s) ∧
         (∀ p off, (p, off) ≠ (0x01A, done) → p ≠ 2 → 0x100 ≤ off → off < 65536 → rd p off u = rd p off s) ∧ KeepsBut [.hif, .regs, .resp] s u)) ∧
     (¬takes → Runs (.mailboxAck t o k q) s (fun u => KeepsBut [.resp] s u)))) ∧
  (∀ t o k x s, held s = false → isVf o = true → viewAnswers o s = false →
    Runs (.mbxPost t o k x) s (fun u => u.resp = ⟨true, []⟩ ∧ KeepsBut [.resp] s u) ∧
    Runs (.mailboxAck t o k x) s (fun u => u.resp = ⟨true, []⟩ ∧ KeepsBut [.resp] s u)) ∧
  (∀ t o f s, Reaches o pgHif 0x124 s → f < 64 →
    ((fnSt f s).busy = false → Runs (.dirtySwap t o f) s (fun u => same .hif { s with hif := { s.hif with
        fn := put {} s.hif.fn f { fnSt f s with curB := !(fnSt f s).curB, busy := true }
        cache := s.hif.cache.filter (fun d => d.f != f)
        out := s.hif.out ++ (s.hif.cache.filter (fun d => d.f == f)).map (fun d => ⟨d.f, d.addr, toLE 8 d.bits⟩) } } u ∧ KeepsBut [.hif, .resp] s u)) ∧
    ((fnSt f s).busy = true → Runs (.dirtySwap t o f) s (fun u => KeepsBut [.resp] s u))) ∧
  (∀ t f s, held s = false →
    ((fnSt f s).busy = true → Runs (.swapComplete t f) s (fun u => same .hif { s with hif := { s.hif with
        fn := put {} s.hif.fn f { fnSt f s with busy := false } } } u ∧ KeepsBut [.hif] s u)) ∧
    ((fnSt f s).busy = false → Runs (.swapComplete t f) s (fun u => KeepsBut [] s u))) ∧
  (∀ t o f s, Admitted o pgHif s → f < 64 →
    (pfSide o = true → Runs (.dmaStop t o f) s (fun u => tw tbFn f 0 u = tw tbFn f 0 s ||| 8 ∧
      ((∀ w, find? s.regs.staged (tkey tbFn f w) = none) → ∀ w, 0 < w → w < 64 → tw tbFn f w u = tw tbFn f w s) ∧
      (∀ x j w, tkey x j w / 64 ≠ tkey tbFn f 0 / 64 → tw x j w u = tw x j w s) ∧
      (∀ p off, p ≠ 2 → 0x100 ≤ off → off < 65536 → rd p off u = rd p off s) ∧ KeepsBut [.regs, .resp] s u)) ∧
    (pfSide o = false → Runs (.dmaStop t o f) s (fun u => KeepsBut [.resp] s u))) ∧
  (∀ t f s, held s = false →
    (let quiet := tb tbFn f 0 3 s = true ∧ (fnSt f s).stopped = false ∧ ∀ i, i < 8 → (qp (8 * f + i) s).tx = none
     (quiet → Runs (.dmaStopped t f) s (fun u => same .hif { s with hif := { s.hif with
        fn := put {} s.hif.fn f { fnSt f s with stopped := true }
        vfEvents := if f = 0 then s.hif.vfEvents else put 0 s.hif.vfEvents f (look 0 s.hif.vfEvents f ||| 8) } } u ∧ KeepsBut [.hif] s u)) ∧
     (¬quiet → Runs (.dmaStopped t f) s (fun u => KeepsBut [] s u))))

/-- Resets of functions and the link. A function-level reset of a VF stops the pairs of its function at head 0, empties its punt queues of
what has not started to leave, discards its mailbox slots, drops its queued table command and its console lease, and the VF stays in reset until the reset ends,
which its view shows (R458, R459). A PF reset of any kind does so to every function and disables the VFs; so does the link's going
down. The link comes up with its speed, width and VFs, which see that a PF reset has passed (R458, R464). -/
def Obligations.FunctionResetCommands : Prop :=
  (∀ t v s, held s = false → 1 ≤ v → v < 64 →
    Runs (.vfFlr t v) s (fun u => v ∈ u.hif.flr ∧ (∀ x ∈ s.hif.flr, x ∈ u.hif.flr) ∧
      (∀ i j, i < 8 → j = 8 * v + i →
        qp j u = { qp j s with rxHead := 0, txHead := 0, rxTail := 0, txTail := 0, pend := false, tx := none } ∧
        tw tbQp j 0 u = setFld (tw tbQp j 0 s) 0 2 0 ∧ queue (puntQ j) u = (queue (puntQ j) s).filter (fun x => x.started) ∧
        mbx j u = { mbx j s with posted := false, len := 0, rst := (mbx j s).rst || (mbx j s).posted } ∧ (∀ w, w < 64 → tw tbMbx j w u = 0) ∧
        ((mbx j s).posted = true → rb pgHif (0x114 + 4 * (v / 32)) (v % 32) u = true)) ∧
      (∀ j, j / 8 ≠ v → qp j u = qp j s ∧ mbx j u = mbx j s) ∧
      (∀ q, (∀ i, i < 8 → q ≠ puntQ (8 * v + i)) → queue q u = queue q s) ∧
      ftbSlot v u = (if (ftbSlot v s).state = 1 then { ftbSlot v s with state := 0 } else ftbSlot v s) ∧
      (∀ i, i ≠ v → ftbSlot i u = ftbSlot i s) ∧ u.msh.con.owner = (if s.msh.con.owner = some v then none else s.msh.con.owner) ∧
      (s.msh.con.owner ≠ some v → same .msh s u) ∧ rb pgHif (0x10C + 4 * (v / 32)) (v % 32) u = true ∧
      (∀ p off, p ∉ [2, pgHif, pgBas, pgCon] → 0x100 ≤ off → off < 65536 → rd p off u = rd p off s) ∧
      (∀ x i w, x ∉ [tbQp, tbMbx, tbConI] → i < 2 ^ 24 → w < 64 → tw x i w u = tw x i w s) ∧
      KeepsBut [.hif, .regs, .bas, .lic, .arc, .ftb, .msh] s u)) ∧
  (∀ t v s, held s = false → (v = 0 ∨ 63 < v) → Runs (.vfFlr t v) s (fun u => KeepsBut [] s u)) ∧
  (∀ t v s, held s = false →
    (v ∈ s.hif.flr → Runs (.vfFlrDone t v) s (fun u => v ∉ u.hif.flr ∧ same .hif { s with hif := { s.hif with
      flr := rem s.hif.flr v
      vfEvents := put 0 s.hif.vfEvents v (look 0 s.hif.vfEvents v ||| 1) } } u ∧ KeepsBut [.hif] s u)) ∧
    (v ∉ s.hif.flr → Runs (.vfFlrDone t v) s (fun u => KeepsBut [] s u))) ∧
  (∀ t s, held s = false →
    (let Q (u : State) : Prop := u.hif.numVfs = 0 ∧ u.hif.vfEnable = false ∧ u.hif.pfReset = true ∧ u.hif.flr = [] ∧
      (∀ j, j < 512 → qp j u = { qp j s with rxHead := 0, txHead := 0, rxTail := 0, txTail := 0, pend := false, tx := none } ∧
        rxEn j u = false ∧ txEn j u = false ∧ queue (puntQ j) u = (queue (puntQ j) s).filter (fun x => x.started)) ∧
      (∀ j, 8 ≤ j → j < 512 → (mbx j u).posted = false) ∧ (∀ f, f < 64 → tb tbFn f 0 2 u = false) ∧
      (∀ v, 1 ≤ v → v < 64 → nbit (look 0 u.hif.vfEvents v) 0 = true) ∧ rb 2 0x100 0 u = false ∧
      (∀ q, q < 1048576 → queue q u = queue q s) ∧ (∀ i, i < 64 → (ftbSlot i u).state = (if (ftbSlot i s).state = 1 then 0 else (ftbSlot i s).state)) ∧
      (∀ o, o < 64 → u.msh.con.owner ≠ some o) ∧
      (∀ p off, p ∉ [2, pgHif, pgBas, pgCon] → 0x100 ≤ off → off < 65536 → rd p off u = rd p off s) ∧
      KeepsBut [.hif, .regs, .bas, .lic, .arc, .ftb, .msh] s u
     Runs (.pfFlr t) s (fun u => Q u ∧ u.hif.active = s.hif.active) ∧ Runs (.hotReset t) s (fun u => Q u ∧ u.hif.active = s.hif.active) ∧
     ∀ sp wd n, Runs (.pcieLinkChange t false sp wd n) s (fun u => Q u ∧ u.hif.active = false))) ∧
  (∀ t sp wd n s, held s = false →
    Runs (.pcieLinkChange t true sp wd n) s (fun u => same .hif { s with hif := { s.hif with
        active := true
        speed := sp % 8
        width := wd % 16
        numVfs := min n 63
        vfEnable := decide (0 < n)
        pfReset := s.hif.pfReset && n == 0
        vfEvents := u.hif.vfEvents } } u ∧
      (∀ v, look 0 u.hif.vfEvents v = if s.hif.pfReset = true ∧ 1 ≤ v ∧ v ≤ min n 63 then look 0 s.hif.vfEvents v ||| 2 else look 0 s.hif.vfEvents v) ∧
      KeepsBut [.hif] s u))

/-! ## Reset, boot, fuses, firmware -/

/-- Resets. A fall of DEV_PG, DEV_RST_N low, a rail below its minimum, a core PLL without lock, an armed software reset and JTAG's put the device in
reset: everything at its reset state but the pins, the cause, the TAP, what was burnt and programmed and the waiting commands; a burn is cut
off where it has come to (R466-R468, R507, R508, R515). A release ends the reset, opens the change log and starts the training of the memories (R347, R467). The
software reset needs its arming, which ends with its time (R468). The thermal trip stays (R511). -/
def Obligations.ResetCommands : Prop :=
  (let stop (s : State) : Boot :=
     { rstN := s.boot.rstN, devPg := s.boot.devPg, powerLost := s.boot.powerLost, cause := s.boot.cause, inReset := true, diag := 0 }
   let cold (s : State) (b : Boot) (j : Jtag) (u : State) : Prop :=
     let f (x : Fixed) (n : Nat) : State := { ({} : State) with
       boot := b
       fixed := x
       jtag := { j with outOfService := false, pinsFloat := false }
       free := n
       pending := s.pending }
     (s.boot.fuseBusy = false → u = f s.fixed s.free) ∧
     (s.boot.fuseBusy = true → u = f { s.fixed with fuse := u.fixed.fuse } (s.free + 2) ∧
       ∀ i, ∃ x, look 0 u.fixed.fuse i =
         look 0 s.fixed.fuse i ||| ((((burnMasks s).find? (fun e => e.1 == i / 3)).map (·.2)).getD 0 &&& x))
   (∀ t s, Runs (.deviceReset t true) s (cold s { stop s with devPg := false, powerLost := true } { s.jtag with thermTrip := false })) ∧
   (∀ t s, Runs (.deviceReset t false) s (cold s { stop s with rstN := false, cause := if s.boot.inReset then s.boot.cause else 2 } s.jtag)) ∧
   (∀ t rail uv s, (uv < railMinUv rail → Runs (.railUndervoltage t rail uv) s (cold s { stop s with powerLost := true } s.jtag)) ∧
     (railMinUv rail ≤ uv → Runs (.railUndervoltage t rail uv) s (fun u => u = s))) ∧
   (∀ t s, Runs (.pllLockLoss t) s (cold s { stop s with powerLost := true } s.jtag)) ∧
   (∀ t o s, Reaches o pgFw 0x124 s →
     (rstArmed (advance t s) = true → Runs (.swReset t o) s (cold s { stop s with cause := 3, selfHold := true } s.jtag)) ∧
     (rstArmed (advance t s) = false → Runs (.swReset t o) s (fun u => KeepsBut [.resp] s u))) ∧
   (∀ t s, jtagLocked s = false →
     Runs (.devreset t) s (cold s { stop s with cause := 4, selfHold := true } { s.jtag with ir := 0x21 }))) ∧
  (let ready (s : State) (mode : Nat) (b : Boot) (u : State) : Prop :=
     u = { s with
       mem := { s.mem with ctl := (List.range (memCount s)).map (fun c => (c, { st := 1 })) }
       boot := { b with cause := if s.boot.powerLost then 1 else s.boot.cause, diag := 1, bootMode := mode % 4 }
       log := resetLog (if s.boot.powerLost then 1 else s.boot.cause) }
   (∀ t mode s, s.boot.inReset = true → Runs (.resetRelease t mode) s (ready s mode { rstN := true, devPg := true })) ∧
   (∀ t mode s, s.boot.inReset = true → s.boot.selfHold = true → s.boot.rstN = true → s.boot.devPg = true →
     Runs (.resetSelfRelease t mode) s (ready s mode { rstN := true, devPg := true }))) ∧
  (∀ t mode s, s.boot.inReset = false → Runs (.resetRelease t mode) s (fun u => u = s)) ∧
  (∀ t mode s, (s.boot.inReset = false ∨ s.boot.selfHold = false) → Runs (.resetSelfRelease t mode) s (fun u => u = s)) ∧
  (∀ t mode s, s.boot.inReset = true → s.boot.selfHold = true → (s.boot.rstN = false ∨ s.boot.devPg = false) →
    Runs (.resetSelfRelease t mode) s (fun u => u = { s with boot := { s.boot with selfHold := false } })) ∧
  (∀ t o v s, Reaches o pgFw 0x120 s →
    Runs (.resetArm t o v) s (fun u => u.boot = { s.boot with armed := if v = 0xA5C30F1E then some ((advance t s).tim.up + 100000 * 2 ^ 32) else none } ∧
      KeepsBut [.boot, .regs, .resp] s u ∧ RegsBut [(pgFw, 0x120)] s u)) ∧
  (∀ t s, held s = false →
    ((∀ a, s.boot.armed = some a → a < (advance t s).tim.up) →
      Runs (.rstArmExpiry t) s (fun u => u.boot = { s.boot with armed := none } ∧ KeepsBut [.boot] s u)) ∧
    (∀ a, s.boot.armed = some a → (advance t s).tim.up ≤ a → Runs (.rstArmExpiry t) s (fun u => KeepsBut [] s u))) ∧
  (∀ t s, held s = false → Runs (.thermTrip t) s (fun u => u.jtag = { s.jtag with thermTrip := true } ∧ KeepsBut [.jtag] s u))

/-- Fuses and boot. Fuse sensing resolves every word from its reads, names the device and chooses what follows: a hold, SCRAPPED, BLANK, recovery or the banks
in their order (R476-R479, R484, R491). A bank that does not pass is refused and the next is tried, or recovery begins; a passing bank activates
whole (R484, R489, R490). The start-up records are applied in order: a write that is taken and one that is not, an end, and the waits (R492). A
page's own initialisation ends once, and the basin hears of the memories when all are ready (R268, R470, R478). -/
def Obligations.BootCommands : Prop :=
  (∀ t seen s, s.boot.inReset = false → s.boot.sensed = false →
    (let r (w : Nat) : Word × Bool × Bool × Bool := fuseResolve w (fuseReads seen w s)
     let old := theRec s
     let trial := old.try_ ≠ 0xFF ∧ 0 < old.left
     let p := old.preferred % 2
     let q := old.try_ % 2
     Runs (.fuseSenseDone t seen) s (fun u => u.boot.sensed = true ∧ (∀ w, w < 170 → fuse w u = (r w).1) ∧
       u.boot.weak = s.boot.weak ++ (List.range 170).filter (fun w => (r w).2.1) ∧
       u.boot.restricted = (s.boot.restricted || (List.range 170).any (fun w => (r w).2.2.1)) ∧
       (s.boot.holdWord = none → u.boot.holdWord = (List.range 170).find? (fun w => (r w).2.2.2)) ∧
       u.fixed.ident = ⟨bitOf (fuse 1 u) 16, bitOf (fuse 1 u) 17, fld (fuse 1 u) 0 16, (fuse 3 u).toNat * 2 ^ 32 + (fuse 2 u).toNat⟩ ∧
       u.fixed = { s.fixed with ident := u.fixed.ident, flash := u.fixed.flash } ∧
       (u.boot.holdWord ≠ none → u.boot.diag = 0xC ∧ u.fixed.flash = s.fixed.flash) ∧
       (u.boot.holdWord = none → lifecycle u = 4 → u.boot.scrapped = true ∧ u.boot.diag = 0xD ∧ u.fixed.flash = s.fixed.flash) ∧
       (u.boot.holdWord = none → lifecycle u = 0 → u.boot.blank = true ∧ u.boot.diag = 0xE ∧ u.fixed.flash = s.fixed.flash) ∧
       (u.boot.holdWord = none → lifecycle u ≠ 4 → lifecycle u ≠ 0 →
         (let rescue := old.force = true ∨ (s.boot.bootMode = 1 ∧ bitOf (fuse 55 u) 1 = false) ∨ lifecycle u = 3
          (rescue → u.boot.recovery = true ∧ u.boot.diag = 7 ∧ u.boot.banks = [] ∧ u.fixed.flash = s.fixed.flash) ∧
          (¬rescue → u.boot.recovery = s.boot.recovery ∧ u.boot.diag = 2 ∧
            (trial → u.boot.banks = (if q = p then [q, 1 - p] else [q, p]) ∧ u.boot.trialNext = true ∧
              u.fixed.flash = (writeRec (fun x => { x with left := x.left - 1 }) s).fixed.flash) ∧
            (¬trial → u.boot.banks = [p, 1 - p] ∧ u.boot.trialNext = false ∧ u.fixed.flash = s.fixed.flash)))) ∧
       KeepsBut [.boot, .fixed] s u))) ∧
  (∀ t seen s, (s.boot.inReset = true ∨ s.boot.sensed = true) → Runs (.fuseSenseDone t seen) s (fun u => KeepsBut [] s u)) ∧
  (∀ t err s, held s = false → s.boot.banks = [] → Runs (.bankCheck t err) s (fun u => KeepsBut [] s u)) ∧
  (∀ t b r s, held s = false → s.boot.banks = b :: r →
    (let lost (x : Boot) : Boot := { x with
       recovery := true
       diag := 7
       banks := []
       store := 0
       setVer := 0
       pairMin := 0
       pairMax := 0 }
     Runs (.bankCheck t 2) s (fun u => u.boot = lost s.boot ∧ KeepsBut [.boot] s u) ∧
     ∀ err, err ≠ 2 →
       (let res := bankCheck b (decide (err = 1)) (advance t s)
        let x1 : Boot := if b = 0 then { s.boot with refuseA := res.code } else { s.boot with refuseB := res.code }
        let x : Boot := if res.code = 1 ∨ res.code = 2 then x1 else { x1 with pkvLast := res.pkv + b * 256 }
        let y : Boot := { x with banks := r, trialNext := false, store := 0 }
        let m := flashAt (bankBase b) 4096 s
        let l := images m
        (err = 1 → res.code = 1) ∧
        (res.code ≠ 0 → Runs (.bankCheck t err) s (fun u => u.boot = (if r = [] then lost y else y) ∧ KeepsBut [.boot] s u)) ∧
        (res.code = 0 → Runs (.bankCheck t err) s (fun u => u.boot = { x with
            active := some b
            trial := s.boot.trialNext
            banks := []
            rootSlot := res.root
            setVer := beAt m 16 4
            secVer := beAt m 20 2
            pairMin := beAt m 28 4
            pairMax := beAt m 32 4
            epochWait := beAt m 38 2
            store := ((l.filter Img.loaded).map (fun e => (e.len + 4095) / 4096 * 4096)).sum
            standing := (imageOf 2 b l s).getD []
            startup := (((imageOf 3 b l s).bind (fun c => startupOf (beAt m 36 2) c ((imageOf 4 b l s).getD []) s)).getD ([], 0)).1
            startIdx := 0
            startAt := (advance t s).tim.up
            msActivate := min 65535 (upNs (advance t s) / 1000000)
            diag := 5 } ∧ KeepsBut [.boot] s u))))) ∧
  (∀ t tmo s, held s = false → (s.boot.active = none ∨ s.boot.startup[s.boot.startIdx]? = none) →
    Runs (.startupRecord t tmo) s (fun u => KeepsBut [] s u)) ∧
  (∀ t tmo r s, held s = false → s.boot.active.isSome = true → s.boot.startup[s.boot.startIdx]? = some r →
    (let now := (advance t s).tim.up
     let next (x : Boot) : Boot := { x with startIdx := s.boot.startIdx + 1, startAt := now }
     let failed : Boot := { s.boot with
       cfgErr := min 65535 (s.boot.cfgErr + 1)
       cfgErrFirst := if s.boot.cfgErrSet then s.boot.cfgErrFirst else min 65535 s.boot.startIdx
       cfgErrSet := true }
     let waited (us : Nat) : Prop := s.boot.startAt + us * 1000 * 2 ^ 32 ≤ now
     let goes (b : Boot) : Prop := Runs (.startupRecord t tmo) s (fun u => u.boot = b ∧ KeepsBut [.boot] s u)
     (r.op = 0 → r.off = 0xFFFF → goes (next s.boot)) ∧
     (∀ row, r.op = 0 → Reaches 0x7F r.page r.off s → regAt r.page r.off = some row →
       (0x160 ≤ r.page ∧ r.page < 0x170 ∨ r.page = 0x1A6 ∨ 0x1B0 ≤ r.page ∧ r.page < 0x1C0) →
       (row.acc = .rw ∨ row.acc = .rwd ∧ rb r.page 8 0 s = false ∧ frozenPage r.page s = false) →
       Runs (.startupRecord t tmo) s (fun u => rd r.page r.off u = regNext r.page r.off row (rd r.page r.off s) (w32 r.value) s ∧
         u.boot = next s.boot ∧ KeepsBut [.boot, .regs, .resp] s u ∧ RegsBut [(r.page, r.off)] s u)) ∧
     (r.op = 0 → Reaches 0x7F r.page r.off s → regAt r.page r.off = none → r.page ≠ pgCon →
       Runs (.startupRecord t tmo) s (fun u => u.boot = next failed ∧ KeepsBut [.boot, .resp] s u)) ∧
     (r.op = 1 → (readyOf r.page (advance t s)).1 ≠ 1 → goes (next s.boot)) ∧
     (r.op = 1 → (readyOf r.page (advance t s)).1 = 1 → tmo = true → waited 200000 → goes (next failed)) ∧
     (r.op = 1 → (readyOf r.page (advance t s)).1 = 1 → (tmo = false ∨ ¬waited 200000) → goes s.boot) ∧
     (2 ≤ r.op → waited (min r.value 100000) → goes (next s.boot)) ∧
     (2 ≤ r.op → ¬waited (min r.value 100000) → goes s.boot))) ∧
  (∀ t p pass s, held s = false →
    (let bas (u : State) : Prop := u.bas = (if memAllReady s && !s.bas.memReady then
       { s.bas with memReady := true, creditAt := tmCycle (advance t s) } else s.bas)
     let first := pageLive p s = true ∧ p < 512 ∧ look 0 s.boot.ready p = 0
     (first → Runs (.pageStateChange t p pass) s (fun u => u.boot = { s.boot with
         ready := put 0 s.boot.ready p (if pass then 1 else 2)
         weakLogged := s.boot.weakLogged || (p == 2 && pass && !s.boot.weak.isEmpty) } ∧ bas u ∧ KeepsBut [.boot, .bas] s u)) ∧
     (¬first → Runs (.pageStateChange t p pass) s (fun u => bas u ∧ KeepsBut [.bas] s u))))

/-- The record in force after a write of a boot control record is the one written, with SEQ one higher (R482, R483). -/
def Obligations.BootRecordInForce : Prop :=
  ∀ (f : BootRec → BootRec) (s : State), (f (theRec s)).seq = (theRec s).seq → (f (theRec s)).preferred < 256 → (f (theRec s)).try_ < 256 → (f (theRec s)).left < 256 →
    theRec (writeRec f s) = { f (theRec s) with seq := ((theRec s).seq + 1) % 2 ^ 32 } ∧ KeepsBut [.fixed] s (writeRec f s)

/-- Firmware, flash, verifier and fuse commands. While a set runs, CONFIRM, TRY_OTHER and RECOVERY write the boot control record and CHECK_OTHER checks
the other bank (R495). A flash command starts when none is under way, touches nothing protected and does its work, or ends with its code (R496). The
verifier returns its code after its time, and takes no work while it is busy (R485). A burn that is allowed sets the bits asked for in
the copies that do not fail, and shows whether one did (R481, R508). What is refused, or not under way, leaves all as it was. -/
def Obligations.FirmwareCommands : Prop :=
  (∀ t o b s, Reaches o pgFw 0x10C s → s.boot.active = some b → s.boot.recovery = false →
    Runs (.fwConfirm t o) s (fun u => u.boot = { s.boot with confirmed := true } ∧
      u.fixed = (writeRec (fun r => { r with preferred := b, try_ := 0xFF, left := 0, force := false }) s).fixed ∧ KeepsBut [.boot, .fixed, .resp] s u) ∧
    Runs (.tryOther t o) s (fun u => u.fixed = (writeRec (fun r => { r with try_ := 1 - b, left := 1, force := false }) s).fixed ∧
      KeepsBut [.fixed, .resp] s u) ∧
    Runs (.recovery t o) s (fun u => u.fixed = (writeRec (fun r => { r with force := true }) s).fixed ∧ KeepsBut [.fixed, .resp] s u) ∧
    (s.boot.checkBusy = false → Runs (.checkOther t o) s (fun u => u.boot = { s.boot with checkBusy := true } ∧ KeepsBut [.boot, .resp] s u)) ∧
    (s.boot.checkBusy = true → Runs (.checkOther t o) s (fun u => KeepsBut [.resp] s u))) ∧
  (∀ t o s, Reaches o pgFw 0x10C s → (s.boot.active = none ∨ s.boot.recovery = true) →
    Runs (.fwConfirm t o) s (fun u => KeepsBut [.resp] s u) ∧ Runs (.tryOther t o) s (fun u => KeepsBut [.resp] s u) ∧
    Runs (.recovery t o) s (fun u => KeepsBut [.resp] s u) ∧ Runs (.checkOther t o) s (fun u => KeepsBut [.resp] s u)) ∧
  (∀ t err b s, held s = false → s.boot.active = some b → s.boot.checkBusy = true →
    (let k := 1 - b
     let res := bankCheck k err (advance t s)
     let x1 : Boot := if k = 0 then { s.boot with refuseA := res.code } else { s.boot with refuseB := res.code }
     let x : Boot := if res.code = 1 ∨ res.code = 2 then x1 else { x1 with pkvLast := res.pkv + k * 256 }
     Runs (.checkDone t err) s (fun u => u.boot = { x with checkBusy := false } ∧ KeepsBut [.boot] s u))) ∧
  (∀ t err s, held s = false → (s.boot.active = none ∨ s.boot.checkBusy = false) → Runs (.checkDone t err) s (fun u => KeepsBut [] s u)) ∧
  (∀ t o s, Reaches o pgFw 0x134 s →
    (let Q (op : Nat) (u : State) : Prop := u.boot = { s.boot with
        flashBusy := true, flashDone := false, flashOp := op, flashAddr := rf pgFw 0x130 8 20 s * 256 } ∧ KeepsBut [.boot, .resp] s u
     let N (u : State) : Prop := KeepsBut [.resp] s u
     (s.boot.flashBusy = false → Runs (.flashRead t o) s (Q 0) ∧ Runs (.flashProgram t o) s (Q 1) ∧ Runs (.flashErase t o) s (Q 2)) ∧
     (s.boot.flashBusy = true → Runs (.flashRead t o) s N ∧ Runs (.flashProgram t o) s N ∧ Runs (.flashErase t o) s N))) ∧
  (∀ t err s, held s = false → s.boot.flashBusy = false → Runs (.flashDone t err) s (fun u => KeepsBut [] s u)) ∧
  (∀ t err s, held s = false → s.boot.flashBusy = true →
    (let a := s.boot.flashAddr
     let guarded := flashProtected s.boot.flashOp a s = true
     let ended (code : Nat) (u : State) : Prop := u.boot = { s.boot with flashBusy := false, flashDone := true, flashResult := code }
     (guarded → Runs (.flashDone t err) s (fun u => ended 1 u ∧ KeepsBut [.boot] s u)) ∧
     (¬guarded → err = true → Runs (.flashDone t err) s (fun u => ended 2 u ∧ KeepsBut [.boot] s u)) ∧
     (¬guarded → err = false → s.boot.flashOp = 0 → Runs (.flashDone t err) s (fun u => ended 0 u ∧
       (∀ i, i < 64 → tw tbFlash 0 i u = byteWord (flashAt a 256 s) i) ∧
       (∀ x i w, tkey x i w / 64 ≠ tkey tbFlash 0 0 / 64 → tw x i w u = tw x i w s) ∧
       (∀ p off, p ≠ 2 → 0x100 ≤ off → off < 65536 → rd p off u = rd p off s) ∧ KeepsBut [.boot, .regs] s u)) ∧
     (¬guarded → err = false → s.boot.flashOp = 1 → Runs (.flashDone t err) s (fun u => ended 0 u ∧
       flashAt a 256 u = tblBytes tbFlash 256 s ∧
       (∀ k, k < a ∨ a + 256 ≤ k → look 0xFF u.fixed.flash k = look 0xFF s.fixed.flash k) ∧ u.fixed = { s.fixed with flash := u.fixed.flash } ∧
       KeepsBut [.boot, .fixed] s u)) ∧
     (¬guarded → err = false → s.boot.flashOp = 2 → Runs (.flashDone t err) s (fun u => ended 0 u ∧
       (∀ k, look 0xFF u.fixed.flash k = (if k / 65536 = a / 65536 then 0xFF else look 0xFF s.fixed.flash k)) ∧
       u.fixed = { s.fixed with flash := u.fixed.flash } ∧ KeepsBut [.boot, .fixed] s u)))) ∧
  (∀ t o root s, Reaches o pgFw 0x140 s →
    (let b := tblBytes tbPkv 240 s
     let f (i : Nat) : Nat := beAt b (48 * i) 48
     (pkvRefused s = false → Runs (.pkvVerify t o root) s (fun u => u.boot = { s.boot with
       pkvBusy := true
       pkvDone := false
       pkvNext := pkvCode (if root then some (!(rootSlots (f 1) (f 2) s).isEmpty) else none) (f 0) (f 1) (f 2) (f 3) (f 4)
       pkvAt := (advance t s).tim.up } ∧ KeepsBut [.boot, .resp] s u)) ∧
     (pkvRefused s = true → Runs (.pkvVerify t o root) s (fun u => KeepsBut [.resp] s u)))) ∧
  (∀ t s, held s = false →
    (let due := s.boot.pkvBusy = true ∧ s.boot.pkvAt + 3199000 * 2 ^ 32 ≤ (advance t s).tim.up
     (due → Runs (.verifyDone t) s (fun u => u.boot = { s.boot with pkvBusy := false, pkvDone := true, pkvCode := s.boot.pkvNext } ∧ KeepsBut [.boot] s u)) ∧
     (¬due → Runs (.verifyDone t) s (fun u => KeepsBut [] s u)))) ∧
  (∀ t o v s, Reaches o pgFuse 0x114 s →
    (let denied := !(pfSide o || o == 0x7E) || !s.boot.confirmed || s.boot.recovery || s.boot.fuseBusy ||
      s.boot.rootSlot.any (fun k => nbit (fld v 0 4) k)
     Runs (.fuseProg t o v) s (fun u => u.boot = (if denied then { s.boot with fuseDenied := true } else { s.boot with
         fuseBusy := true
         fuseDone := false
         fuseFail := false
         fuseDenied := false
         fuseReq := v.toNat % 512
         fuseOrigin := o }) ∧ KeepsBut [.boot, .regs, .resp] s u ∧ RegsBut [(pgFuse, 0x114)] s u))) ∧
  (∀ t failed s, held s = false → s.boot.fuseBusy = true →
    (let mask (i : Nat) : Word := (((burnMasks s).find? (fun e => e.1 == i / 3)).map (·.2)).getD 0
     let fails (i : Nat) : Prop := i ∈ failed ∧ mask i &&& ~~~(look 0 s.fixed.fuse i) ≠ 0
     Runs (.burnDone t failed) s (fun u => u.boot = { s.boot with fuseBusy := false, fuseDone := true, fuseFail := u.boot.fuseFail } ∧
       (u.boot.fuseFail = true ↔ ∃ i, fails i) ∧
       (∀ i, i ∉ failed → look 0 u.fixed.fuse i = look 0 s.fixed.fuse i ||| mask i) ∧
       (∀ i, i ∈ failed → look 0 u.fixed.fuse i = look 0 s.fixed.fuse i) ∧
       u.fixed = { s.fixed with fuse := u.fixed.fuse } ∧ KeepsBut [.boot, .fixed] s u))) ∧
  (∀ t failed s, held s = false → s.boot.fuseBusy = false → Runs (.burnDone t failed) s (fun u => KeepsBut [] s u))

/-! ## JTAG and the die-to-die link -/

/-- The JTAG instructions (R480, R515, R516): the boundary-scan ones take the device out of service, IDCODE reads the identification of the device's
revision (its version on a revision other than B0 is the model's open value, log entry 257), a locked part refuses DEVRESET. REGACC reads and writes registers, and
LIFECYCLE whatever the device's state, but reaches no other page while the device is in reset, nor on a locked part. -/
def Obligations.JtagCommands : Prop :=
  (∀ t s, Runs (.idcode t) s (fun u => u.jtag = { s.jtag with
      ir := 1
      pinsFloat := false
      dr := if s.fixed.ident.rev = 0x4230 then 0x151205AF else Config.idVersion s.fixed.ident.rev % 16 * 2 ^ 28 + 0x051205AF } ∧
    KeepsBut [.jtag] s u)) ∧
  (∀ t s, Runs (.samplePreload t) s (fun u => u.jtag = { s.jtag with ir := 2, pinsFloat := false } ∧ KeepsBut [.jtag] s u)) ∧
  (∀ t s, Runs (.extest t) s (fun u => u.jtag = { s.jtag with ir := 3, outOfService := true, pinsFloat := false } ∧ KeepsBut [.jtag] s u)) ∧
  (∀ t s, Runs (.extestPulse t) s (fun u => u.jtag = { s.jtag with ir := 4, outOfService := true, pinsFloat := false } ∧ KeepsBut [.jtag] s u)) ∧
  (∀ t s, Runs (.extestTrain t) s (fun u => u.jtag = { s.jtag with ir := 5, outOfService := true, pinsFloat := false } ∧ KeepsBut [.jtag] s u)) ∧
  (∀ t s, Runs (.highz t) s (fun u => u.jtag = { s.jtag with ir := 6, outOfService := true, pinsFloat := true } ∧ KeepsBut [.jtag] s u)) ∧
  (∀ t s, Runs (.clamp t) s (fun u => u.jtag = { s.jtag with ir := 7, outOfService := true, pinsFloat := false } ∧ KeepsBut [.jtag] s u)) ∧
  (∀ t ir s, Runs (.bypass t ir) s (fun u => u.jtag = { s.jtag with ir := ir % 256, pinsFloat := false } ∧ KeepsBut [.jtag] s u)) ∧
  (∀ t s, jtagLocked s = true → Runs (.devreset t) s (fun u => u.jtag = { s.jtag with ir := 0xFF, pinsFloat := false } ∧ KeepsBut [.jtag] s u)) ∧
  (∀ t s, find? s.regs.latch (lkey 0x7E (rkey 6 0x104)) = none → Runs (.regacc t (6 * 2 ^ 54 + 0x104 / 4 * 2 ^ 40)) s (fun u => u.jtag = { s.jtag with
      ir := 0x20
      pinsFloat := false
      status := 0
      dr := (w32 (lifecycle s)).toNat } ∧ KeepsBut [.jtag, .resp, .regs] s u ∧ RegsBut [] s u)) ∧
  (∀ t p off v row s, Reaches 0x7E p off s → regAt p off = some row → off % 4 = 0 →
    (0x160 ≤ p ∧ p < 0x170 ∨ p = 0x1A6 ∨ 0x1B0 ≤ p ∧ p < 0x1C0) →
    (row.acc = .rw ∨ row.acc = .rwd ∧ rb p 8 0 s = false ∧ frozenPage p s = false) →
    Runs (.regacc t (2 ^ 63 + p * 2 ^ 54 + off / 4 * 2 ^ 40 + v.toNat)) s (fun u =>
      u.jtag = { s.jtag with ir := 0x20, pinsFloat := false, status := 0 } ∧ rd p off u = regNext p off row (rd p off s) v s ∧
      KeepsBut [.jtag, .regs, .resp] s u ∧ RegsBut [(p, off)] s u)) ∧
  (∀ t w s, held s = true → (nbit w 63 = true ∨ nfld w 54 9 ≠ 6) →
    Runs (.regacc t w) s (fun u => u.jtag = { s.jtag with ir := 0x20, pinsFloat := false, status := 2 } ∧ KeepsBut [.jtag] s u)) ∧
  (∀ t w s, held s = false → jtagLocked s = true → (nbit w 63 = true ∨ nfld w 54 9 ≠ 6) → nfld w 54 9 ≠ pgCon →
    Runs (.regacc t w) s (fun u => u.jtag = { s.jtag with
      ir := 0x20
      pinsFloat := false
      status := 1
      dr := if nbit w 63 then s.jtag.dr else 0xFFFFFFFF } ∧ KeepsBut [.jtag, .resp] s u))

/-- The die-to-die link. A good flit of channel S or M delivers the messages that its slot carries; an uncorrectable one, and those after it, wait, and
are delivered in order at the replay (R14-R16, R18). A flit of channel D, X or C acts at its turn among the slices of its channel and waits before it; a
good one loses no frame of its channel, one at the wrong channel is discarded, and an uncorrectable one loses its bulk frame or its
capture record (R13, R14, R16, R18). The 17th uncorrectable flit of a slice in an epoch puts the link in its fault state (R19). -/
def Obligations.DieLinkCommands : Prop :=
  (∀ t dir n chk items s, held s = false → 64 ≤ n →
    Runs (.flitReceive t dir n chk items) s (fun u => KeepsBut [] s u) ∧ Runs (.flitReplay t dir n) s (fun u => KeepsBut [] s u)) ∧
  (∀ t dir n s, held s = false → n < 62 → Runs (.flitReplay t dir n) s (fun u => KeepsBut [] s u)) ∧
  (∀ t dir n chk items s, held s = false → s.arc.taps = [] → (n = 62 ∨ n = 63) →
    (let c := sliceChan n
     let k := dieKey dir c
     let j := 64 * (dir % 2) + n
     let open_ : Bool := s.tim.issued.any (fun b => decide (b.at_ ≤ nowStamp (advance t s)))
     let count := look 0 (if open_ then s.link.uncorrNext else s.link.uncorr) j
     let held_ := flitHolds c (look 0 s.link.slotsSent k % 8) items
     let waits := look [] s.link.awaiting k
     let kept := look [] s.link.replayBuf k ++ [held_]
     let sent (u : State) : Prop := look 0 u.link.slotsSent k = look 0 s.link.slotsSent k + 1 ∧
       look [] u.link.replayBuf k = kept.drop (kept.length - 64) ∧
       (∀ i, i ≠ k → look [] u.link.awaiting i = look [] s.link.awaiting i ∧ look 0 u.link.delivered i = look 0 s.link.delivered i) ∧
       u.link.early = s.link.early ∧ u.link.nextPlace = s.link.nextPlace
     (chk ≠ .uncorrectable → waits = [] → Runs (.flitReceive t dir n chk items) s (fun u => sent u ∧
       look 0 u.link.delivered k = look 0 s.link.delivered k + held_.length ∧ look [] u.link.awaiting k = [] ∧
       look 0 u.link.corrected k = look 0 s.link.corrected k + b2n (chk == .corrected) ∧ u.link.uncorr = s.link.uncorr ∧ KeepsBut [.link] s u)) ∧
     (chk ≠ .uncorrectable → waits ≠ [] → Runs (.flitReceive t dir n chk items) s (fun u => sent u ∧
       look 0 u.link.delivered k = look 0 s.link.delivered k ∧ look [] u.link.awaiting k = waits ++ [held_] ∧ KeepsBut [.link] s u)) ∧
     (chk = .uncorrectable → Runs (.flitReceive t dir n chk items) s (fun u => sent u ∧
       look 0 u.link.delivered k = look 0 s.link.delivered k ∧ look [] u.link.awaiting k = waits ++ [held_] ∧
       look 0 (if open_ then u.link.uncorrNext else u.link.uncorr) j = count + 1 ∧
       (count ≠ 16 → u.link.fault = s.link.fault ∧ KeepsBut [.link] s u) ∧
       (count = 16 → u.link.fault = true ∧ 2 ∈ u.pair.trig ∧ KeepsBut [.link, .pair] s u))))) ∧
  (∀ t dir n s, held s = false → (n = 62 ∨ n = 63) →
    (let k := dieKey dir (sliceChan n)
     let waits := look [] s.link.awaiting k
     let buf := look [] s.link.replayBuf k
     let sent := (buf.drop (buf.length - waits.length)).flatten
     Runs (.flitReplay t dir n) s (fun u => look [] u.link.awaiting k = [] ∧ look 0 u.link.delivered k = look 0 s.link.delivered k +
         (sent.filter (fun i => match i with
           | .message .. => true
           | _ => false)).length ∧
       (∀ i, i ≠ k → look [] u.link.awaiting i = look [] s.link.awaiting i ∧ look 0 u.link.delivered i = look 0 s.link.delivered i) ∧
       KeepsBut [.link] s u))) ∧
  (∀ t dir n chk items s, held s = false → s.arc.taps = [] → n < 62 →
    (let c := sliceChan n
     let k := dieKey dir c
     let j := 64 * (dir % 2) + n
     let base := (chanSlices c).1
     let place := look 0 s.link.nextPlace k
     let count := look 0 (if s.tim.issued.any (fun b => decide (b.at_ ≤ nowStamp (advance t s))) then s.link.uncorrNext else s.link.uncorr) j
     let turn := base + place = n ∧ ∀ i, i < (chanSlices c).2 → look [] s.link.early (64 * (dir % 2) + base + i) = []
     let acts (id : Nat) : Prop := find? s.bas.desc id = none ∧ stagedAt id s = none
     let moved (u : State) : Prop := look 0 u.link.nextPlace k = (place + 1) % (chanSlices c).2 ∧
       (∀ i, look [] u.link.early i = look [] s.link.early i) ∧ u.link.awaiting = s.link.awaiting ∧ u.link.replayBuf = s.link.replayBuf
     (chk ≠ .uncorrectable → base + place ≠ n → look [] s.link.early (64 * (dir % 2) + base + place) = [] →
       Runs (.flitReceive t dir n chk items) s (fun u => look [] u.link.early j = look [] s.link.early j ++ [(false, items)] ∧
         (∀ i, i ≠ j → look [] u.link.early i = look [] s.link.early i) ∧ u.link.nextPlace = s.link.nextPlace ∧ KeepsBut [.link] s u)) ∧
     (chk ≠ .uncorrectable → turn → items.all (fun i => match i with
         | .frame _ x _ => x == (c == .chX)
         | .record .. => true
         | .message .. => false) = true →
       Runs (.flitReceive t dir n chk items) s (fun u => moved u ∧ u.link.wrong = s.link.wrong ∧ KeepsBut [.link] s u)) ∧
     (∀ id m, chk ≠ .uncorrectable → turn → c = .chX → items = [.frame id false m] → acts id →
       Runs (.flitReceive t dir n chk items) s (fun u => moved u ∧ look 0 u.link.wrong k = look 0 s.link.wrong k + 1 ∧
         frmLive id u = false ∧ (∀ i, i ≠ id → find? u.lic.frames i = find? s.lic.frames i) ∧ KeepsBut [.link, .lic] s u)) ∧
     (∀ id m, chk = .uncorrectable → count ≠ 16 → turn → items = [.frame id false m] → acts id →
       Runs (.flitReceive t dir n chk items) s (fun u => moved u ∧ look 0 u.link.lostFrames k = look 0 s.link.lostFrames k + 1 ∧
         frmLive id u = false ∧ (∀ i, i ≠ id → find? u.lic.frames i = find? s.lic.frames i) ∧ KeepsBut [.link, .lic] s u)) ∧
     (∀ id m, chk = .uncorrectable → count ≠ 16 → turn → items = [.record id m] → find? s.bas.desc id = none →
       Runs (.flitReceive t dir n chk items) s (fun u => moved u ∧ frmLive id u = false ∧ find? u.arc.epochs id = none ∧
         (rd 0x1D0 0x120 u).toNat = satAdd (rd 0x1D0 0x120 s).toNat 1 (2 ^ 32 - 1) ∧
         KeepsBut [.link, .lic, .arc, .regs] s u ∧ RegsBut [(0x1D0, 0x120)] s u)) ∧
     (chk = .uncorrectable → count = 16 → items = [] → Runs (.flitReceive t dir n chk items) s (fun u => u.link.fault = true ∧ 2 ∈ u.pair.trig ∧
       KeepsBut [.link, .pair] s u))))
end

