-- ==== Sys2Proof/Laws/Sparse.lean ====
section
/-! SUPPORT. The laws of sparse tables and sets: a read after a write, and that writing keeps the canonical form. -/
namespace Sys2Proof.Machine

section
variable {α : Type}

@[simp] theorem look_nil (d : α) (i : Nat) : look d [] i = d := rfl
@[simp] theorem find?_nil (i : Nat) : find? ([] : Tab α) i = none := rfl

/-! ## Entries -/

@[simp] theorem find?_ins_self (m : Tab α) (i : Nat) (x : α) : find? (ins m i x) i = some x := by
  induction m with
  | nil => simp [ins, find?]
  | cons e r ih =>
    obtain ⟨k, v⟩ := e
    simp only [ins]
    by_cases h1 : i < k
    · simp [h1, find?]
    · by_cases h2 : i = k
      · simp [h2, find?]
      · simp [h1, h2, find?, ih]

theorem find?_ins_other (m : Tab α) (i j : Nat) (x : α) (h : j ≠ i) : find? (ins m i x) j = find? m j := by
  induction m with
  | nil => simp [ins, find?, h]
  | cons e r ih =>
    obtain ⟨k, v⟩ := e
    simp only [ins]
    by_cases h1 : i < k
    · simp [h1, find?, h]
    · by_cases h2 : i = k
      · subst h2; simp [find?, h]
      · simp only [h1, h2, if_false, find?, ih]

@[simp] theorem find?_del_self (m : Tab α) (i : Nat) : find? (del m i) i = none := by
  induction m with
  | nil => rfl
  | cons e r ih =>
    obtain ⟨k, v⟩ := e
    by_cases h : k = i
    · simpa [del, h] using ih
    · have h' : i ≠ k := fun q => h q.symm
      simpa [del, h, find?, h'] using ih

theorem find?_del_other (m : Tab α) (i j : Nat) (h : j ≠ i) : find? (del m i) j = find? m j := by
  induction m with
  | nil => rfl
  | cons e r ih =>
    obtain ⟨k, v⟩ := e
    by_cases hk : k = i
    · subst hk; simpa [del, find?, h] using ih
    · simp only [del] at ih
      simp [del, hk, find?, ih]

/-- A value is the entry's, or the default. -/
theorem look_find? (d : α) (m : Tab α) (i : Nat) : look d m i = (find? m i).getD d := by
  induction m with
  | nil => rfl
  | cons e r ih =>
    obtain ⟨k, v⟩ := e
    by_cases h : i = k <;> simp [look, find?, h, ih]

/-! ## Values -/

theorem put_eq [DecidableEq α] (d : α) (m : Tab α) (i : Nat) (x : α) : put d m i x = if x = d then del m i else ins m i x := by
  cases m <;> rfl

/-- A value written reads back. -/
@[simp] theorem look_put_self [DecidableEq α] (d : α) (m : Tab α) (i : Nat) (x : α) : look d (put d m i x) i = x := by
  rw [put_eq]; split
  · rename_i h; simp [look_find?, h]
  · simp [look_find?]

/-- Every other key reads as before. -/
theorem look_put_other [DecidableEq α] (c d : α) (m : Tab α) (i j : Nat) (x : α) (h : j ≠ i) : look c (put d m i x) j = look c m j := by
  rw [put_eq]; split
  · simp [look_find?, find?_del_other _ _ _ h]
  · simp [look_find?, find?_ins_other _ _ _ _ h]

/-! ## The canonical form -/

theorem rising_cons (k : Nat) (v : α) (r : Tab α) : rising ((k, v) :: r) ↔ (∀ e ∈ r, k < e.1) ∧ rising r := by
  induction r generalizing k v with
  | nil => simp [rising]
  | cons e r ih =>
    obtain ⟨a, b⟩ := e
    constructor
    · intro h
      simp only [rising, Bool.and_eq_true, decide_eq_true_eq] at h
      refine ⟨fun e he => ?_, h.2⟩
      rcases List.mem_cons.1 he with h1 | h1
      · rw [h1]; exact h.1
      · exact Nat.lt_trans h.1 (((ih a b).1 h.2).1 e h1)
    · intro h
      simp only [rising, Bool.and_eq_true, decide_eq_true_eq]
      exact ⟨h.1 (a, b) (List.mem_cons_self ..), h.2⟩

theorem mem_ins (m : Tab α) (i : Nat) (x : α) (e : Nat × α) (h : e ∈ ins m i x) : e = (i, x) ∨ e ∈ m := by
  induction m with
  | nil => simpa [ins] using h
  | cons f r ih =>
    obtain ⟨k, v⟩ := f
    simp only [ins] at h
    by_cases h1 : i < k
    · simpa [h1] using h
    · by_cases h2 : i = k
      · subst h2
        simp only [Nat.lt_irrefl, if_false, if_true, List.mem_cons] at h ⊢
        rcases h with h | h
        · exact .inl h
        · exact .inr (.inr h)
      · simp only [h1, h2, if_false, List.mem_cons] at h ⊢
        rcases h with h | h
        · exact .inr (.inl h)
        · exact (ih h).imp id .inr

theorem del_rising (m : Tab α) (i : Nat) (h : rising m) : rising (del m i) := by
  induction m with
  | nil => rfl
  | cons e r ih =>
    obtain ⟨k, v⟩ := e
    have hr := (rising_cons k v r).1 h
    by_cases hk : k = i
    · simpa [del, hk] using ih hr.2
    · have : del ((k, v) :: r) i = (k, v) :: del r i := by simp [del, hk]
      rw [this, rising_cons]
      exact ⟨fun e he => hr.1 e (List.mem_filter.1 he).1, ih hr.2⟩

theorem ins_rising (m : Tab α) (i : Nat) (x : α) (h : rising m) : rising (ins m i x) := by
  induction m with
  | nil => rfl
  | cons e r ih =>
    obtain ⟨k, v⟩ := e
    have hr := (rising_cons k v r).1 h
    simp only [ins]
    by_cases h1 : i < k
    · rw [if_pos h1, rising_cons]
      refine ⟨fun e he => ?_, h⟩
      rcases List.mem_cons.1 he with h2 | h2
      · rw [h2]; exact h1
      · exact Nat.lt_trans h1 (hr.1 e h2)
    · by_cases h2 : i = k
      · subst h2
        simp only [Nat.lt_irrefl, if_false, if_true]
        exact (rising_cons i x r).2 hr
      · simp only [h1, h2, if_false]
        refine (rising_cons k v _).2 ⟨fun e he => ?_, ih hr.2⟩
        rcases mem_ins r i x e he with h3 | h3
        · rw [h3]; show k < i; omega
        · exact hr.1 e h3

/-- A write keeps the keys rising. -/
theorem put_rising [DecidableEq α] (d : α) (m : Tab α) (i : Nat) (x : α) (h : rising m) : rising (put d m i x) := by
  rw [put_eq]; split
  · exact del_rising m i h
  · exact ins_rising m i x h

/-- A write lists nothing but what was listed and the value written, which is listed only when it is not the default. -/
theorem mem_put [DecidableEq α] (d : α) (m : Tab α) (i : Nat) (x : α) (e : Nat × α) (h : e ∈ put d m i x) : e ∈ m ∨ (e = (i, x) ∧ x ≠ d) := by
  rw [put_eq] at h
  split at h
  · exact .inl (List.mem_filter.1 h).1
  · rename_i hx
    exact (mem_ins m i x e h).elim (fun q => .inr ⟨q, hx⟩) .inl

/-- A write keeps the canonical form. -/
theorem put_wf [DecidableEq α] (d : α) (m : Tab α) (i : Nat) (x : α) (h : Tab.wf d m) : Tab.wf d (put d m i x) := by
  simp only [Tab.wf, Bool.and_eq_true, List.all_eq_true, Bool.not_eq_true', decide_eq_false_iff_not] at h ⊢
  refine ⟨put_rising d m i x h.1, fun e he => ?_⟩
  rcases mem_put d m i x e he with h1 | ⟨h1, h2⟩
  · exact h.2 e h1
  · subst h1; exact h2

/-- A write with the key's own default keeps the canonical form of a table whose default depends on the key. -/
theorem put_wfBy [DecidableEq α] (d : Nat → α) (m : Tab α) (i : Nat) (x : α) (h : Tab.wfBy d m) : Tab.wfBy d (put (d i) m i x) := by
  simp only [Tab.wfBy, Bool.and_eq_true, List.all_eq_true, Bool.not_eq_true', decide_eq_false_iff_not] at h ⊢
  refine ⟨put_rising (d i) m i x h.1, fun e he => ?_⟩
  rcases mem_put (d i) m i x e he with h1 | ⟨h1, h2⟩
  · exact h.2 e h1
  · subst h1; exact h2

end

/-! ## Sets -/

theorem mem_add (m : List Nat) (i j : Nat) : j ∈ add m i ↔ j = i ∨ j ∈ m := by
  induction m with
  | nil => simp [add]
  | cons k r ih =>
    simp only [add]
    by_cases h1 : i < k
    · simp [h1]
    · by_cases h2 : i = k
      · subst h2; simp
      · simp [h1, h2, ih, or_left_comm]

@[simp] theorem mem_rem (m : List Nat) (i j : Nat) : j ∈ rem m i ↔ j ∈ m ∧ j ≠ i := by simp [rem]

@[simp] theorem has_add_self (m : List Nat) (i : Nat) : has (add m i) i = true := by simp [has, mem_add]
@[simp] theorem has_rem_self (m : List Nat) (i : Nat) : has (rem m i) i = false := by simp [has]

end Sys2Proof.Machine
end

