-- ==== Sys2Proof/Laws/State.lean ====
section
/-! SUPPORT. What each update of the state leaves: one lemma for each field and update. -/
namespace Sys2Proof.Machine

@[simp] theorem setLatch_link (o k : Nat) (w : Word) (s : State) : (setLatch o k w s).link = s.link := rfl
@[simp] theorem setLatch_lock (o k : Nat) (w : Word) (s : State) : (setLatch o k w s).lock = s.lock := rfl
@[simp] theorem setLatch_log (o k : Nat) (w : Word) (s : State) : (setLatch o k w s).log = s.log := rfl
@[simp] theorem setLatch_snap (o k : Nat) (w : Word) (s : State) : (setLatch o k w s).snap = s.snap := rfl
@[simp] theorem setLatch_irq (o k : Nat) (w : Word) (s : State) : (setLatch o k w s).irq = s.irq := rfl
@[simp] theorem setLatch_resp (o k : Nat) (w : Word) (s : State) : (setLatch o k w s).resp = s.resp := rfl
@[simp] theorem setLatch_tim (o k : Nat) (w : Word) (s : State) : (setLatch o k w s).tim = s.tim := rfl
@[simp] theorem setLatch_boot (o k : Nat) (w : Word) (s : State) : (setLatch o k w s).boot = s.boot := rfl
@[simp] theorem setLatch_fixed (o k : Nat) (w : Word) (s : State) : (setLatch o k w s).fixed = s.fixed := rfl
@[simp] theorem setLatch_jtag (o k : Nat) (w : Word) (s : State) : (setLatch o k w s).jtag = s.jtag := rfl
@[simp] theorem setLatch_lic (o k : Nat) (w : Word) (s : State) : (setLatch o k w s).lic = s.lic := rfl
@[simp] theorem setLatch_sdh (o k : Nat) (w : Word) (s : State) : (setLatch o k w s).sdh = s.sdh := rfl
@[simp] theorem setLatch_pac (o k : Nat) (w : Word) (s : State) : (setLatch o k w s).pac = s.pac := rfl
@[simp] theorem setLatch_ftb (o k : Nat) (w : Word) (s : State) : (setLatch o k w s).ftb = s.ftb := rfl
@[simp] theorem setLatch_exp (o k : Nat) (w : Word) (s : State) : (setLatch o k w s).exp = s.exp := rfl
@[simp] theorem setLatch_bas (o k : Nat) (w : Word) (s : State) : (setLatch o k w s).bas = s.bas := rfl
@[simp] theorem setLatch_pcr (o k : Nat) (w : Word) (s : State) : (setLatch o k w s).pcr = s.pcr := rfl
@[simp] theorem setLatch_fab (o k : Nat) (w : Word) (s : State) : (setLatch o k w s).fab = s.fab := rfl
@[simp] theorem setLatch_mem (o k : Nat) (w : Word) (s : State) : (setLatch o k w s).mem = s.mem := rfl
@[simp] theorem setLatch_arc (o k : Nat) (w : Word) (s : State) : (setLatch o k w s).arc = s.arc := rfl
@[simp] theorem setLatch_pair (o k : Nat) (w : Word) (s : State) : (setLatch o k w s).pair = s.pair := rfl
@[simp] theorem setLatch_msh (o k : Nat) (w : Word) (s : State) : (setLatch o k w s).msh = s.msh := rfl
@[simp] theorem setLatch_hif (o k : Nat) (w : Word) (s : State) : (setLatch o k w s).hif = s.hif := rfl
@[simp] theorem setLatch_free (o k : Nat) (w : Word) (s : State) : (setLatch o k w s).free = s.free := rfl
@[simp] theorem setLatch_pending (o k : Nat) (w : Word) (s : State) : (setLatch o k w s).pending = s.pending := rfl

@[simp] theorem setChm_link (k : Nat) (v : Word) (s : State) : (setChm k v s).link = s.link := rfl
@[simp] theorem setChm_lock (k : Nat) (v : Word) (s : State) : (setChm k v s).lock = s.lock := rfl
@[simp] theorem setChm_log (k : Nat) (v : Word) (s : State) : (setChm k v s).log = s.log := rfl
@[simp] theorem setChm_snap (k : Nat) (v : Word) (s : State) : (setChm k v s).snap = s.snap := rfl
@[simp] theorem setChm_irq (k : Nat) (v : Word) (s : State) : (setChm k v s).irq = s.irq := rfl
@[simp] theorem setChm_resp (k : Nat) (v : Word) (s : State) : (setChm k v s).resp = s.resp := rfl
@[simp] theorem setChm_tim (k : Nat) (v : Word) (s : State) : (setChm k v s).tim = s.tim := rfl
@[simp] theorem setChm_boot (k : Nat) (v : Word) (s : State) : (setChm k v s).boot = s.boot := rfl
@[simp] theorem setChm_fixed (k : Nat) (v : Word) (s : State) : (setChm k v s).fixed = s.fixed := rfl
@[simp] theorem setChm_jtag (k : Nat) (v : Word) (s : State) : (setChm k v s).jtag = s.jtag := rfl
@[simp] theorem setChm_lic (k : Nat) (v : Word) (s : State) : (setChm k v s).lic = s.lic := rfl
@[simp] theorem setChm_sdh (k : Nat) (v : Word) (s : State) : (setChm k v s).sdh = s.sdh := rfl
@[simp] theorem setChm_pac (k : Nat) (v : Word) (s : State) : (setChm k v s).pac = s.pac := rfl
@[simp] theorem setChm_ftb (k : Nat) (v : Word) (s : State) : (setChm k v s).ftb = s.ftb := rfl
@[simp] theorem setChm_exp (k : Nat) (v : Word) (s : State) : (setChm k v s).exp = s.exp := rfl
@[simp] theorem setChm_bas (k : Nat) (v : Word) (s : State) : (setChm k v s).bas = s.bas := rfl
@[simp] theorem setChm_pcr (k : Nat) (v : Word) (s : State) : (setChm k v s).pcr = s.pcr := rfl
@[simp] theorem setChm_fab (k : Nat) (v : Word) (s : State) : (setChm k v s).fab = s.fab := rfl
@[simp] theorem setChm_mem (k : Nat) (v : Word) (s : State) : (setChm k v s).mem = s.mem := rfl
@[simp] theorem setChm_arc (k : Nat) (v : Word) (s : State) : (setChm k v s).arc = s.arc := rfl
@[simp] theorem setChm_pair (k : Nat) (v : Word) (s : State) : (setChm k v s).pair = s.pair := rfl
@[simp] theorem setChm_msh (k : Nat) (v : Word) (s : State) : (setChm k v s).msh = s.msh := rfl
@[simp] theorem setChm_hif (k : Nat) (v : Word) (s : State) : (setChm k v s).hif = s.hif := rfl
@[simp] theorem setChm_free (k : Nat) (v : Word) (s : State) : (setChm k v s).free = s.free := rfl
@[simp] theorem setChm_pending (k : Nat) (v : Word) (s : State) : (setChm k v s).pending = s.pending := rfl

@[simp] theorem wr_link (p off : Nat) (v : Word) (s : State) : (wr p off v s).link = s.link := rfl
@[simp] theorem wr_lock (p off : Nat) (v : Word) (s : State) : (wr p off v s).lock = s.lock := rfl
@[simp] theorem wr_log (p off : Nat) (v : Word) (s : State) : (wr p off v s).log = s.log := rfl
@[simp] theorem wr_snap (p off : Nat) (v : Word) (s : State) : (wr p off v s).snap = s.snap := rfl
@[simp] theorem wr_irq (p off : Nat) (v : Word) (s : State) : (wr p off v s).irq = s.irq := rfl
@[simp] theorem wr_resp (p off : Nat) (v : Word) (s : State) : (wr p off v s).resp = s.resp := rfl
@[simp] theorem wr_tim (p off : Nat) (v : Word) (s : State) : (wr p off v s).tim = s.tim := rfl
@[simp] theorem wr_boot (p off : Nat) (v : Word) (s : State) : (wr p off v s).boot = s.boot := rfl
@[simp] theorem wr_fixed (p off : Nat) (v : Word) (s : State) : (wr p off v s).fixed = s.fixed := rfl
@[simp] theorem wr_jtag (p off : Nat) (v : Word) (s : State) : (wr p off v s).jtag = s.jtag := rfl
@[simp] theorem wr_lic (p off : Nat) (v : Word) (s : State) : (wr p off v s).lic = s.lic := rfl
@[simp] theorem wr_sdh (p off : Nat) (v : Word) (s : State) : (wr p off v s).sdh = s.sdh := rfl
@[simp] theorem wr_pac (p off : Nat) (v : Word) (s : State) : (wr p off v s).pac = s.pac := rfl
@[simp] theorem wr_ftb (p off : Nat) (v : Word) (s : State) : (wr p off v s).ftb = s.ftb := rfl
@[simp] theorem wr_exp (p off : Nat) (v : Word) (s : State) : (wr p off v s).exp = s.exp := rfl
@[simp] theorem wr_bas (p off : Nat) (v : Word) (s : State) : (wr p off v s).bas = s.bas := rfl
@[simp] theorem wr_pcr (p off : Nat) (v : Word) (s : State) : (wr p off v s).pcr = s.pcr := rfl
@[simp] theorem wr_fab (p off : Nat) (v : Word) (s : State) : (wr p off v s).fab = s.fab := rfl
@[simp] theorem wr_mem (p off : Nat) (v : Word) (s : State) : (wr p off v s).mem = s.mem := rfl
@[simp] theorem wr_arc (p off : Nat) (v : Word) (s : State) : (wr p off v s).arc = s.arc := rfl
@[simp] theorem wr_pair (p off : Nat) (v : Word) (s : State) : (wr p off v s).pair = s.pair := rfl
@[simp] theorem wr_msh (p off : Nat) (v : Word) (s : State) : (wr p off v s).msh = s.msh := rfl
@[simp] theorem wr_hif (p off : Nat) (v : Word) (s : State) : (wr p off v s).hif = s.hif := rfl
@[simp] theorem wr_free (p off : Nat) (v : Word) (s : State) : (wr p off v s).free = s.free := rfl
@[simp] theorem wr_pending (p off : Nat) (v : Word) (s : State) : (wr p off v s).pending = s.pending := rfl

@[simp] theorem wf_link (p off lo n v : Nat) (s : State) : (wf p off lo n v s).link = s.link := rfl
@[simp] theorem wf_lock (p off lo n v : Nat) (s : State) : (wf p off lo n v s).lock = s.lock := rfl
@[simp] theorem wf_log (p off lo n v : Nat) (s : State) : (wf p off lo n v s).log = s.log := rfl
@[simp] theorem wf_snap (p off lo n v : Nat) (s : State) : (wf p off lo n v s).snap = s.snap := rfl
@[simp] theorem wf_irq (p off lo n v : Nat) (s : State) : (wf p off lo n v s).irq = s.irq := rfl
@[simp] theorem wf_resp (p off lo n v : Nat) (s : State) : (wf p off lo n v s).resp = s.resp := rfl
@[simp] theorem wf_tim (p off lo n v : Nat) (s : State) : (wf p off lo n v s).tim = s.tim := rfl
@[simp] theorem wf_boot (p off lo n v : Nat) (s : State) : (wf p off lo n v s).boot = s.boot := rfl
@[simp] theorem wf_fixed (p off lo n v : Nat) (s : State) : (wf p off lo n v s).fixed = s.fixed := rfl
@[simp] theorem wf_jtag (p off lo n v : Nat) (s : State) : (wf p off lo n v s).jtag = s.jtag := rfl
@[simp] theorem wf_lic (p off lo n v : Nat) (s : State) : (wf p off lo n v s).lic = s.lic := rfl
@[simp] theorem wf_sdh (p off lo n v : Nat) (s : State) : (wf p off lo n v s).sdh = s.sdh := rfl
@[simp] theorem wf_pac (p off lo n v : Nat) (s : State) : (wf p off lo n v s).pac = s.pac := rfl
@[simp] theorem wf_ftb (p off lo n v : Nat) (s : State) : (wf p off lo n v s).ftb = s.ftb := rfl
@[simp] theorem wf_exp (p off lo n v : Nat) (s : State) : (wf p off lo n v s).exp = s.exp := rfl
@[simp] theorem wf_bas (p off lo n v : Nat) (s : State) : (wf p off lo n v s).bas = s.bas := rfl
@[simp] theorem wf_pcr (p off lo n v : Nat) (s : State) : (wf p off lo n v s).pcr = s.pcr := rfl
@[simp] theorem wf_fab (p off lo n v : Nat) (s : State) : (wf p off lo n v s).fab = s.fab := rfl
@[simp] theorem wf_mem (p off lo n v : Nat) (s : State) : (wf p off lo n v s).mem = s.mem := rfl
@[simp] theorem wf_arc (p off lo n v : Nat) (s : State) : (wf p off lo n v s).arc = s.arc := rfl
@[simp] theorem wf_pair (p off lo n v : Nat) (s : State) : (wf p off lo n v s).pair = s.pair := rfl
@[simp] theorem wf_msh (p off lo n v : Nat) (s : State) : (wf p off lo n v s).msh = s.msh := rfl
@[simp] theorem wf_hif (p off lo n v : Nat) (s : State) : (wf p off lo n v s).hif = s.hif := rfl
@[simp] theorem wf_free (p off lo n v : Nat) (s : State) : (wf p off lo n v s).free = s.free := rfl
@[simp] theorem wf_pending (p off lo n v : Nat) (s : State) : (wf p off lo n v s).pending = s.pending := rfl

@[simp] theorem setBits_link (p off mask : Nat) (s : State) : (setBits p off mask s).link = s.link := rfl
@[simp] theorem setBits_lock (p off mask : Nat) (s : State) : (setBits p off mask s).lock = s.lock := rfl
@[simp] theorem setBits_log (p off mask : Nat) (s : State) : (setBits p off mask s).log = s.log := rfl
@[simp] theorem setBits_snap (p off mask : Nat) (s : State) : (setBits p off mask s).snap = s.snap := rfl
@[simp] theorem setBits_irq (p off mask : Nat) (s : State) : (setBits p off mask s).irq = s.irq := rfl
@[simp] theorem setBits_resp (p off mask : Nat) (s : State) : (setBits p off mask s).resp = s.resp := rfl
@[simp] theorem setBits_tim (p off mask : Nat) (s : State) : (setBits p off mask s).tim = s.tim := rfl
@[simp] theorem setBits_boot (p off mask : Nat) (s : State) : (setBits p off mask s).boot = s.boot := rfl
@[simp] theorem setBits_fixed (p off mask : Nat) (s : State) : (setBits p off mask s).fixed = s.fixed := rfl
@[simp] theorem setBits_jtag (p off mask : Nat) (s : State) : (setBits p off mask s).jtag = s.jtag := rfl
@[simp] theorem setBits_lic (p off mask : Nat) (s : State) : (setBits p off mask s).lic = s.lic := rfl
@[simp] theorem setBits_sdh (p off mask : Nat) (s : State) : (setBits p off mask s).sdh = s.sdh := rfl
@[simp] theorem setBits_pac (p off mask : Nat) (s : State) : (setBits p off mask s).pac = s.pac := rfl
@[simp] theorem setBits_ftb (p off mask : Nat) (s : State) : (setBits p off mask s).ftb = s.ftb := rfl
@[simp] theorem setBits_exp (p off mask : Nat) (s : State) : (setBits p off mask s).exp = s.exp := rfl
@[simp] theorem setBits_bas (p off mask : Nat) (s : State) : (setBits p off mask s).bas = s.bas := rfl
@[simp] theorem setBits_pcr (p off mask : Nat) (s : State) : (setBits p off mask s).pcr = s.pcr := rfl
@[simp] theorem setBits_fab (p off mask : Nat) (s : State) : (setBits p off mask s).fab = s.fab := rfl
@[simp] theorem setBits_mem (p off mask : Nat) (s : State) : (setBits p off mask s).mem = s.mem := rfl
@[simp] theorem setBits_arc (p off mask : Nat) (s : State) : (setBits p off mask s).arc = s.arc := rfl
@[simp] theorem setBits_pair (p off mask : Nat) (s : State) : (setBits p off mask s).pair = s.pair := rfl
@[simp] theorem setBits_msh (p off mask : Nat) (s : State) : (setBits p off mask s).msh = s.msh := rfl
@[simp] theorem setBits_hif (p off mask : Nat) (s : State) : (setBits p off mask s).hif = s.hif := rfl
@[simp] theorem setBits_free (p off mask : Nat) (s : State) : (setBits p off mask s).free = s.free := rfl
@[simp] theorem setBits_pending (p off mask : Nat) (s : State) : (setBits p off mask s).pending = s.pending := rfl

@[simp] theorem bump_link (p off lo n k : Nat) (s : State) : (bump p off lo n k s).link = s.link := rfl
@[simp] theorem bump_lock (p off lo n k : Nat) (s : State) : (bump p off lo n k s).lock = s.lock := rfl
@[simp] theorem bump_log (p off lo n k : Nat) (s : State) : (bump p off lo n k s).log = s.log := rfl
@[simp] theorem bump_snap (p off lo n k : Nat) (s : State) : (bump p off lo n k s).snap = s.snap := rfl
@[simp] theorem bump_irq (p off lo n k : Nat) (s : State) : (bump p off lo n k s).irq = s.irq := rfl
@[simp] theorem bump_resp (p off lo n k : Nat) (s : State) : (bump p off lo n k s).resp = s.resp := rfl
@[simp] theorem bump_tim (p off lo n k : Nat) (s : State) : (bump p off lo n k s).tim = s.tim := rfl
@[simp] theorem bump_boot (p off lo n k : Nat) (s : State) : (bump p off lo n k s).boot = s.boot := rfl
@[simp] theorem bump_fixed (p off lo n k : Nat) (s : State) : (bump p off lo n k s).fixed = s.fixed := rfl
@[simp] theorem bump_jtag (p off lo n k : Nat) (s : State) : (bump p off lo n k s).jtag = s.jtag := rfl
@[simp] theorem bump_lic (p off lo n k : Nat) (s : State) : (bump p off lo n k s).lic = s.lic := rfl
@[simp] theorem bump_sdh (p off lo n k : Nat) (s : State) : (bump p off lo n k s).sdh = s.sdh := rfl
@[simp] theorem bump_pac (p off lo n k : Nat) (s : State) : (bump p off lo n k s).pac = s.pac := rfl
@[simp] theorem bump_ftb (p off lo n k : Nat) (s : State) : (bump p off lo n k s).ftb = s.ftb := rfl
@[simp] theorem bump_exp (p off lo n k : Nat) (s : State) : (bump p off lo n k s).exp = s.exp := rfl
@[simp] theorem bump_bas (p off lo n k : Nat) (s : State) : (bump p off lo n k s).bas = s.bas := rfl
@[simp] theorem bump_pcr (p off lo n k : Nat) (s : State) : (bump p off lo n k s).pcr = s.pcr := rfl
@[simp] theorem bump_fab (p off lo n k : Nat) (s : State) : (bump p off lo n k s).fab = s.fab := rfl
@[simp] theorem bump_mem (p off lo n k : Nat) (s : State) : (bump p off lo n k s).mem = s.mem := rfl
@[simp] theorem bump_arc (p off lo n k : Nat) (s : State) : (bump p off lo n k s).arc = s.arc := rfl
@[simp] theorem bump_pair (p off lo n k : Nat) (s : State) : (bump p off lo n k s).pair = s.pair := rfl
@[simp] theorem bump_msh (p off lo n k : Nat) (s : State) : (bump p off lo n k s).msh = s.msh := rfl
@[simp] theorem bump_hif (p off lo n k : Nat) (s : State) : (bump p off lo n k s).hif = s.hif := rfl
@[simp] theorem bump_free (p off lo n k : Nat) (s : State) : (bump p off lo n k s).free = s.free := rfl
@[simp] theorem bump_pending (p off lo n k : Nat) (s : State) : (bump p off lo n k s).pending = s.pending := rfl

@[simp] theorem tput_link (tab idx w : Nat) (v : Word) (s : State) : (tput tab idx w v s).link = s.link := rfl
@[simp] theorem tput_lock (tab idx w : Nat) (v : Word) (s : State) : (tput tab idx w v s).lock = s.lock := rfl
@[simp] theorem tput_log (tab idx w : Nat) (v : Word) (s : State) : (tput tab idx w v s).log = s.log := rfl
@[simp] theorem tput_snap (tab idx w : Nat) (v : Word) (s : State) : (tput tab idx w v s).snap = s.snap := rfl
@[simp] theorem tput_irq (tab idx w : Nat) (v : Word) (s : State) : (tput tab idx w v s).irq = s.irq := rfl
@[simp] theorem tput_resp (tab idx w : Nat) (v : Word) (s : State) : (tput tab idx w v s).resp = s.resp := rfl
@[simp] theorem tput_tim (tab idx w : Nat) (v : Word) (s : State) : (tput tab idx w v s).tim = s.tim := rfl
@[simp] theorem tput_boot (tab idx w : Nat) (v : Word) (s : State) : (tput tab idx w v s).boot = s.boot := rfl
@[simp] theorem tput_fixed (tab idx w : Nat) (v : Word) (s : State) : (tput tab idx w v s).fixed = s.fixed := rfl
@[simp] theorem tput_jtag (tab idx w : Nat) (v : Word) (s : State) : (tput tab idx w v s).jtag = s.jtag := rfl
@[simp] theorem tput_lic (tab idx w : Nat) (v : Word) (s : State) : (tput tab idx w v s).lic = s.lic := rfl
@[simp] theorem tput_sdh (tab idx w : Nat) (v : Word) (s : State) : (tput tab idx w v s).sdh = s.sdh := rfl
@[simp] theorem tput_pac (tab idx w : Nat) (v : Word) (s : State) : (tput tab idx w v s).pac = s.pac := rfl
@[simp] theorem tput_ftb (tab idx w : Nat) (v : Word) (s : State) : (tput tab idx w v s).ftb = s.ftb := rfl
@[simp] theorem tput_exp (tab idx w : Nat) (v : Word) (s : State) : (tput tab idx w v s).exp = s.exp := rfl
@[simp] theorem tput_bas (tab idx w : Nat) (v : Word) (s : State) : (tput tab idx w v s).bas = s.bas := rfl
@[simp] theorem tput_pcr (tab idx w : Nat) (v : Word) (s : State) : (tput tab idx w v s).pcr = s.pcr := rfl
@[simp] theorem tput_fab (tab idx w : Nat) (v : Word) (s : State) : (tput tab idx w v s).fab = s.fab := rfl
@[simp] theorem tput_mem (tab idx w : Nat) (v : Word) (s : State) : (tput tab idx w v s).mem = s.mem := rfl
@[simp] theorem tput_arc (tab idx w : Nat) (v : Word) (s : State) : (tput tab idx w v s).arc = s.arc := rfl
@[simp] theorem tput_pair (tab idx w : Nat) (v : Word) (s : State) : (tput tab idx w v s).pair = s.pair := rfl
@[simp] theorem tput_msh (tab idx w : Nat) (v : Word) (s : State) : (tput tab idx w v s).msh = s.msh := rfl
@[simp] theorem tput_hif (tab idx w : Nat) (v : Word) (s : State) : (tput tab idx w v s).hif = s.hif := rfl
@[simp] theorem tput_free (tab idx w : Nat) (v : Word) (s : State) : (tput tab idx w v s).free = s.free := rfl
@[simp] theorem tput_pending (tab idx w : Nat) (v : Word) (s : State) : (tput tab idx w v s).pending = s.pending := rfl

@[simp] theorem tfput_link (tab idx w lo n v : Nat) (s : State) : (tfput tab idx w lo n v s).link = s.link := rfl
@[simp] theorem tfput_lock (tab idx w lo n v : Nat) (s : State) : (tfput tab idx w lo n v s).lock = s.lock := rfl
@[simp] theorem tfput_log (tab idx w lo n v : Nat) (s : State) : (tfput tab idx w lo n v s).log = s.log := rfl
@[simp] theorem tfput_snap (tab idx w lo n v : Nat) (s : State) : (tfput tab idx w lo n v s).snap = s.snap := rfl
@[simp] theorem tfput_irq (tab idx w lo n v : Nat) (s : State) : (tfput tab idx w lo n v s).irq = s.irq := rfl
@[simp] theorem tfput_resp (tab idx w lo n v : Nat) (s : State) : (tfput tab idx w lo n v s).resp = s.resp := rfl
@[simp] theorem tfput_tim (tab idx w lo n v : Nat) (s : State) : (tfput tab idx w lo n v s).tim = s.tim := rfl
@[simp] theorem tfput_boot (tab idx w lo n v : Nat) (s : State) : (tfput tab idx w lo n v s).boot = s.boot := rfl
@[simp] theorem tfput_fixed (tab idx w lo n v : Nat) (s : State) : (tfput tab idx w lo n v s).fixed = s.fixed := rfl
@[simp] theorem tfput_jtag (tab idx w lo n v : Nat) (s : State) : (tfput tab idx w lo n v s).jtag = s.jtag := rfl
@[simp] theorem tfput_lic (tab idx w lo n v : Nat) (s : State) : (tfput tab idx w lo n v s).lic = s.lic := rfl
@[simp] theorem tfput_sdh (tab idx w lo n v : Nat) (s : State) : (tfput tab idx w lo n v s).sdh = s.sdh := rfl
@[simp] theorem tfput_pac (tab idx w lo n v : Nat) (s : State) : (tfput tab idx w lo n v s).pac = s.pac := rfl
@[simp] theorem tfput_ftb (tab idx w lo n v : Nat) (s : State) : (tfput tab idx w lo n v s).ftb = s.ftb := rfl
@[simp] theorem tfput_exp (tab idx w lo n v : Nat) (s : State) : (tfput tab idx w lo n v s).exp = s.exp := rfl
@[simp] theorem tfput_bas (tab idx w lo n v : Nat) (s : State) : (tfput tab idx w lo n v s).bas = s.bas := rfl
@[simp] theorem tfput_pcr (tab idx w lo n v : Nat) (s : State) : (tfput tab idx w lo n v s).pcr = s.pcr := rfl
@[simp] theorem tfput_fab (tab idx w lo n v : Nat) (s : State) : (tfput tab idx w lo n v s).fab = s.fab := rfl
@[simp] theorem tfput_mem (tab idx w lo n v : Nat) (s : State) : (tfput tab idx w lo n v s).mem = s.mem := rfl
@[simp] theorem tfput_arc (tab idx w lo n v : Nat) (s : State) : (tfput tab idx w lo n v s).arc = s.arc := rfl
@[simp] theorem tfput_pair (tab idx w lo n v : Nat) (s : State) : (tfput tab idx w lo n v s).pair = s.pair := rfl
@[simp] theorem tfput_msh (tab idx w lo n v : Nat) (s : State) : (tfput tab idx w lo n v s).msh = s.msh := rfl
@[simp] theorem tfput_hif (tab idx w lo n v : Nat) (s : State) : (tfput tab idx w lo n v s).hif = s.hif := rfl
@[simp] theorem tfput_free (tab idx w lo n v : Nat) (s : State) : (tfput tab idx w lo n v s).free = s.free := rfl
@[simp] theorem tfput_pending (tab idx w lo n v : Nat) (s : State) : (tfput tab idx w lo n v s).pending = s.pending := rfl

@[simp] theorem setAdj_link (v : Int) (s : State) : (setAdj v s).link = s.link := rfl
@[simp] theorem setAdj_lock (v : Int) (s : State) : (setAdj v s).lock = s.lock := rfl
@[simp] theorem setAdj_log (v : Int) (s : State) : (setAdj v s).log = s.log := rfl
@[simp] theorem setAdj_snap (v : Int) (s : State) : (setAdj v s).snap = s.snap := rfl
@[simp] theorem setAdj_irq (v : Int) (s : State) : (setAdj v s).irq = s.irq := rfl
@[simp] theorem setAdj_resp (v : Int) (s : State) : (setAdj v s).resp = s.resp := rfl
@[simp] theorem setAdj_tim (v : Int) (s : State) : (setAdj v s).tim = s.tim := rfl
@[simp] theorem setAdj_boot (v : Int) (s : State) : (setAdj v s).boot = s.boot := rfl
@[simp] theorem setAdj_fixed (v : Int) (s : State) : (setAdj v s).fixed = s.fixed := rfl
@[simp] theorem setAdj_jtag (v : Int) (s : State) : (setAdj v s).jtag = s.jtag := rfl
@[simp] theorem setAdj_lic (v : Int) (s : State) : (setAdj v s).lic = s.lic := rfl
@[simp] theorem setAdj_sdh (v : Int) (s : State) : (setAdj v s).sdh = s.sdh := rfl
@[simp] theorem setAdj_pac (v : Int) (s : State) : (setAdj v s).pac = s.pac := rfl
@[simp] theorem setAdj_ftb (v : Int) (s : State) : (setAdj v s).ftb = s.ftb := rfl
@[simp] theorem setAdj_exp (v : Int) (s : State) : (setAdj v s).exp = s.exp := rfl
@[simp] theorem setAdj_bas (v : Int) (s : State) : (setAdj v s).bas = s.bas := rfl
@[simp] theorem setAdj_pcr (v : Int) (s : State) : (setAdj v s).pcr = s.pcr := rfl
@[simp] theorem setAdj_fab (v : Int) (s : State) : (setAdj v s).fab = s.fab := rfl
@[simp] theorem setAdj_mem (v : Int) (s : State) : (setAdj v s).mem = s.mem := rfl
@[simp] theorem setAdj_arc (v : Int) (s : State) : (setAdj v s).arc = s.arc := rfl
@[simp] theorem setAdj_pair (v : Int) (s : State) : (setAdj v s).pair = s.pair := rfl
@[simp] theorem setAdj_msh (v : Int) (s : State) : (setAdj v s).msh = s.msh := rfl
@[simp] theorem setAdj_hif (v : Int) (s : State) : (setAdj v s).hif = s.hif := rfl
@[simp] theorem setAdj_free (v : Int) (s : State) : (setAdj v s).free = s.free := rfl
@[simp] theorem setAdj_pending (v : Int) (s : State) : (setAdj v s).pending = s.pending := rfl

@[simp] theorem setArc_link (f : Arc → Arc) (s : State) : (setArc f s).link = s.link := rfl
@[simp] theorem setArc_regs (f : Arc → Arc) (s : State) : (setArc f s).regs = s.regs := rfl
@[simp] theorem setArc_lock (f : Arc → Arc) (s : State) : (setArc f s).lock = s.lock := rfl
@[simp] theorem setArc_log (f : Arc → Arc) (s : State) : (setArc f s).log = s.log := rfl
@[simp] theorem setArc_snap (f : Arc → Arc) (s : State) : (setArc f s).snap = s.snap := rfl
@[simp] theorem setArc_irq (f : Arc → Arc) (s : State) : (setArc f s).irq = s.irq := rfl
@[simp] theorem setArc_resp (f : Arc → Arc) (s : State) : (setArc f s).resp = s.resp := rfl
@[simp] theorem setArc_tim (f : Arc → Arc) (s : State) : (setArc f s).tim = s.tim := rfl
@[simp] theorem setArc_boot (f : Arc → Arc) (s : State) : (setArc f s).boot = s.boot := rfl
@[simp] theorem setArc_fixed (f : Arc → Arc) (s : State) : (setArc f s).fixed = s.fixed := rfl
@[simp] theorem setArc_jtag (f : Arc → Arc) (s : State) : (setArc f s).jtag = s.jtag := rfl
@[simp] theorem setArc_lic (f : Arc → Arc) (s : State) : (setArc f s).lic = s.lic := rfl
@[simp] theorem setArc_sdh (f : Arc → Arc) (s : State) : (setArc f s).sdh = s.sdh := rfl
@[simp] theorem setArc_pac (f : Arc → Arc) (s : State) : (setArc f s).pac = s.pac := rfl
@[simp] theorem setArc_ftb (f : Arc → Arc) (s : State) : (setArc f s).ftb = s.ftb := rfl
@[simp] theorem setArc_exp (f : Arc → Arc) (s : State) : (setArc f s).exp = s.exp := rfl
@[simp] theorem setArc_bas (f : Arc → Arc) (s : State) : (setArc f s).bas = s.bas := rfl
@[simp] theorem setArc_pcr (f : Arc → Arc) (s : State) : (setArc f s).pcr = s.pcr := rfl
@[simp] theorem setArc_fab (f : Arc → Arc) (s : State) : (setArc f s).fab = s.fab := rfl
@[simp] theorem setArc_mem (f : Arc → Arc) (s : State) : (setArc f s).mem = s.mem := rfl
@[simp] theorem setArc_pair (f : Arc → Arc) (s : State) : (setArc f s).pair = s.pair := rfl
@[simp] theorem setArc_msh (f : Arc → Arc) (s : State) : (setArc f s).msh = s.msh := rfl
@[simp] theorem setArc_hif (f : Arc → Arc) (s : State) : (setArc f s).hif = s.hif := rfl
@[simp] theorem setArc_free (f : Arc → Arc) (s : State) : (setArc f s).free = s.free := rfl
@[simp] theorem setArc_pending (f : Arc → Arc) (s : State) : (setArc f s).pending = s.pending := rfl

@[simp] theorem setArc_arc (f : Arc → Arc) (s : State) : (setArc f s).arc = f s.arc := rfl

@[simp] theorem setPt_link (p : Nat) (f : CapPt → CapPt) (s : State) : (setPt p f s).link = s.link := rfl
@[simp] theorem setPt_regs (p : Nat) (f : CapPt → CapPt) (s : State) : (setPt p f s).regs = s.regs := rfl
@[simp] theorem setPt_lock (p : Nat) (f : CapPt → CapPt) (s : State) : (setPt p f s).lock = s.lock := rfl
@[simp] theorem setPt_log (p : Nat) (f : CapPt → CapPt) (s : State) : (setPt p f s).log = s.log := rfl
@[simp] theorem setPt_snap (p : Nat) (f : CapPt → CapPt) (s : State) : (setPt p f s).snap = s.snap := rfl
@[simp] theorem setPt_irq (p : Nat) (f : CapPt → CapPt) (s : State) : (setPt p f s).irq = s.irq := rfl
@[simp] theorem setPt_resp (p : Nat) (f : CapPt → CapPt) (s : State) : (setPt p f s).resp = s.resp := rfl
@[simp] theorem setPt_tim (p : Nat) (f : CapPt → CapPt) (s : State) : (setPt p f s).tim = s.tim := rfl
@[simp] theorem setPt_boot (p : Nat) (f : CapPt → CapPt) (s : State) : (setPt p f s).boot = s.boot := rfl
@[simp] theorem setPt_fixed (p : Nat) (f : CapPt → CapPt) (s : State) : (setPt p f s).fixed = s.fixed := rfl
@[simp] theorem setPt_jtag (p : Nat) (f : CapPt → CapPt) (s : State) : (setPt p f s).jtag = s.jtag := rfl
@[simp] theorem setPt_lic (p : Nat) (f : CapPt → CapPt) (s : State) : (setPt p f s).lic = s.lic := rfl
@[simp] theorem setPt_sdh (p : Nat) (f : CapPt → CapPt) (s : State) : (setPt p f s).sdh = s.sdh := rfl
@[simp] theorem setPt_pac (p : Nat) (f : CapPt → CapPt) (s : State) : (setPt p f s).pac = s.pac := rfl
@[simp] theorem setPt_ftb (p : Nat) (f : CapPt → CapPt) (s : State) : (setPt p f s).ftb = s.ftb := rfl
@[simp] theorem setPt_exp (p : Nat) (f : CapPt → CapPt) (s : State) : (setPt p f s).exp = s.exp := rfl
@[simp] theorem setPt_bas (p : Nat) (f : CapPt → CapPt) (s : State) : (setPt p f s).bas = s.bas := rfl
@[simp] theorem setPt_pcr (p : Nat) (f : CapPt → CapPt) (s : State) : (setPt p f s).pcr = s.pcr := rfl
@[simp] theorem setPt_fab (p : Nat) (f : CapPt → CapPt) (s : State) : (setPt p f s).fab = s.fab := rfl
@[simp] theorem setPt_mem (p : Nat) (f : CapPt → CapPt) (s : State) : (setPt p f s).mem = s.mem := rfl
@[simp] theorem setPt_pair (p : Nat) (f : CapPt → CapPt) (s : State) : (setPt p f s).pair = s.pair := rfl
@[simp] theorem setPt_msh (p : Nat) (f : CapPt → CapPt) (s : State) : (setPt p f s).msh = s.msh := rfl
@[simp] theorem setPt_hif (p : Nat) (f : CapPt → CapPt) (s : State) : (setPt p f s).hif = s.hif := rfl
@[simp] theorem setPt_free (p : Nat) (f : CapPt → CapPt) (s : State) : (setPt p f s).free = s.free := rfl
@[simp] theorem setPt_pending (p : Nat) (f : CapPt → CapPt) (s : State) : (setPt p f s).pending = s.pending := rfl

@[simp] theorem setExt_link (i : Nat) (f : Extent → Extent) (s : State) : (setExt i f s).link = s.link := rfl
@[simp] theorem setExt_regs (i : Nat) (f : Extent → Extent) (s : State) : (setExt i f s).regs = s.regs := rfl
@[simp] theorem setExt_lock (i : Nat) (f : Extent → Extent) (s : State) : (setExt i f s).lock = s.lock := rfl
@[simp] theorem setExt_log (i : Nat) (f : Extent → Extent) (s : State) : (setExt i f s).log = s.log := rfl
@[simp] theorem setExt_snap (i : Nat) (f : Extent → Extent) (s : State) : (setExt i f s).snap = s.snap := rfl
@[simp] theorem setExt_irq (i : Nat) (f : Extent → Extent) (s : State) : (setExt i f s).irq = s.irq := rfl
@[simp] theorem setExt_resp (i : Nat) (f : Extent → Extent) (s : State) : (setExt i f s).resp = s.resp := rfl
@[simp] theorem setExt_tim (i : Nat) (f : Extent → Extent) (s : State) : (setExt i f s).tim = s.tim := rfl
@[simp] theorem setExt_boot (i : Nat) (f : Extent → Extent) (s : State) : (setExt i f s).boot = s.boot := rfl
@[simp] theorem setExt_fixed (i : Nat) (f : Extent → Extent) (s : State) : (setExt i f s).fixed = s.fixed := rfl
@[simp] theorem setExt_jtag (i : Nat) (f : Extent → Extent) (s : State) : (setExt i f s).jtag = s.jtag := rfl
@[simp] theorem setExt_lic (i : Nat) (f : Extent → Extent) (s : State) : (setExt i f s).lic = s.lic := rfl
@[simp] theorem setExt_sdh (i : Nat) (f : Extent → Extent) (s : State) : (setExt i f s).sdh = s.sdh := rfl
@[simp] theorem setExt_pac (i : Nat) (f : Extent → Extent) (s : State) : (setExt i f s).pac = s.pac := rfl
@[simp] theorem setExt_ftb (i : Nat) (f : Extent → Extent) (s : State) : (setExt i f s).ftb = s.ftb := rfl
@[simp] theorem setExt_exp (i : Nat) (f : Extent → Extent) (s : State) : (setExt i f s).exp = s.exp := rfl
@[simp] theorem setExt_bas (i : Nat) (f : Extent → Extent) (s : State) : (setExt i f s).bas = s.bas := rfl
@[simp] theorem setExt_pcr (i : Nat) (f : Extent → Extent) (s : State) : (setExt i f s).pcr = s.pcr := rfl
@[simp] theorem setExt_fab (i : Nat) (f : Extent → Extent) (s : State) : (setExt i f s).fab = s.fab := rfl
@[simp] theorem setExt_mem (i : Nat) (f : Extent → Extent) (s : State) : (setExt i f s).mem = s.mem := rfl
@[simp] theorem setExt_pair (i : Nat) (f : Extent → Extent) (s : State) : (setExt i f s).pair = s.pair := rfl
@[simp] theorem setExt_msh (i : Nat) (f : Extent → Extent) (s : State) : (setExt i f s).msh = s.msh := rfl
@[simp] theorem setExt_hif (i : Nat) (f : Extent → Extent) (s : State) : (setExt i f s).hif = s.hif := rfl
@[simp] theorem setExt_free (i : Nat) (f : Extent → Extent) (s : State) : (setExt i f s).free = s.free := rfl
@[simp] theorem setExt_pending (i : Nat) (f : Extent → Extent) (s : State) : (setExt i f s).pending = s.pending := rfl

@[simp] theorem setTarget_link (t : Nat) (f : Target → Target) (s : State) : (setTarget t f s).link = s.link := rfl
@[simp] theorem setTarget_regs (t : Nat) (f : Target → Target) (s : State) : (setTarget t f s).regs = s.regs := rfl
@[simp] theorem setTarget_lock (t : Nat) (f : Target → Target) (s : State) : (setTarget t f s).lock = s.lock := rfl
@[simp] theorem setTarget_log (t : Nat) (f : Target → Target) (s : State) : (setTarget t f s).log = s.log := rfl
@[simp] theorem setTarget_snap (t : Nat) (f : Target → Target) (s : State) : (setTarget t f s).snap = s.snap := rfl
@[simp] theorem setTarget_irq (t : Nat) (f : Target → Target) (s : State) : (setTarget t f s).irq = s.irq := rfl
@[simp] theorem setTarget_resp (t : Nat) (f : Target → Target) (s : State) : (setTarget t f s).resp = s.resp := rfl
@[simp] theorem setTarget_tim (t : Nat) (f : Target → Target) (s : State) : (setTarget t f s).tim = s.tim := rfl
@[simp] theorem setTarget_boot (t : Nat) (f : Target → Target) (s : State) : (setTarget t f s).boot = s.boot := rfl
@[simp] theorem setTarget_fixed (t : Nat) (f : Target → Target) (s : State) : (setTarget t f s).fixed = s.fixed := rfl
@[simp] theorem setTarget_jtag (t : Nat) (f : Target → Target) (s : State) : (setTarget t f s).jtag = s.jtag := rfl
@[simp] theorem setTarget_lic (t : Nat) (f : Target → Target) (s : State) : (setTarget t f s).lic = s.lic := rfl
@[simp] theorem setTarget_sdh (t : Nat) (f : Target → Target) (s : State) : (setTarget t f s).sdh = s.sdh := rfl
@[simp] theorem setTarget_pac (t : Nat) (f : Target → Target) (s : State) : (setTarget t f s).pac = s.pac := rfl
@[simp] theorem setTarget_ftb (t : Nat) (f : Target → Target) (s : State) : (setTarget t f s).ftb = s.ftb := rfl
@[simp] theorem setTarget_exp (t : Nat) (f : Target → Target) (s : State) : (setTarget t f s).exp = s.exp := rfl
@[simp] theorem setTarget_bas (t : Nat) (f : Target → Target) (s : State) : (setTarget t f s).bas = s.bas := rfl
@[simp] theorem setTarget_pcr (t : Nat) (f : Target → Target) (s : State) : (setTarget t f s).pcr = s.pcr := rfl
@[simp] theorem setTarget_fab (t : Nat) (f : Target → Target) (s : State) : (setTarget t f s).fab = s.fab := rfl
@[simp] theorem setTarget_mem (t : Nat) (f : Target → Target) (s : State) : (setTarget t f s).mem = s.mem := rfl
@[simp] theorem setTarget_pair (t : Nat) (f : Target → Target) (s : State) : (setTarget t f s).pair = s.pair := rfl
@[simp] theorem setTarget_msh (t : Nat) (f : Target → Target) (s : State) : (setTarget t f s).msh = s.msh := rfl
@[simp] theorem setTarget_hif (t : Nat) (f : Target → Target) (s : State) : (setTarget t f s).hif = s.hif := rfl
@[simp] theorem setTarget_free (t : Nat) (f : Target → Target) (s : State) : (setTarget t f s).free = s.free := rfl
@[simp] theorem setTarget_pending (t : Nat) (f : Target → Target) (s : State) : (setTarget t f s).pending = s.pending := rfl

@[simp] theorem setBas_link (f : Bas → Bas) (s : State) : (setBas f s).link = s.link := rfl
@[simp] theorem setBas_regs (f : Bas → Bas) (s : State) : (setBas f s).regs = s.regs := rfl
@[simp] theorem setBas_lock (f : Bas → Bas) (s : State) : (setBas f s).lock = s.lock := rfl
@[simp] theorem setBas_log (f : Bas → Bas) (s : State) : (setBas f s).log = s.log := rfl
@[simp] theorem setBas_snap (f : Bas → Bas) (s : State) : (setBas f s).snap = s.snap := rfl
@[simp] theorem setBas_irq (f : Bas → Bas) (s : State) : (setBas f s).irq = s.irq := rfl
@[simp] theorem setBas_resp (f : Bas → Bas) (s : State) : (setBas f s).resp = s.resp := rfl
@[simp] theorem setBas_tim (f : Bas → Bas) (s : State) : (setBas f s).tim = s.tim := rfl
@[simp] theorem setBas_boot (f : Bas → Bas) (s : State) : (setBas f s).boot = s.boot := rfl
@[simp] theorem setBas_fixed (f : Bas → Bas) (s : State) : (setBas f s).fixed = s.fixed := rfl
@[simp] theorem setBas_jtag (f : Bas → Bas) (s : State) : (setBas f s).jtag = s.jtag := rfl
@[simp] theorem setBas_lic (f : Bas → Bas) (s : State) : (setBas f s).lic = s.lic := rfl
@[simp] theorem setBas_sdh (f : Bas → Bas) (s : State) : (setBas f s).sdh = s.sdh := rfl
@[simp] theorem setBas_pac (f : Bas → Bas) (s : State) : (setBas f s).pac = s.pac := rfl
@[simp] theorem setBas_ftb (f : Bas → Bas) (s : State) : (setBas f s).ftb = s.ftb := rfl
@[simp] theorem setBas_exp (f : Bas → Bas) (s : State) : (setBas f s).exp = s.exp := rfl
@[simp] theorem setBas_pcr (f : Bas → Bas) (s : State) : (setBas f s).pcr = s.pcr := rfl
@[simp] theorem setBas_fab (f : Bas → Bas) (s : State) : (setBas f s).fab = s.fab := rfl
@[simp] theorem setBas_mem (f : Bas → Bas) (s : State) : (setBas f s).mem = s.mem := rfl
@[simp] theorem setBas_arc (f : Bas → Bas) (s : State) : (setBas f s).arc = s.arc := rfl
@[simp] theorem setBas_pair (f : Bas → Bas) (s : State) : (setBas f s).pair = s.pair := rfl
@[simp] theorem setBas_msh (f : Bas → Bas) (s : State) : (setBas f s).msh = s.msh := rfl
@[simp] theorem setBas_hif (f : Bas → Bas) (s : State) : (setBas f s).hif = s.hif := rfl
@[simp] theorem setBas_free (f : Bas → Bas) (s : State) : (setBas f s).free = s.free := rfl
@[simp] theorem setBas_pending (f : Bas → Bas) (s : State) : (setBas f s).pending = s.pending := rfl

@[simp] theorem setBas_bas (f : Bas → Bas) (s : State) : (setBas f s).bas = f s.bas := rfl

@[simp] theorem setQ_link (q : Nat) (l : List QEnt) (s : State) : (setQ q l s).link = s.link := rfl
@[simp] theorem setQ_regs (q : Nat) (l : List QEnt) (s : State) : (setQ q l s).regs = s.regs := rfl
@[simp] theorem setQ_lock (q : Nat) (l : List QEnt) (s : State) : (setQ q l s).lock = s.lock := rfl
@[simp] theorem setQ_log (q : Nat) (l : List QEnt) (s : State) : (setQ q l s).log = s.log := rfl
@[simp] theorem setQ_snap (q : Nat) (l : List QEnt) (s : State) : (setQ q l s).snap = s.snap := rfl
@[simp] theorem setQ_irq (q : Nat) (l : List QEnt) (s : State) : (setQ q l s).irq = s.irq := rfl
@[simp] theorem setQ_resp (q : Nat) (l : List QEnt) (s : State) : (setQ q l s).resp = s.resp := rfl
@[simp] theorem setQ_tim (q : Nat) (l : List QEnt) (s : State) : (setQ q l s).tim = s.tim := rfl
@[simp] theorem setQ_boot (q : Nat) (l : List QEnt) (s : State) : (setQ q l s).boot = s.boot := rfl
@[simp] theorem setQ_fixed (q : Nat) (l : List QEnt) (s : State) : (setQ q l s).fixed = s.fixed := rfl
@[simp] theorem setQ_jtag (q : Nat) (l : List QEnt) (s : State) : (setQ q l s).jtag = s.jtag := rfl
@[simp] theorem setQ_lic (q : Nat) (l : List QEnt) (s : State) : (setQ q l s).lic = s.lic := rfl
@[simp] theorem setQ_sdh (q : Nat) (l : List QEnt) (s : State) : (setQ q l s).sdh = s.sdh := rfl
@[simp] theorem setQ_pac (q : Nat) (l : List QEnt) (s : State) : (setQ q l s).pac = s.pac := rfl
@[simp] theorem setQ_ftb (q : Nat) (l : List QEnt) (s : State) : (setQ q l s).ftb = s.ftb := rfl
@[simp] theorem setQ_exp (q : Nat) (l : List QEnt) (s : State) : (setQ q l s).exp = s.exp := rfl
@[simp] theorem setQ_pcr (q : Nat) (l : List QEnt) (s : State) : (setQ q l s).pcr = s.pcr := rfl
@[simp] theorem setQ_fab (q : Nat) (l : List QEnt) (s : State) : (setQ q l s).fab = s.fab := rfl
@[simp] theorem setQ_mem (q : Nat) (l : List QEnt) (s : State) : (setQ q l s).mem = s.mem := rfl
@[simp] theorem setQ_arc (q : Nat) (l : List QEnt) (s : State) : (setQ q l s).arc = s.arc := rfl
@[simp] theorem setQ_pair (q : Nat) (l : List QEnt) (s : State) : (setQ q l s).pair = s.pair := rfl
@[simp] theorem setQ_msh (q : Nat) (l : List QEnt) (s : State) : (setQ q l s).msh = s.msh := rfl
@[simp] theorem setQ_hif (q : Nat) (l : List QEnt) (s : State) : (setQ q l s).hif = s.hif := rfl
@[simp] theorem setQ_free (q : Nat) (l : List QEnt) (s : State) : (setQ q l s).free = s.free := rfl
@[simp] theorem setQ_pending (q : Nat) (l : List QEnt) (s : State) : (setQ q l s).pending = s.pending := rfl

@[simp] theorem setBoot_link (f : Boot → Boot) (s : State) : (setBoot f s).link = s.link := rfl
@[simp] theorem setBoot_regs (f : Boot → Boot) (s : State) : (setBoot f s).regs = s.regs := rfl
@[simp] theorem setBoot_lock (f : Boot → Boot) (s : State) : (setBoot f s).lock = s.lock := rfl
@[simp] theorem setBoot_log (f : Boot → Boot) (s : State) : (setBoot f s).log = s.log := rfl
@[simp] theorem setBoot_snap (f : Boot → Boot) (s : State) : (setBoot f s).snap = s.snap := rfl
@[simp] theorem setBoot_irq (f : Boot → Boot) (s : State) : (setBoot f s).irq = s.irq := rfl
@[simp] theorem setBoot_resp (f : Boot → Boot) (s : State) : (setBoot f s).resp = s.resp := rfl
@[simp] theorem setBoot_tim (f : Boot → Boot) (s : State) : (setBoot f s).tim = s.tim := rfl
@[simp] theorem setBoot_fixed (f : Boot → Boot) (s : State) : (setBoot f s).fixed = s.fixed := rfl
@[simp] theorem setBoot_jtag (f : Boot → Boot) (s : State) : (setBoot f s).jtag = s.jtag := rfl
@[simp] theorem setBoot_lic (f : Boot → Boot) (s : State) : (setBoot f s).lic = s.lic := rfl
@[simp] theorem setBoot_sdh (f : Boot → Boot) (s : State) : (setBoot f s).sdh = s.sdh := rfl
@[simp] theorem setBoot_pac (f : Boot → Boot) (s : State) : (setBoot f s).pac = s.pac := rfl
@[simp] theorem setBoot_ftb (f : Boot → Boot) (s : State) : (setBoot f s).ftb = s.ftb := rfl
@[simp] theorem setBoot_exp (f : Boot → Boot) (s : State) : (setBoot f s).exp = s.exp := rfl
@[simp] theorem setBoot_bas (f : Boot → Boot) (s : State) : (setBoot f s).bas = s.bas := rfl
@[simp] theorem setBoot_pcr (f : Boot → Boot) (s : State) : (setBoot f s).pcr = s.pcr := rfl
@[simp] theorem setBoot_fab (f : Boot → Boot) (s : State) : (setBoot f s).fab = s.fab := rfl
@[simp] theorem setBoot_mem (f : Boot → Boot) (s : State) : (setBoot f s).mem = s.mem := rfl
@[simp] theorem setBoot_arc (f : Boot → Boot) (s : State) : (setBoot f s).arc = s.arc := rfl
@[simp] theorem setBoot_pair (f : Boot → Boot) (s : State) : (setBoot f s).pair = s.pair := rfl
@[simp] theorem setBoot_msh (f : Boot → Boot) (s : State) : (setBoot f s).msh = s.msh := rfl
@[simp] theorem setBoot_hif (f : Boot → Boot) (s : State) : (setBoot f s).hif = s.hif := rfl
@[simp] theorem setBoot_free (f : Boot → Boot) (s : State) : (setBoot f s).free = s.free := rfl
@[simp] theorem setBoot_pending (f : Boot → Boot) (s : State) : (setBoot f s).pending = s.pending := rfl

@[simp] theorem setBoot_boot (f : Boot → Boot) (s : State) : (setBoot f s).boot = f s.boot := rfl

@[simp] theorem setLink_regs (f : DieLink → DieLink) (s : State) : (setLink f s).regs = s.regs := rfl
@[simp] theorem setLink_lock (f : DieLink → DieLink) (s : State) : (setLink f s).lock = s.lock := rfl
@[simp] theorem setLink_log (f : DieLink → DieLink) (s : State) : (setLink f s).log = s.log := rfl
@[simp] theorem setLink_snap (f : DieLink → DieLink) (s : State) : (setLink f s).snap = s.snap := rfl
@[simp] theorem setLink_irq (f : DieLink → DieLink) (s : State) : (setLink f s).irq = s.irq := rfl
@[simp] theorem setLink_resp (f : DieLink → DieLink) (s : State) : (setLink f s).resp = s.resp := rfl
@[simp] theorem setLink_tim (f : DieLink → DieLink) (s : State) : (setLink f s).tim = s.tim := rfl
@[simp] theorem setLink_boot (f : DieLink → DieLink) (s : State) : (setLink f s).boot = s.boot := rfl
@[simp] theorem setLink_fixed (f : DieLink → DieLink) (s : State) : (setLink f s).fixed = s.fixed := rfl
@[simp] theorem setLink_jtag (f : DieLink → DieLink) (s : State) : (setLink f s).jtag = s.jtag := rfl
@[simp] theorem setLink_lic (f : DieLink → DieLink) (s : State) : (setLink f s).lic = s.lic := rfl
@[simp] theorem setLink_sdh (f : DieLink → DieLink) (s : State) : (setLink f s).sdh = s.sdh := rfl
@[simp] theorem setLink_pac (f : DieLink → DieLink) (s : State) : (setLink f s).pac = s.pac := rfl
@[simp] theorem setLink_ftb (f : DieLink → DieLink) (s : State) : (setLink f s).ftb = s.ftb := rfl
@[simp] theorem setLink_exp (f : DieLink → DieLink) (s : State) : (setLink f s).exp = s.exp := rfl
@[simp] theorem setLink_bas (f : DieLink → DieLink) (s : State) : (setLink f s).bas = s.bas := rfl
@[simp] theorem setLink_pcr (f : DieLink → DieLink) (s : State) : (setLink f s).pcr = s.pcr := rfl
@[simp] theorem setLink_fab (f : DieLink → DieLink) (s : State) : (setLink f s).fab = s.fab := rfl
@[simp] theorem setLink_mem (f : DieLink → DieLink) (s : State) : (setLink f s).mem = s.mem := rfl
@[simp] theorem setLink_arc (f : DieLink → DieLink) (s : State) : (setLink f s).arc = s.arc := rfl
@[simp] theorem setLink_pair (f : DieLink → DieLink) (s : State) : (setLink f s).pair = s.pair := rfl
@[simp] theorem setLink_msh (f : DieLink → DieLink) (s : State) : (setLink f s).msh = s.msh := rfl
@[simp] theorem setLink_hif (f : DieLink → DieLink) (s : State) : (setLink f s).hif = s.hif := rfl
@[simp] theorem setLink_free (f : DieLink → DieLink) (s : State) : (setLink f s).free = s.free := rfl
@[simp] theorem setLink_pending (f : DieLink → DieLink) (s : State) : (setLink f s).pending = s.pending := rfl

@[simp] theorem setLink_link (f : DieLink → DieLink) (s : State) : (setLink f s).link = f s.link := rfl

@[simp] theorem setExp_link (f : Exp → Exp) (s : State) : (setExp f s).link = s.link := rfl
@[simp] theorem setExp_regs (f : Exp → Exp) (s : State) : (setExp f s).regs = s.regs := rfl
@[simp] theorem setExp_lock (f : Exp → Exp) (s : State) : (setExp f s).lock = s.lock := rfl
@[simp] theorem setExp_log (f : Exp → Exp) (s : State) : (setExp f s).log = s.log := rfl
@[simp] theorem setExp_snap (f : Exp → Exp) (s : State) : (setExp f s).snap = s.snap := rfl
@[simp] theorem setExp_irq (f : Exp → Exp) (s : State) : (setExp f s).irq = s.irq := rfl
@[simp] theorem setExp_resp (f : Exp → Exp) (s : State) : (setExp f s).resp = s.resp := rfl
@[simp] theorem setExp_tim (f : Exp → Exp) (s : State) : (setExp f s).tim = s.tim := rfl
@[simp] theorem setExp_boot (f : Exp → Exp) (s : State) : (setExp f s).boot = s.boot := rfl
@[simp] theorem setExp_fixed (f : Exp → Exp) (s : State) : (setExp f s).fixed = s.fixed := rfl
@[simp] theorem setExp_jtag (f : Exp → Exp) (s : State) : (setExp f s).jtag = s.jtag := rfl
@[simp] theorem setExp_lic (f : Exp → Exp) (s : State) : (setExp f s).lic = s.lic := rfl
@[simp] theorem setExp_sdh (f : Exp → Exp) (s : State) : (setExp f s).sdh = s.sdh := rfl
@[simp] theorem setExp_pac (f : Exp → Exp) (s : State) : (setExp f s).pac = s.pac := rfl
@[simp] theorem setExp_ftb (f : Exp → Exp) (s : State) : (setExp f s).ftb = s.ftb := rfl
@[simp] theorem setExp_bas (f : Exp → Exp) (s : State) : (setExp f s).bas = s.bas := rfl
@[simp] theorem setExp_pcr (f : Exp → Exp) (s : State) : (setExp f s).pcr = s.pcr := rfl
@[simp] theorem setExp_fab (f : Exp → Exp) (s : State) : (setExp f s).fab = s.fab := rfl
@[simp] theorem setExp_mem (f : Exp → Exp) (s : State) : (setExp f s).mem = s.mem := rfl
@[simp] theorem setExp_arc (f : Exp → Exp) (s : State) : (setExp f s).arc = s.arc := rfl
@[simp] theorem setExp_pair (f : Exp → Exp) (s : State) : (setExp f s).pair = s.pair := rfl
@[simp] theorem setExp_msh (f : Exp → Exp) (s : State) : (setExp f s).msh = s.msh := rfl
@[simp] theorem setExp_hif (f : Exp → Exp) (s : State) : (setExp f s).hif = s.hif := rfl
@[simp] theorem setExp_free (f : Exp → Exp) (s : State) : (setExp f s).free = s.free := rfl
@[simp] theorem setExp_pending (f : Exp → Exp) (s : State) : (setExp f s).pending = s.pending := rfl

@[simp] theorem setExp_exp (f : Exp → Exp) (s : State) : (setExp f s).exp = f s.exp := rfl

@[simp] theorem setStream_link (r : Nat) (f : Stream → Stream) (s : State) : (setStream r f s).link = s.link := rfl
@[simp] theorem setStream_regs (r : Nat) (f : Stream → Stream) (s : State) : (setStream r f s).regs = s.regs := rfl
@[simp] theorem setStream_lock (r : Nat) (f : Stream → Stream) (s : State) : (setStream r f s).lock = s.lock := rfl
@[simp] theorem setStream_log (r : Nat) (f : Stream → Stream) (s : State) : (setStream r f s).log = s.log := rfl
@[simp] theorem setStream_snap (r : Nat) (f : Stream → Stream) (s : State) : (setStream r f s).snap = s.snap := rfl
@[simp] theorem setStream_irq (r : Nat) (f : Stream → Stream) (s : State) : (setStream r f s).irq = s.irq := rfl
@[simp] theorem setStream_resp (r : Nat) (f : Stream → Stream) (s : State) : (setStream r f s).resp = s.resp := rfl
@[simp] theorem setStream_tim (r : Nat) (f : Stream → Stream) (s : State) : (setStream r f s).tim = s.tim := rfl
@[simp] theorem setStream_boot (r : Nat) (f : Stream → Stream) (s : State) : (setStream r f s).boot = s.boot := rfl
@[simp] theorem setStream_fixed (r : Nat) (f : Stream → Stream) (s : State) : (setStream r f s).fixed = s.fixed := rfl
@[simp] theorem setStream_jtag (r : Nat) (f : Stream → Stream) (s : State) : (setStream r f s).jtag = s.jtag := rfl
@[simp] theorem setStream_lic (r : Nat) (f : Stream → Stream) (s : State) : (setStream r f s).lic = s.lic := rfl
@[simp] theorem setStream_sdh (r : Nat) (f : Stream → Stream) (s : State) : (setStream r f s).sdh = s.sdh := rfl
@[simp] theorem setStream_pac (r : Nat) (f : Stream → Stream) (s : State) : (setStream r f s).pac = s.pac := rfl
@[simp] theorem setStream_ftb (r : Nat) (f : Stream → Stream) (s : State) : (setStream r f s).ftb = s.ftb := rfl
@[simp] theorem setStream_bas (r : Nat) (f : Stream → Stream) (s : State) : (setStream r f s).bas = s.bas := rfl
@[simp] theorem setStream_pcr (r : Nat) (f : Stream → Stream) (s : State) : (setStream r f s).pcr = s.pcr := rfl
@[simp] theorem setStream_fab (r : Nat) (f : Stream → Stream) (s : State) : (setStream r f s).fab = s.fab := rfl
@[simp] theorem setStream_mem (r : Nat) (f : Stream → Stream) (s : State) : (setStream r f s).mem = s.mem := rfl
@[simp] theorem setStream_arc (r : Nat) (f : Stream → Stream) (s : State) : (setStream r f s).arc = s.arc := rfl
@[simp] theorem setStream_pair (r : Nat) (f : Stream → Stream) (s : State) : (setStream r f s).pair = s.pair := rfl
@[simp] theorem setStream_msh (r : Nat) (f : Stream → Stream) (s : State) : (setStream r f s).msh = s.msh := rfl
@[simp] theorem setStream_hif (r : Nat) (f : Stream → Stream) (s : State) : (setStream r f s).hif = s.hif := rfl
@[simp] theorem setStream_free (r : Nat) (f : Stream → Stream) (s : State) : (setStream r f s).free = s.free := rfl
@[simp] theorem setStream_pending (r : Nat) (f : Stream → Stream) (s : State) : (setStream r f s).pending = s.pending := rfl

@[simp] theorem setUnit_link (u : Nat) (f : SealUnit → SealUnit) (s : State) : (setUnit u f s).link = s.link := rfl
@[simp] theorem setUnit_regs (u : Nat) (f : SealUnit → SealUnit) (s : State) : (setUnit u f s).regs = s.regs := rfl
@[simp] theorem setUnit_lock (u : Nat) (f : SealUnit → SealUnit) (s : State) : (setUnit u f s).lock = s.lock := rfl
@[simp] theorem setUnit_log (u : Nat) (f : SealUnit → SealUnit) (s : State) : (setUnit u f s).log = s.log := rfl
@[simp] theorem setUnit_snap (u : Nat) (f : SealUnit → SealUnit) (s : State) : (setUnit u f s).snap = s.snap := rfl
@[simp] theorem setUnit_irq (u : Nat) (f : SealUnit → SealUnit) (s : State) : (setUnit u f s).irq = s.irq := rfl
@[simp] theorem setUnit_resp (u : Nat) (f : SealUnit → SealUnit) (s : State) : (setUnit u f s).resp = s.resp := rfl
@[simp] theorem setUnit_tim (u : Nat) (f : SealUnit → SealUnit) (s : State) : (setUnit u f s).tim = s.tim := rfl
@[simp] theorem setUnit_boot (u : Nat) (f : SealUnit → SealUnit) (s : State) : (setUnit u f s).boot = s.boot := rfl
@[simp] theorem setUnit_fixed (u : Nat) (f : SealUnit → SealUnit) (s : State) : (setUnit u f s).fixed = s.fixed := rfl
@[simp] theorem setUnit_jtag (u : Nat) (f : SealUnit → SealUnit) (s : State) : (setUnit u f s).jtag = s.jtag := rfl
@[simp] theorem setUnit_lic (u : Nat) (f : SealUnit → SealUnit) (s : State) : (setUnit u f s).lic = s.lic := rfl
@[simp] theorem setUnit_sdh (u : Nat) (f : SealUnit → SealUnit) (s : State) : (setUnit u f s).sdh = s.sdh := rfl
@[simp] theorem setUnit_pac (u : Nat) (f : SealUnit → SealUnit) (s : State) : (setUnit u f s).pac = s.pac := rfl
@[simp] theorem setUnit_ftb (u : Nat) (f : SealUnit → SealUnit) (s : State) : (setUnit u f s).ftb = s.ftb := rfl
@[simp] theorem setUnit_bas (u : Nat) (f : SealUnit → SealUnit) (s : State) : (setUnit u f s).bas = s.bas := rfl
@[simp] theorem setUnit_pcr (u : Nat) (f : SealUnit → SealUnit) (s : State) : (setUnit u f s).pcr = s.pcr := rfl
@[simp] theorem setUnit_fab (u : Nat) (f : SealUnit → SealUnit) (s : State) : (setUnit u f s).fab = s.fab := rfl
@[simp] theorem setUnit_mem (u : Nat) (f : SealUnit → SealUnit) (s : State) : (setUnit u f s).mem = s.mem := rfl
@[simp] theorem setUnit_arc (u : Nat) (f : SealUnit → SealUnit) (s : State) : (setUnit u f s).arc = s.arc := rfl
@[simp] theorem setUnit_pair (u : Nat) (f : SealUnit → SealUnit) (s : State) : (setUnit u f s).pair = s.pair := rfl
@[simp] theorem setUnit_msh (u : Nat) (f : SealUnit → SealUnit) (s : State) : (setUnit u f s).msh = s.msh := rfl
@[simp] theorem setUnit_hif (u : Nat) (f : SealUnit → SealUnit) (s : State) : (setUnit u f s).hif = s.hif := rfl
@[simp] theorem setUnit_free (u : Nat) (f : SealUnit → SealUnit) (s : State) : (setUnit u f s).free = s.free := rfl
@[simp] theorem setUnit_pending (u : Nat) (f : SealUnit → SealUnit) (s : State) : (setUnit u f s).pending = s.pending := rfl

@[simp] theorem setKey_link (k : Nat) (x : KeySlot) (s : State) : (setKey k x s).link = s.link := rfl
@[simp] theorem setKey_regs (k : Nat) (x : KeySlot) (s : State) : (setKey k x s).regs = s.regs := rfl
@[simp] theorem setKey_lock (k : Nat) (x : KeySlot) (s : State) : (setKey k x s).lock = s.lock := rfl
@[simp] theorem setKey_log (k : Nat) (x : KeySlot) (s : State) : (setKey k x s).log = s.log := rfl
@[simp] theorem setKey_snap (k : Nat) (x : KeySlot) (s : State) : (setKey k x s).snap = s.snap := rfl
@[simp] theorem setKey_irq (k : Nat) (x : KeySlot) (s : State) : (setKey k x s).irq = s.irq := rfl
@[simp] theorem setKey_resp (k : Nat) (x : KeySlot) (s : State) : (setKey k x s).resp = s.resp := rfl
@[simp] theorem setKey_tim (k : Nat) (x : KeySlot) (s : State) : (setKey k x s).tim = s.tim := rfl
@[simp] theorem setKey_boot (k : Nat) (x : KeySlot) (s : State) : (setKey k x s).boot = s.boot := rfl
@[simp] theorem setKey_fixed (k : Nat) (x : KeySlot) (s : State) : (setKey k x s).fixed = s.fixed := rfl
@[simp] theorem setKey_jtag (k : Nat) (x : KeySlot) (s : State) : (setKey k x s).jtag = s.jtag := rfl
@[simp] theorem setKey_lic (k : Nat) (x : KeySlot) (s : State) : (setKey k x s).lic = s.lic := rfl
@[simp] theorem setKey_sdh (k : Nat) (x : KeySlot) (s : State) : (setKey k x s).sdh = s.sdh := rfl
@[simp] theorem setKey_pac (k : Nat) (x : KeySlot) (s : State) : (setKey k x s).pac = s.pac := rfl
@[simp] theorem setKey_ftb (k : Nat) (x : KeySlot) (s : State) : (setKey k x s).ftb = s.ftb := rfl
@[simp] theorem setKey_exp (k : Nat) (x : KeySlot) (s : State) : (setKey k x s).exp = s.exp := rfl
@[simp] theorem setKey_bas (k : Nat) (x : KeySlot) (s : State) : (setKey k x s).bas = s.bas := rfl
@[simp] theorem setKey_pcr (k : Nat) (x : KeySlot) (s : State) : (setKey k x s).pcr = s.pcr := rfl
@[simp] theorem setKey_fab (k : Nat) (x : KeySlot) (s : State) : (setKey k x s).fab = s.fab := rfl
@[simp] theorem setKey_mem (k : Nat) (x : KeySlot) (s : State) : (setKey k x s).mem = s.mem := rfl
@[simp] theorem setKey_arc (k : Nat) (x : KeySlot) (s : State) : (setKey k x s).arc = s.arc := rfl
@[simp] theorem setKey_pair (k : Nat) (x : KeySlot) (s : State) : (setKey k x s).pair = s.pair := rfl
@[simp] theorem setKey_hif (k : Nat) (x : KeySlot) (s : State) : (setKey k x s).hif = s.hif := rfl
@[simp] theorem setKey_free (k : Nat) (x : KeySlot) (s : State) : (setKey k x s).free = s.free := rfl
@[simp] theorem setKey_pending (k : Nat) (x : KeySlot) (s : State) : (setKey k x s).pending = s.pending := rfl

@[simp] theorem setPair_link (f : Pair → Pair) (s : State) : (setPair f s).link = s.link := rfl
@[simp] theorem setPair_regs (f : Pair → Pair) (s : State) : (setPair f s).regs = s.regs := rfl
@[simp] theorem setPair_lock (f : Pair → Pair) (s : State) : (setPair f s).lock = s.lock := rfl
@[simp] theorem setPair_log (f : Pair → Pair) (s : State) : (setPair f s).log = s.log := rfl
@[simp] theorem setPair_snap (f : Pair → Pair) (s : State) : (setPair f s).snap = s.snap := rfl
@[simp] theorem setPair_irq (f : Pair → Pair) (s : State) : (setPair f s).irq = s.irq := rfl
@[simp] theorem setPair_resp (f : Pair → Pair) (s : State) : (setPair f s).resp = s.resp := rfl
@[simp] theorem setPair_tim (f : Pair → Pair) (s : State) : (setPair f s).tim = s.tim := rfl
@[simp] theorem setPair_boot (f : Pair → Pair) (s : State) : (setPair f s).boot = s.boot := rfl
@[simp] theorem setPair_fixed (f : Pair → Pair) (s : State) : (setPair f s).fixed = s.fixed := rfl
@[simp] theorem setPair_jtag (f : Pair → Pair) (s : State) : (setPair f s).jtag = s.jtag := rfl
@[simp] theorem setPair_lic (f : Pair → Pair) (s : State) : (setPair f s).lic = s.lic := rfl
@[simp] theorem setPair_sdh (f : Pair → Pair) (s : State) : (setPair f s).sdh = s.sdh := rfl
@[simp] theorem setPair_pac (f : Pair → Pair) (s : State) : (setPair f s).pac = s.pac := rfl
@[simp] theorem setPair_ftb (f : Pair → Pair) (s : State) : (setPair f s).ftb = s.ftb := rfl
@[simp] theorem setPair_exp (f : Pair → Pair) (s : State) : (setPair f s).exp = s.exp := rfl
@[simp] theorem setPair_bas (f : Pair → Pair) (s : State) : (setPair f s).bas = s.bas := rfl
@[simp] theorem setPair_pcr (f : Pair → Pair) (s : State) : (setPair f s).pcr = s.pcr := rfl
@[simp] theorem setPair_fab (f : Pair → Pair) (s : State) : (setPair f s).fab = s.fab := rfl
@[simp] theorem setPair_mem (f : Pair → Pair) (s : State) : (setPair f s).mem = s.mem := rfl
@[simp] theorem setPair_arc (f : Pair → Pair) (s : State) : (setPair f s).arc = s.arc := rfl
@[simp] theorem setPair_msh (f : Pair → Pair) (s : State) : (setPair f s).msh = s.msh := rfl
@[simp] theorem setPair_hif (f : Pair → Pair) (s : State) : (setPair f s).hif = s.hif := rfl
@[simp] theorem setPair_free (f : Pair → Pair) (s : State) : (setPair f s).free = s.free := rfl
@[simp] theorem setPair_pending (f : Pair → Pair) (s : State) : (setPair f s).pending = s.pending := rfl

@[simp] theorem setPair_pair (f : Pair → Pair) (s : State) : (setPair f s).pair = f s.pair := rfl

@[simp] theorem setCtx_link (c : Nat) (f : Ctx → Ctx) (s : State) : (setCtx c f s).link = s.link := rfl
@[simp] theorem setCtx_regs (c : Nat) (f : Ctx → Ctx) (s : State) : (setCtx c f s).regs = s.regs := rfl
@[simp] theorem setCtx_lock (c : Nat) (f : Ctx → Ctx) (s : State) : (setCtx c f s).lock = s.lock := rfl
@[simp] theorem setCtx_log (c : Nat) (f : Ctx → Ctx) (s : State) : (setCtx c f s).log = s.log := rfl
@[simp] theorem setCtx_snap (c : Nat) (f : Ctx → Ctx) (s : State) : (setCtx c f s).snap = s.snap := rfl
@[simp] theorem setCtx_irq (c : Nat) (f : Ctx → Ctx) (s : State) : (setCtx c f s).irq = s.irq := rfl
@[simp] theorem setCtx_resp (c : Nat) (f : Ctx → Ctx) (s : State) : (setCtx c f s).resp = s.resp := rfl
@[simp] theorem setCtx_tim (c : Nat) (f : Ctx → Ctx) (s : State) : (setCtx c f s).tim = s.tim := rfl
@[simp] theorem setCtx_boot (c : Nat) (f : Ctx → Ctx) (s : State) : (setCtx c f s).boot = s.boot := rfl
@[simp] theorem setCtx_fixed (c : Nat) (f : Ctx → Ctx) (s : State) : (setCtx c f s).fixed = s.fixed := rfl
@[simp] theorem setCtx_jtag (c : Nat) (f : Ctx → Ctx) (s : State) : (setCtx c f s).jtag = s.jtag := rfl
@[simp] theorem setCtx_lic (c : Nat) (f : Ctx → Ctx) (s : State) : (setCtx c f s).lic = s.lic := rfl
@[simp] theorem setCtx_sdh (c : Nat) (f : Ctx → Ctx) (s : State) : (setCtx c f s).sdh = s.sdh := rfl
@[simp] theorem setCtx_pac (c : Nat) (f : Ctx → Ctx) (s : State) : (setCtx c f s).pac = s.pac := rfl
@[simp] theorem setCtx_ftb (c : Nat) (f : Ctx → Ctx) (s : State) : (setCtx c f s).ftb = s.ftb := rfl
@[simp] theorem setCtx_exp (c : Nat) (f : Ctx → Ctx) (s : State) : (setCtx c f s).exp = s.exp := rfl
@[simp] theorem setCtx_bas (c : Nat) (f : Ctx → Ctx) (s : State) : (setCtx c f s).bas = s.bas := rfl
@[simp] theorem setCtx_pcr (c : Nat) (f : Ctx → Ctx) (s : State) : (setCtx c f s).pcr = s.pcr := rfl
@[simp] theorem setCtx_mem (c : Nat) (f : Ctx → Ctx) (s : State) : (setCtx c f s).mem = s.mem := rfl
@[simp] theorem setCtx_arc (c : Nat) (f : Ctx → Ctx) (s : State) : (setCtx c f s).arc = s.arc := rfl
@[simp] theorem setCtx_pair (c : Nat) (f : Ctx → Ctx) (s : State) : (setCtx c f s).pair = s.pair := rfl
@[simp] theorem setCtx_msh (c : Nat) (f : Ctx → Ctx) (s : State) : (setCtx c f s).msh = s.msh := rfl
@[simp] theorem setCtx_hif (c : Nat) (f : Ctx → Ctx) (s : State) : (setCtx c f s).hif = s.hif := rfl
@[simp] theorem setCtx_free (c : Nat) (f : Ctx → Ctx) (s : State) : (setCtx c f s).free = s.free := rfl
@[simp] theorem setCtx_pending (c : Nat) (f : Ctx → Ctx) (s : State) : (setCtx c f s).pending = s.pending := rfl

@[simp] theorem setFab_link (f : Fab → Fab) (s : State) : (setFab f s).link = s.link := rfl
@[simp] theorem setFab_regs (f : Fab → Fab) (s : State) : (setFab f s).regs = s.regs := rfl
@[simp] theorem setFab_lock (f : Fab → Fab) (s : State) : (setFab f s).lock = s.lock := rfl
@[simp] theorem setFab_log (f : Fab → Fab) (s : State) : (setFab f s).log = s.log := rfl
@[simp] theorem setFab_snap (f : Fab → Fab) (s : State) : (setFab f s).snap = s.snap := rfl
@[simp] theorem setFab_irq (f : Fab → Fab) (s : State) : (setFab f s).irq = s.irq := rfl
@[simp] theorem setFab_resp (f : Fab → Fab) (s : State) : (setFab f s).resp = s.resp := rfl
@[simp] theorem setFab_tim (f : Fab → Fab) (s : State) : (setFab f s).tim = s.tim := rfl
@[simp] theorem setFab_boot (f : Fab → Fab) (s : State) : (setFab f s).boot = s.boot := rfl
@[simp] theorem setFab_fixed (f : Fab → Fab) (s : State) : (setFab f s).fixed = s.fixed := rfl
@[simp] theorem setFab_jtag (f : Fab → Fab) (s : State) : (setFab f s).jtag = s.jtag := rfl
@[simp] theorem setFab_lic (f : Fab → Fab) (s : State) : (setFab f s).lic = s.lic := rfl
@[simp] theorem setFab_sdh (f : Fab → Fab) (s : State) : (setFab f s).sdh = s.sdh := rfl
@[simp] theorem setFab_pac (f : Fab → Fab) (s : State) : (setFab f s).pac = s.pac := rfl
@[simp] theorem setFab_ftb (f : Fab → Fab) (s : State) : (setFab f s).ftb = s.ftb := rfl
@[simp] theorem setFab_exp (f : Fab → Fab) (s : State) : (setFab f s).exp = s.exp := rfl
@[simp] theorem setFab_bas (f : Fab → Fab) (s : State) : (setFab f s).bas = s.bas := rfl
@[simp] theorem setFab_pcr (f : Fab → Fab) (s : State) : (setFab f s).pcr = s.pcr := rfl
@[simp] theorem setFab_mem (f : Fab → Fab) (s : State) : (setFab f s).mem = s.mem := rfl
@[simp] theorem setFab_arc (f : Fab → Fab) (s : State) : (setFab f s).arc = s.arc := rfl
@[simp] theorem setFab_pair (f : Fab → Fab) (s : State) : (setFab f s).pair = s.pair := rfl
@[simp] theorem setFab_msh (f : Fab → Fab) (s : State) : (setFab f s).msh = s.msh := rfl
@[simp] theorem setFab_hif (f : Fab → Fab) (s : State) : (setFab f s).hif = s.hif := rfl
@[simp] theorem setFab_free (f : Fab → Fab) (s : State) : (setFab f s).free = s.free := rfl
@[simp] theorem setFab_pending (f : Fab → Fab) (s : State) : (setFab f s).pending = s.pending := rfl

@[simp] theorem setFab_fab (f : Fab → Fab) (s : State) : (setFab f s).fab = f s.fab := rfl

@[simp] theorem setFLane_link (n : Nat) (g : FabLane → FabLane) (s : State) : (setFLane n g s).link = s.link := rfl
@[simp] theorem setFLane_regs (n : Nat) (g : FabLane → FabLane) (s : State) : (setFLane n g s).regs = s.regs := rfl
@[simp] theorem setFLane_lock (n : Nat) (g : FabLane → FabLane) (s : State) : (setFLane n g s).lock = s.lock := rfl
@[simp] theorem setFLane_log (n : Nat) (g : FabLane → FabLane) (s : State) : (setFLane n g s).log = s.log := rfl
@[simp] theorem setFLane_snap (n : Nat) (g : FabLane → FabLane) (s : State) : (setFLane n g s).snap = s.snap := rfl
@[simp] theorem setFLane_irq (n : Nat) (g : FabLane → FabLane) (s : State) : (setFLane n g s).irq = s.irq := rfl
@[simp] theorem setFLane_resp (n : Nat) (g : FabLane → FabLane) (s : State) : (setFLane n g s).resp = s.resp := rfl
@[simp] theorem setFLane_tim (n : Nat) (g : FabLane → FabLane) (s : State) : (setFLane n g s).tim = s.tim := rfl
@[simp] theorem setFLane_boot (n : Nat) (g : FabLane → FabLane) (s : State) : (setFLane n g s).boot = s.boot := rfl
@[simp] theorem setFLane_fixed (n : Nat) (g : FabLane → FabLane) (s : State) : (setFLane n g s).fixed = s.fixed := rfl
@[simp] theorem setFLane_jtag (n : Nat) (g : FabLane → FabLane) (s : State) : (setFLane n g s).jtag = s.jtag := rfl
@[simp] theorem setFLane_lic (n : Nat) (g : FabLane → FabLane) (s : State) : (setFLane n g s).lic = s.lic := rfl
@[simp] theorem setFLane_sdh (n : Nat) (g : FabLane → FabLane) (s : State) : (setFLane n g s).sdh = s.sdh := rfl
@[simp] theorem setFLane_pac (n : Nat) (g : FabLane → FabLane) (s : State) : (setFLane n g s).pac = s.pac := rfl
@[simp] theorem setFLane_ftb (n : Nat) (g : FabLane → FabLane) (s : State) : (setFLane n g s).ftb = s.ftb := rfl
@[simp] theorem setFLane_exp (n : Nat) (g : FabLane → FabLane) (s : State) : (setFLane n g s).exp = s.exp := rfl
@[simp] theorem setFLane_bas (n : Nat) (g : FabLane → FabLane) (s : State) : (setFLane n g s).bas = s.bas := rfl
@[simp] theorem setFLane_pcr (n : Nat) (g : FabLane → FabLane) (s : State) : (setFLane n g s).pcr = s.pcr := rfl
@[simp] theorem setFLane_mem (n : Nat) (g : FabLane → FabLane) (s : State) : (setFLane n g s).mem = s.mem := rfl
@[simp] theorem setFLane_arc (n : Nat) (g : FabLane → FabLane) (s : State) : (setFLane n g s).arc = s.arc := rfl
@[simp] theorem setFLane_pair (n : Nat) (g : FabLane → FabLane) (s : State) : (setFLane n g s).pair = s.pair := rfl
@[simp] theorem setFLane_msh (n : Nat) (g : FabLane → FabLane) (s : State) : (setFLane n g s).msh = s.msh := rfl
@[simp] theorem setFLane_hif (n : Nat) (g : FabLane → FabLane) (s : State) : (setFLane n g s).hif = s.hif := rfl
@[simp] theorem setFLane_free (n : Nat) (g : FabLane → FabLane) (s : State) : (setFLane n g s).free = s.free := rfl
@[simp] theorem setFLane_pending (n : Nat) (g : FabLane → FabLane) (s : State) : (setFLane n g s).pending = s.pending := rfl

@[simp] theorem setFtb_link (f : Ftb → Ftb) (s : State) : (setFtb f s).link = s.link := rfl
@[simp] theorem setFtb_regs (f : Ftb → Ftb) (s : State) : (setFtb f s).regs = s.regs := rfl
@[simp] theorem setFtb_lock (f : Ftb → Ftb) (s : State) : (setFtb f s).lock = s.lock := rfl
@[simp] theorem setFtb_log (f : Ftb → Ftb) (s : State) : (setFtb f s).log = s.log := rfl
@[simp] theorem setFtb_snap (f : Ftb → Ftb) (s : State) : (setFtb f s).snap = s.snap := rfl
@[simp] theorem setFtb_irq (f : Ftb → Ftb) (s : State) : (setFtb f s).irq = s.irq := rfl
@[simp] theorem setFtb_resp (f : Ftb → Ftb) (s : State) : (setFtb f s).resp = s.resp := rfl
@[simp] theorem setFtb_tim (f : Ftb → Ftb) (s : State) : (setFtb f s).tim = s.tim := rfl
@[simp] theorem setFtb_boot (f : Ftb → Ftb) (s : State) : (setFtb f s).boot = s.boot := rfl
@[simp] theorem setFtb_fixed (f : Ftb → Ftb) (s : State) : (setFtb f s).fixed = s.fixed := rfl
@[simp] theorem setFtb_jtag (f : Ftb → Ftb) (s : State) : (setFtb f s).jtag = s.jtag := rfl
@[simp] theorem setFtb_lic (f : Ftb → Ftb) (s : State) : (setFtb f s).lic = s.lic := rfl
@[simp] theorem setFtb_sdh (f : Ftb → Ftb) (s : State) : (setFtb f s).sdh = s.sdh := rfl
@[simp] theorem setFtb_pac (f : Ftb → Ftb) (s : State) : (setFtb f s).pac = s.pac := rfl
@[simp] theorem setFtb_exp (f : Ftb → Ftb) (s : State) : (setFtb f s).exp = s.exp := rfl
@[simp] theorem setFtb_bas (f : Ftb → Ftb) (s : State) : (setFtb f s).bas = s.bas := rfl
@[simp] theorem setFtb_pcr (f : Ftb → Ftb) (s : State) : (setFtb f s).pcr = s.pcr := rfl
@[simp] theorem setFtb_fab (f : Ftb → Ftb) (s : State) : (setFtb f s).fab = s.fab := rfl
@[simp] theorem setFtb_mem (f : Ftb → Ftb) (s : State) : (setFtb f s).mem = s.mem := rfl
@[simp] theorem setFtb_arc (f : Ftb → Ftb) (s : State) : (setFtb f s).arc = s.arc := rfl
@[simp] theorem setFtb_pair (f : Ftb → Ftb) (s : State) : (setFtb f s).pair = s.pair := rfl
@[simp] theorem setFtb_msh (f : Ftb → Ftb) (s : State) : (setFtb f s).msh = s.msh := rfl
@[simp] theorem setFtb_hif (f : Ftb → Ftb) (s : State) : (setFtb f s).hif = s.hif := rfl
@[simp] theorem setFtb_free (f : Ftb → Ftb) (s : State) : (setFtb f s).free = s.free := rfl
@[simp] theorem setFtb_pending (f : Ftb → Ftb) (s : State) : (setFtb f s).pending = s.pending := rfl

@[simp] theorem setFtb_ftb (f : Ftb → Ftb) (s : State) : (setFtb f s).ftb = f s.ftb := rfl

@[simp] theorem setSlot_link (i : Nat) (x : FtbSlot) (s : State) : (setSlot i x s).link = s.link := rfl
@[simp] theorem setSlot_regs (i : Nat) (x : FtbSlot) (s : State) : (setSlot i x s).regs = s.regs := rfl
@[simp] theorem setSlot_lock (i : Nat) (x : FtbSlot) (s : State) : (setSlot i x s).lock = s.lock := rfl
@[simp] theorem setSlot_log (i : Nat) (x : FtbSlot) (s : State) : (setSlot i x s).log = s.log := rfl
@[simp] theorem setSlot_snap (i : Nat) (x : FtbSlot) (s : State) : (setSlot i x s).snap = s.snap := rfl
@[simp] theorem setSlot_irq (i : Nat) (x : FtbSlot) (s : State) : (setSlot i x s).irq = s.irq := rfl
@[simp] theorem setSlot_resp (i : Nat) (x : FtbSlot) (s : State) : (setSlot i x s).resp = s.resp := rfl
@[simp] theorem setSlot_tim (i : Nat) (x : FtbSlot) (s : State) : (setSlot i x s).tim = s.tim := rfl
@[simp] theorem setSlot_boot (i : Nat) (x : FtbSlot) (s : State) : (setSlot i x s).boot = s.boot := rfl
@[simp] theorem setSlot_fixed (i : Nat) (x : FtbSlot) (s : State) : (setSlot i x s).fixed = s.fixed := rfl
@[simp] theorem setSlot_jtag (i : Nat) (x : FtbSlot) (s : State) : (setSlot i x s).jtag = s.jtag := rfl
@[simp] theorem setSlot_lic (i : Nat) (x : FtbSlot) (s : State) : (setSlot i x s).lic = s.lic := rfl
@[simp] theorem setSlot_sdh (i : Nat) (x : FtbSlot) (s : State) : (setSlot i x s).sdh = s.sdh := rfl
@[simp] theorem setSlot_pac (i : Nat) (x : FtbSlot) (s : State) : (setSlot i x s).pac = s.pac := rfl
@[simp] theorem setSlot_exp (i : Nat) (x : FtbSlot) (s : State) : (setSlot i x s).exp = s.exp := rfl
@[simp] theorem setSlot_bas (i : Nat) (x : FtbSlot) (s : State) : (setSlot i x s).bas = s.bas := rfl
@[simp] theorem setSlot_pcr (i : Nat) (x : FtbSlot) (s : State) : (setSlot i x s).pcr = s.pcr := rfl
@[simp] theorem setSlot_fab (i : Nat) (x : FtbSlot) (s : State) : (setSlot i x s).fab = s.fab := rfl
@[simp] theorem setSlot_mem (i : Nat) (x : FtbSlot) (s : State) : (setSlot i x s).mem = s.mem := rfl
@[simp] theorem setSlot_arc (i : Nat) (x : FtbSlot) (s : State) : (setSlot i x s).arc = s.arc := rfl
@[simp] theorem setSlot_pair (i : Nat) (x : FtbSlot) (s : State) : (setSlot i x s).pair = s.pair := rfl
@[simp] theorem setSlot_msh (i : Nat) (x : FtbSlot) (s : State) : (setSlot i x s).msh = s.msh := rfl
@[simp] theorem setSlot_hif (i : Nat) (x : FtbSlot) (s : State) : (setSlot i x s).hif = s.hif := rfl
@[simp] theorem setSlot_free (i : Nat) (x : FtbSlot) (s : State) : (setSlot i x s).free = s.free := rfl
@[simp] theorem setSlot_pending (i : Nat) (x : FtbSlot) (s : State) : (setSlot i x s).pending = s.pending := rfl

@[simp] theorem setHif_link (f : Hif → Hif) (s : State) : (setHif f s).link = s.link := rfl
@[simp] theorem setHif_regs (f : Hif → Hif) (s : State) : (setHif f s).regs = s.regs := rfl
@[simp] theorem setHif_lock (f : Hif → Hif) (s : State) : (setHif f s).lock = s.lock := rfl
@[simp] theorem setHif_log (f : Hif → Hif) (s : State) : (setHif f s).log = s.log := rfl
@[simp] theorem setHif_snap (f : Hif → Hif) (s : State) : (setHif f s).snap = s.snap := rfl
@[simp] theorem setHif_irq (f : Hif → Hif) (s : State) : (setHif f s).irq = s.irq := rfl
@[simp] theorem setHif_resp (f : Hif → Hif) (s : State) : (setHif f s).resp = s.resp := rfl
@[simp] theorem setHif_tim (f : Hif → Hif) (s : State) : (setHif f s).tim = s.tim := rfl
@[simp] theorem setHif_boot (f : Hif → Hif) (s : State) : (setHif f s).boot = s.boot := rfl
@[simp] theorem setHif_fixed (f : Hif → Hif) (s : State) : (setHif f s).fixed = s.fixed := rfl
@[simp] theorem setHif_jtag (f : Hif → Hif) (s : State) : (setHif f s).jtag = s.jtag := rfl
@[simp] theorem setHif_lic (f : Hif → Hif) (s : State) : (setHif f s).lic = s.lic := rfl
@[simp] theorem setHif_sdh (f : Hif → Hif) (s : State) : (setHif f s).sdh = s.sdh := rfl
@[simp] theorem setHif_pac (f : Hif → Hif) (s : State) : (setHif f s).pac = s.pac := rfl
@[simp] theorem setHif_ftb (f : Hif → Hif) (s : State) : (setHif f s).ftb = s.ftb := rfl
@[simp] theorem setHif_exp (f : Hif → Hif) (s : State) : (setHif f s).exp = s.exp := rfl
@[simp] theorem setHif_bas (f : Hif → Hif) (s : State) : (setHif f s).bas = s.bas := rfl
@[simp] theorem setHif_pcr (f : Hif → Hif) (s : State) : (setHif f s).pcr = s.pcr := rfl
@[simp] theorem setHif_fab (f : Hif → Hif) (s : State) : (setHif f s).fab = s.fab := rfl
@[simp] theorem setHif_mem (f : Hif → Hif) (s : State) : (setHif f s).mem = s.mem := rfl
@[simp] theorem setHif_arc (f : Hif → Hif) (s : State) : (setHif f s).arc = s.arc := rfl
@[simp] theorem setHif_pair (f : Hif → Hif) (s : State) : (setHif f s).pair = s.pair := rfl
@[simp] theorem setHif_msh (f : Hif → Hif) (s : State) : (setHif f s).msh = s.msh := rfl
@[simp] theorem setHif_free (f : Hif → Hif) (s : State) : (setHif f s).free = s.free := rfl
@[simp] theorem setHif_pending (f : Hif → Hif) (s : State) : (setHif f s).pending = s.pending := rfl

@[simp] theorem setHif_hif (f : Hif → Hif) (s : State) : (setHif f s).hif = f s.hif := rfl

@[simp] theorem setQp_link (u : Nat) (f : Qp → Qp) (s : State) : (setQp u f s).link = s.link := rfl
@[simp] theorem setQp_regs (u : Nat) (f : Qp → Qp) (s : State) : (setQp u f s).regs = s.regs := rfl
@[simp] theorem setQp_lock (u : Nat) (f : Qp → Qp) (s : State) : (setQp u f s).lock = s.lock := rfl
@[simp] theorem setQp_log (u : Nat) (f : Qp → Qp) (s : State) : (setQp u f s).log = s.log := rfl
@[simp] theorem setQp_snap (u : Nat) (f : Qp → Qp) (s : State) : (setQp u f s).snap = s.snap := rfl
@[simp] theorem setQp_irq (u : Nat) (f : Qp → Qp) (s : State) : (setQp u f s).irq = s.irq := rfl
@[simp] theorem setQp_resp (u : Nat) (f : Qp → Qp) (s : State) : (setQp u f s).resp = s.resp := rfl
@[simp] theorem setQp_tim (u : Nat) (f : Qp → Qp) (s : State) : (setQp u f s).tim = s.tim := rfl
@[simp] theorem setQp_boot (u : Nat) (f : Qp → Qp) (s : State) : (setQp u f s).boot = s.boot := rfl
@[simp] theorem setQp_fixed (u : Nat) (f : Qp → Qp) (s : State) : (setQp u f s).fixed = s.fixed := rfl
@[simp] theorem setQp_jtag (u : Nat) (f : Qp → Qp) (s : State) : (setQp u f s).jtag = s.jtag := rfl
@[simp] theorem setQp_lic (u : Nat) (f : Qp → Qp) (s : State) : (setQp u f s).lic = s.lic := rfl
@[simp] theorem setQp_sdh (u : Nat) (f : Qp → Qp) (s : State) : (setQp u f s).sdh = s.sdh := rfl
@[simp] theorem setQp_pac (u : Nat) (f : Qp → Qp) (s : State) : (setQp u f s).pac = s.pac := rfl
@[simp] theorem setQp_ftb (u : Nat) (f : Qp → Qp) (s : State) : (setQp u f s).ftb = s.ftb := rfl
@[simp] theorem setQp_exp (u : Nat) (f : Qp → Qp) (s : State) : (setQp u f s).exp = s.exp := rfl
@[simp] theorem setQp_bas (u : Nat) (f : Qp → Qp) (s : State) : (setQp u f s).bas = s.bas := rfl
@[simp] theorem setQp_pcr (u : Nat) (f : Qp → Qp) (s : State) : (setQp u f s).pcr = s.pcr := rfl
@[simp] theorem setQp_fab (u : Nat) (f : Qp → Qp) (s : State) : (setQp u f s).fab = s.fab := rfl
@[simp] theorem setQp_mem (u : Nat) (f : Qp → Qp) (s : State) : (setQp u f s).mem = s.mem := rfl
@[simp] theorem setQp_arc (u : Nat) (f : Qp → Qp) (s : State) : (setQp u f s).arc = s.arc := rfl
@[simp] theorem setQp_pair (u : Nat) (f : Qp → Qp) (s : State) : (setQp u f s).pair = s.pair := rfl
@[simp] theorem setQp_msh (u : Nat) (f : Qp → Qp) (s : State) : (setQp u f s).msh = s.msh := rfl
@[simp] theorem setQp_free (u : Nat) (f : Qp → Qp) (s : State) : (setQp u f s).free = s.free := rfl
@[simp] theorem setQp_pending (u : Nat) (f : Qp → Qp) (s : State) : (setQp u f s).pending = s.pending := rfl

@[simp] theorem setMbx_link (k : Nat) (f : Mbx → Mbx) (s : State) : (setMbx k f s).link = s.link := rfl
@[simp] theorem setMbx_regs (k : Nat) (f : Mbx → Mbx) (s : State) : (setMbx k f s).regs = s.regs := rfl
@[simp] theorem setMbx_lock (k : Nat) (f : Mbx → Mbx) (s : State) : (setMbx k f s).lock = s.lock := rfl
@[simp] theorem setMbx_log (k : Nat) (f : Mbx → Mbx) (s : State) : (setMbx k f s).log = s.log := rfl
@[simp] theorem setMbx_snap (k : Nat) (f : Mbx → Mbx) (s : State) : (setMbx k f s).snap = s.snap := rfl
@[simp] theorem setMbx_irq (k : Nat) (f : Mbx → Mbx) (s : State) : (setMbx k f s).irq = s.irq := rfl
@[simp] theorem setMbx_resp (k : Nat) (f : Mbx → Mbx) (s : State) : (setMbx k f s).resp = s.resp := rfl
@[simp] theorem setMbx_tim (k : Nat) (f : Mbx → Mbx) (s : State) : (setMbx k f s).tim = s.tim := rfl
@[simp] theorem setMbx_boot (k : Nat) (f : Mbx → Mbx) (s : State) : (setMbx k f s).boot = s.boot := rfl
@[simp] theorem setMbx_fixed (k : Nat) (f : Mbx → Mbx) (s : State) : (setMbx k f s).fixed = s.fixed := rfl
@[simp] theorem setMbx_jtag (k : Nat) (f : Mbx → Mbx) (s : State) : (setMbx k f s).jtag = s.jtag := rfl
@[simp] theorem setMbx_lic (k : Nat) (f : Mbx → Mbx) (s : State) : (setMbx k f s).lic = s.lic := rfl
@[simp] theorem setMbx_sdh (k : Nat) (f : Mbx → Mbx) (s : State) : (setMbx k f s).sdh = s.sdh := rfl
@[simp] theorem setMbx_pac (k : Nat) (f : Mbx → Mbx) (s : State) : (setMbx k f s).pac = s.pac := rfl
@[simp] theorem setMbx_ftb (k : Nat) (f : Mbx → Mbx) (s : State) : (setMbx k f s).ftb = s.ftb := rfl
@[simp] theorem setMbx_exp (k : Nat) (f : Mbx → Mbx) (s : State) : (setMbx k f s).exp = s.exp := rfl
@[simp] theorem setMbx_bas (k : Nat) (f : Mbx → Mbx) (s : State) : (setMbx k f s).bas = s.bas := rfl
@[simp] theorem setMbx_pcr (k : Nat) (f : Mbx → Mbx) (s : State) : (setMbx k f s).pcr = s.pcr := rfl
@[simp] theorem setMbx_fab (k : Nat) (f : Mbx → Mbx) (s : State) : (setMbx k f s).fab = s.fab := rfl
@[simp] theorem setMbx_mem (k : Nat) (f : Mbx → Mbx) (s : State) : (setMbx k f s).mem = s.mem := rfl
@[simp] theorem setMbx_arc (k : Nat) (f : Mbx → Mbx) (s : State) : (setMbx k f s).arc = s.arc := rfl
@[simp] theorem setMbx_pair (k : Nat) (f : Mbx → Mbx) (s : State) : (setMbx k f s).pair = s.pair := rfl
@[simp] theorem setMbx_msh (k : Nat) (f : Mbx → Mbx) (s : State) : (setMbx k f s).msh = s.msh := rfl
@[simp] theorem setMbx_free (k : Nat) (f : Mbx → Mbx) (s : State) : (setMbx k f s).free = s.free := rfl
@[simp] theorem setMbx_pending (k : Nat) (f : Mbx → Mbx) (s : State) : (setMbx k f s).pending = s.pending := rfl

@[simp] theorem setFn_link (f : Nat) (g : FnSt → FnSt) (s : State) : (setFn f g s).link = s.link := rfl
@[simp] theorem setFn_regs (f : Nat) (g : FnSt → FnSt) (s : State) : (setFn f g s).regs = s.regs := rfl
@[simp] theorem setFn_lock (f : Nat) (g : FnSt → FnSt) (s : State) : (setFn f g s).lock = s.lock := rfl
@[simp] theorem setFn_log (f : Nat) (g : FnSt → FnSt) (s : State) : (setFn f g s).log = s.log := rfl
@[simp] theorem setFn_snap (f : Nat) (g : FnSt → FnSt) (s : State) : (setFn f g s).snap = s.snap := rfl
@[simp] theorem setFn_irq (f : Nat) (g : FnSt → FnSt) (s : State) : (setFn f g s).irq = s.irq := rfl
@[simp] theorem setFn_resp (f : Nat) (g : FnSt → FnSt) (s : State) : (setFn f g s).resp = s.resp := rfl
@[simp] theorem setFn_tim (f : Nat) (g : FnSt → FnSt) (s : State) : (setFn f g s).tim = s.tim := rfl
@[simp] theorem setFn_boot (f : Nat) (g : FnSt → FnSt) (s : State) : (setFn f g s).boot = s.boot := rfl
@[simp] theorem setFn_fixed (f : Nat) (g : FnSt → FnSt) (s : State) : (setFn f g s).fixed = s.fixed := rfl
@[simp] theorem setFn_jtag (f : Nat) (g : FnSt → FnSt) (s : State) : (setFn f g s).jtag = s.jtag := rfl
@[simp] theorem setFn_lic (f : Nat) (g : FnSt → FnSt) (s : State) : (setFn f g s).lic = s.lic := rfl
@[simp] theorem setFn_sdh (f : Nat) (g : FnSt → FnSt) (s : State) : (setFn f g s).sdh = s.sdh := rfl
@[simp] theorem setFn_pac (f : Nat) (g : FnSt → FnSt) (s : State) : (setFn f g s).pac = s.pac := rfl
@[simp] theorem setFn_ftb (f : Nat) (g : FnSt → FnSt) (s : State) : (setFn f g s).ftb = s.ftb := rfl
@[simp] theorem setFn_exp (f : Nat) (g : FnSt → FnSt) (s : State) : (setFn f g s).exp = s.exp := rfl
@[simp] theorem setFn_bas (f : Nat) (g : FnSt → FnSt) (s : State) : (setFn f g s).bas = s.bas := rfl
@[simp] theorem setFn_pcr (f : Nat) (g : FnSt → FnSt) (s : State) : (setFn f g s).pcr = s.pcr := rfl
@[simp] theorem setFn_fab (f : Nat) (g : FnSt → FnSt) (s : State) : (setFn f g s).fab = s.fab := rfl
@[simp] theorem setFn_mem (f : Nat) (g : FnSt → FnSt) (s : State) : (setFn f g s).mem = s.mem := rfl
@[simp] theorem setFn_arc (f : Nat) (g : FnSt → FnSt) (s : State) : (setFn f g s).arc = s.arc := rfl
@[simp] theorem setFn_pair (f : Nat) (g : FnSt → FnSt) (s : State) : (setFn f g s).pair = s.pair := rfl
@[simp] theorem setFn_msh (f : Nat) (g : FnSt → FnSt) (s : State) : (setFn f g s).msh = s.msh := rfl
@[simp] theorem setFn_free (f : Nat) (g : FnSt → FnSt) (s : State) : (setFn f g s).free = s.free := rfl
@[simp] theorem setFn_pending (f : Nat) (g : FnSt → FnSt) (s : State) : (setFn f g s).pending = s.pending := rfl

@[simp] theorem setLock_link (f : Lock → Lock) (s : State) : (setLock f s).link = s.link := rfl
@[simp] theorem setLock_regs (f : Lock → Lock) (s : State) : (setLock f s).regs = s.regs := rfl
@[simp] theorem setLock_log (f : Lock → Lock) (s : State) : (setLock f s).log = s.log := rfl
@[simp] theorem setLock_snap (f : Lock → Lock) (s : State) : (setLock f s).snap = s.snap := rfl
@[simp] theorem setLock_irq (f : Lock → Lock) (s : State) : (setLock f s).irq = s.irq := rfl
@[simp] theorem setLock_resp (f : Lock → Lock) (s : State) : (setLock f s).resp = s.resp := rfl
@[simp] theorem setLock_tim (f : Lock → Lock) (s : State) : (setLock f s).tim = s.tim := rfl
@[simp] theorem setLock_boot (f : Lock → Lock) (s : State) : (setLock f s).boot = s.boot := rfl
@[simp] theorem setLock_fixed (f : Lock → Lock) (s : State) : (setLock f s).fixed = s.fixed := rfl
@[simp] theorem setLock_jtag (f : Lock → Lock) (s : State) : (setLock f s).jtag = s.jtag := rfl
@[simp] theorem setLock_lic (f : Lock → Lock) (s : State) : (setLock f s).lic = s.lic := rfl
@[simp] theorem setLock_sdh (f : Lock → Lock) (s : State) : (setLock f s).sdh = s.sdh := rfl
@[simp] theorem setLock_pac (f : Lock → Lock) (s : State) : (setLock f s).pac = s.pac := rfl
@[simp] theorem setLock_ftb (f : Lock → Lock) (s : State) : (setLock f s).ftb = s.ftb := rfl
@[simp] theorem setLock_exp (f : Lock → Lock) (s : State) : (setLock f s).exp = s.exp := rfl
@[simp] theorem setLock_bas (f : Lock → Lock) (s : State) : (setLock f s).bas = s.bas := rfl
@[simp] theorem setLock_pcr (f : Lock → Lock) (s : State) : (setLock f s).pcr = s.pcr := rfl
@[simp] theorem setLock_fab (f : Lock → Lock) (s : State) : (setLock f s).fab = s.fab := rfl
@[simp] theorem setLock_mem (f : Lock → Lock) (s : State) : (setLock f s).mem = s.mem := rfl
@[simp] theorem setLock_arc (f : Lock → Lock) (s : State) : (setLock f s).arc = s.arc := rfl
@[simp] theorem setLock_pair (f : Lock → Lock) (s : State) : (setLock f s).pair = s.pair := rfl
@[simp] theorem setLock_msh (f : Lock → Lock) (s : State) : (setLock f s).msh = s.msh := rfl
@[simp] theorem setLock_hif (f : Lock → Lock) (s : State) : (setLock f s).hif = s.hif := rfl
@[simp] theorem setLock_free (f : Lock → Lock) (s : State) : (setLock f s).free = s.free := rfl
@[simp] theorem setLock_pending (f : Lock → Lock) (s : State) : (setLock f s).pending = s.pending := rfl

@[simp] theorem setLock_lock (f : Lock → Lock) (s : State) : (setLock f s).lock = f s.lock := rfl

@[simp] theorem setPort_link (c : Nat) (f : Port → Port) (s : State) : (setPort c f s).link = s.link := rfl
@[simp] theorem setPort_regs (c : Nat) (f : Port → Port) (s : State) : (setPort c f s).regs = s.regs := rfl
@[simp] theorem setPort_lock (c : Nat) (f : Port → Port) (s : State) : (setPort c f s).lock = s.lock := rfl
@[simp] theorem setPort_log (c : Nat) (f : Port → Port) (s : State) : (setPort c f s).log = s.log := rfl
@[simp] theorem setPort_snap (c : Nat) (f : Port → Port) (s : State) : (setPort c f s).snap = s.snap := rfl
@[simp] theorem setPort_irq (c : Nat) (f : Port → Port) (s : State) : (setPort c f s).irq = s.irq := rfl
@[simp] theorem setPort_resp (c : Nat) (f : Port → Port) (s : State) : (setPort c f s).resp = s.resp := rfl
@[simp] theorem setPort_tim (c : Nat) (f : Port → Port) (s : State) : (setPort c f s).tim = s.tim := rfl
@[simp] theorem setPort_boot (c : Nat) (f : Port → Port) (s : State) : (setPort c f s).boot = s.boot := rfl
@[simp] theorem setPort_fixed (c : Nat) (f : Port → Port) (s : State) : (setPort c f s).fixed = s.fixed := rfl
@[simp] theorem setPort_jtag (c : Nat) (f : Port → Port) (s : State) : (setPort c f s).jtag = s.jtag := rfl
@[simp] theorem setPort_sdh (c : Nat) (f : Port → Port) (s : State) : (setPort c f s).sdh = s.sdh := rfl
@[simp] theorem setPort_pac (c : Nat) (f : Port → Port) (s : State) : (setPort c f s).pac = s.pac := rfl
@[simp] theorem setPort_ftb (c : Nat) (f : Port → Port) (s : State) : (setPort c f s).ftb = s.ftb := rfl
@[simp] theorem setPort_exp (c : Nat) (f : Port → Port) (s : State) : (setPort c f s).exp = s.exp := rfl
@[simp] theorem setPort_bas (c : Nat) (f : Port → Port) (s : State) : (setPort c f s).bas = s.bas := rfl
@[simp] theorem setPort_pcr (c : Nat) (f : Port → Port) (s : State) : (setPort c f s).pcr = s.pcr := rfl
@[simp] theorem setPort_fab (c : Nat) (f : Port → Port) (s : State) : (setPort c f s).fab = s.fab := rfl
@[simp] theorem setPort_mem (c : Nat) (f : Port → Port) (s : State) : (setPort c f s).mem = s.mem := rfl
@[simp] theorem setPort_arc (c : Nat) (f : Port → Port) (s : State) : (setPort c f s).arc = s.arc := rfl
@[simp] theorem setPort_pair (c : Nat) (f : Port → Port) (s : State) : (setPort c f s).pair = s.pair := rfl
@[simp] theorem setPort_msh (c : Nat) (f : Port → Port) (s : State) : (setPort c f s).msh = s.msh := rfl
@[simp] theorem setPort_hif (c : Nat) (f : Port → Port) (s : State) : (setPort c f s).hif = s.hif := rfl
@[simp] theorem setPort_free (c : Nat) (f : Port → Port) (s : State) : (setPort c f s).free = s.free := rfl
@[simp] theorem setPort_pending (c : Nat) (f : Port → Port) (s : State) : (setPort c f s).pending = s.pending := rfl

@[simp] theorem setNl_link (n : Nat) (f : Lane → Lane) (s : State) : (setNl n f s).link = s.link := rfl
@[simp] theorem setNl_regs (n : Nat) (f : Lane → Lane) (s : State) : (setNl n f s).regs = s.regs := rfl
@[simp] theorem setNl_lock (n : Nat) (f : Lane → Lane) (s : State) : (setNl n f s).lock = s.lock := rfl
@[simp] theorem setNl_log (n : Nat) (f : Lane → Lane) (s : State) : (setNl n f s).log = s.log := rfl
@[simp] theorem setNl_snap (n : Nat) (f : Lane → Lane) (s : State) : (setNl n f s).snap = s.snap := rfl
@[simp] theorem setNl_irq (n : Nat) (f : Lane → Lane) (s : State) : (setNl n f s).irq = s.irq := rfl
@[simp] theorem setNl_resp (n : Nat) (f : Lane → Lane) (s : State) : (setNl n f s).resp = s.resp := rfl
@[simp] theorem setNl_tim (n : Nat) (f : Lane → Lane) (s : State) : (setNl n f s).tim = s.tim := rfl
@[simp] theorem setNl_boot (n : Nat) (f : Lane → Lane) (s : State) : (setNl n f s).boot = s.boot := rfl
@[simp] theorem setNl_fixed (n : Nat) (f : Lane → Lane) (s : State) : (setNl n f s).fixed = s.fixed := rfl
@[simp] theorem setNl_jtag (n : Nat) (f : Lane → Lane) (s : State) : (setNl n f s).jtag = s.jtag := rfl
@[simp] theorem setNl_sdh (n : Nat) (f : Lane → Lane) (s : State) : (setNl n f s).sdh = s.sdh := rfl
@[simp] theorem setNl_pac (n : Nat) (f : Lane → Lane) (s : State) : (setNl n f s).pac = s.pac := rfl
@[simp] theorem setNl_ftb (n : Nat) (f : Lane → Lane) (s : State) : (setNl n f s).ftb = s.ftb := rfl
@[simp] theorem setNl_exp (n : Nat) (f : Lane → Lane) (s : State) : (setNl n f s).exp = s.exp := rfl
@[simp] theorem setNl_bas (n : Nat) (f : Lane → Lane) (s : State) : (setNl n f s).bas = s.bas := rfl
@[simp] theorem setNl_pcr (n : Nat) (f : Lane → Lane) (s : State) : (setNl n f s).pcr = s.pcr := rfl
@[simp] theorem setNl_fab (n : Nat) (f : Lane → Lane) (s : State) : (setNl n f s).fab = s.fab := rfl
@[simp] theorem setNl_mem (n : Nat) (f : Lane → Lane) (s : State) : (setNl n f s).mem = s.mem := rfl
@[simp] theorem setNl_arc (n : Nat) (f : Lane → Lane) (s : State) : (setNl n f s).arc = s.arc := rfl
@[simp] theorem setNl_pair (n : Nat) (f : Lane → Lane) (s : State) : (setNl n f s).pair = s.pair := rfl
@[simp] theorem setNl_msh (n : Nat) (f : Lane → Lane) (s : State) : (setNl n f s).msh = s.msh := rfl
@[simp] theorem setNl_hif (n : Nat) (f : Lane → Lane) (s : State) : (setNl n f s).hif = s.hif := rfl
@[simp] theorem setNl_free (n : Nat) (f : Lane → Lane) (s : State) : (setNl n f s).free = s.free := rfl
@[simp] theorem setNl_pending (n : Nat) (f : Lane → Lane) (s : State) : (setNl n f s).pending = s.pending := rfl

@[simp] theorem setFl_link (n : Nat) (f : Lane → Lane) (s : State) : (setFl n f s).link = s.link := rfl
@[simp] theorem setFl_regs (n : Nat) (f : Lane → Lane) (s : State) : (setFl n f s).regs = s.regs := rfl
@[simp] theorem setFl_lock (n : Nat) (f : Lane → Lane) (s : State) : (setFl n f s).lock = s.lock := rfl
@[simp] theorem setFl_log (n : Nat) (f : Lane → Lane) (s : State) : (setFl n f s).log = s.log := rfl
@[simp] theorem setFl_snap (n : Nat) (f : Lane → Lane) (s : State) : (setFl n f s).snap = s.snap := rfl
@[simp] theorem setFl_irq (n : Nat) (f : Lane → Lane) (s : State) : (setFl n f s).irq = s.irq := rfl
@[simp] theorem setFl_resp (n : Nat) (f : Lane → Lane) (s : State) : (setFl n f s).resp = s.resp := rfl
@[simp] theorem setFl_tim (n : Nat) (f : Lane → Lane) (s : State) : (setFl n f s).tim = s.tim := rfl
@[simp] theorem setFl_boot (n : Nat) (f : Lane → Lane) (s : State) : (setFl n f s).boot = s.boot := rfl
@[simp] theorem setFl_fixed (n : Nat) (f : Lane → Lane) (s : State) : (setFl n f s).fixed = s.fixed := rfl
@[simp] theorem setFl_jtag (n : Nat) (f : Lane → Lane) (s : State) : (setFl n f s).jtag = s.jtag := rfl
@[simp] theorem setFl_sdh (n : Nat) (f : Lane → Lane) (s : State) : (setFl n f s).sdh = s.sdh := rfl
@[simp] theorem setFl_pac (n : Nat) (f : Lane → Lane) (s : State) : (setFl n f s).pac = s.pac := rfl
@[simp] theorem setFl_ftb (n : Nat) (f : Lane → Lane) (s : State) : (setFl n f s).ftb = s.ftb := rfl
@[simp] theorem setFl_exp (n : Nat) (f : Lane → Lane) (s : State) : (setFl n f s).exp = s.exp := rfl
@[simp] theorem setFl_bas (n : Nat) (f : Lane → Lane) (s : State) : (setFl n f s).bas = s.bas := rfl
@[simp] theorem setFl_pcr (n : Nat) (f : Lane → Lane) (s : State) : (setFl n f s).pcr = s.pcr := rfl
@[simp] theorem setFl_fab (n : Nat) (f : Lane → Lane) (s : State) : (setFl n f s).fab = s.fab := rfl
@[simp] theorem setFl_mem (n : Nat) (f : Lane → Lane) (s : State) : (setFl n f s).mem = s.mem := rfl
@[simp] theorem setFl_arc (n : Nat) (f : Lane → Lane) (s : State) : (setFl n f s).arc = s.arc := rfl
@[simp] theorem setFl_pair (n : Nat) (f : Lane → Lane) (s : State) : (setFl n f s).pair = s.pair := rfl
@[simp] theorem setFl_msh (n : Nat) (f : Lane → Lane) (s : State) : (setFl n f s).msh = s.msh := rfl
@[simp] theorem setFl_hif (n : Nat) (f : Lane → Lane) (s : State) : (setFl n f s).hif = s.hif := rfl
@[simp] theorem setFl_free (n : Nat) (f : Lane → Lane) (s : State) : (setFl n f s).free = s.free := rfl
@[simp] theorem setFl_pending (n : Nat) (f : Lane → Lane) (s : State) : (setFl n f s).pending = s.pending := rfl

@[simp] theorem setBl_link (n : Nat) (f : Lane → Lane) (s : State) : (setBl n f s).link = s.link := rfl
@[simp] theorem setBl_regs (n : Nat) (f : Lane → Lane) (s : State) : (setBl n f s).regs = s.regs := rfl
@[simp] theorem setBl_lock (n : Nat) (f : Lane → Lane) (s : State) : (setBl n f s).lock = s.lock := rfl
@[simp] theorem setBl_log (n : Nat) (f : Lane → Lane) (s : State) : (setBl n f s).log = s.log := rfl
@[simp] theorem setBl_snap (n : Nat) (f : Lane → Lane) (s : State) : (setBl n f s).snap = s.snap := rfl
@[simp] theorem setBl_irq (n : Nat) (f : Lane → Lane) (s : State) : (setBl n f s).irq = s.irq := rfl
@[simp] theorem setBl_resp (n : Nat) (f : Lane → Lane) (s : State) : (setBl n f s).resp = s.resp := rfl
@[simp] theorem setBl_tim (n : Nat) (f : Lane → Lane) (s : State) : (setBl n f s).tim = s.tim := rfl
@[simp] theorem setBl_boot (n : Nat) (f : Lane → Lane) (s : State) : (setBl n f s).boot = s.boot := rfl
@[simp] theorem setBl_fixed (n : Nat) (f : Lane → Lane) (s : State) : (setBl n f s).fixed = s.fixed := rfl
@[simp] theorem setBl_jtag (n : Nat) (f : Lane → Lane) (s : State) : (setBl n f s).jtag = s.jtag := rfl
@[simp] theorem setBl_sdh (n : Nat) (f : Lane → Lane) (s : State) : (setBl n f s).sdh = s.sdh := rfl
@[simp] theorem setBl_pac (n : Nat) (f : Lane → Lane) (s : State) : (setBl n f s).pac = s.pac := rfl
@[simp] theorem setBl_ftb (n : Nat) (f : Lane → Lane) (s : State) : (setBl n f s).ftb = s.ftb := rfl
@[simp] theorem setBl_exp (n : Nat) (f : Lane → Lane) (s : State) : (setBl n f s).exp = s.exp := rfl
@[simp] theorem setBl_bas (n : Nat) (f : Lane → Lane) (s : State) : (setBl n f s).bas = s.bas := rfl
@[simp] theorem setBl_pcr (n : Nat) (f : Lane → Lane) (s : State) : (setBl n f s).pcr = s.pcr := rfl
@[simp] theorem setBl_fab (n : Nat) (f : Lane → Lane) (s : State) : (setBl n f s).fab = s.fab := rfl
@[simp] theorem setBl_mem (n : Nat) (f : Lane → Lane) (s : State) : (setBl n f s).mem = s.mem := rfl
@[simp] theorem setBl_arc (n : Nat) (f : Lane → Lane) (s : State) : (setBl n f s).arc = s.arc := rfl
@[simp] theorem setBl_pair (n : Nat) (f : Lane → Lane) (s : State) : (setBl n f s).pair = s.pair := rfl
@[simp] theorem setBl_msh (n : Nat) (f : Lane → Lane) (s : State) : (setBl n f s).msh = s.msh := rfl
@[simp] theorem setBl_hif (n : Nat) (f : Lane → Lane) (s : State) : (setBl n f s).hif = s.hif := rfl
@[simp] theorem setBl_free (n : Nat) (f : Lane → Lane) (s : State) : (setBl n f s).free = s.free := rfl
@[simp] theorem setBl_pending (n : Nat) (f : Lane → Lane) (s : State) : (setBl n f s).pending = s.pending := rfl

@[simp] theorem setMem_link (f : Mem → Mem) (s : State) : (setMem f s).link = s.link := rfl
@[simp] theorem setMem_regs (f : Mem → Mem) (s : State) : (setMem f s).regs = s.regs := rfl
@[simp] theorem setMem_lock (f : Mem → Mem) (s : State) : (setMem f s).lock = s.lock := rfl
@[simp] theorem setMem_log (f : Mem → Mem) (s : State) : (setMem f s).log = s.log := rfl
@[simp] theorem setMem_snap (f : Mem → Mem) (s : State) : (setMem f s).snap = s.snap := rfl
@[simp] theorem setMem_irq (f : Mem → Mem) (s : State) : (setMem f s).irq = s.irq := rfl
@[simp] theorem setMem_resp (f : Mem → Mem) (s : State) : (setMem f s).resp = s.resp := rfl
@[simp] theorem setMem_tim (f : Mem → Mem) (s : State) : (setMem f s).tim = s.tim := rfl
@[simp] theorem setMem_boot (f : Mem → Mem) (s : State) : (setMem f s).boot = s.boot := rfl
@[simp] theorem setMem_fixed (f : Mem → Mem) (s : State) : (setMem f s).fixed = s.fixed := rfl
@[simp] theorem setMem_jtag (f : Mem → Mem) (s : State) : (setMem f s).jtag = s.jtag := rfl
@[simp] theorem setMem_lic (f : Mem → Mem) (s : State) : (setMem f s).lic = s.lic := rfl
@[simp] theorem setMem_sdh (f : Mem → Mem) (s : State) : (setMem f s).sdh = s.sdh := rfl
@[simp] theorem setMem_pac (f : Mem → Mem) (s : State) : (setMem f s).pac = s.pac := rfl
@[simp] theorem setMem_ftb (f : Mem → Mem) (s : State) : (setMem f s).ftb = s.ftb := rfl
@[simp] theorem setMem_exp (f : Mem → Mem) (s : State) : (setMem f s).exp = s.exp := rfl
@[simp] theorem setMem_bas (f : Mem → Mem) (s : State) : (setMem f s).bas = s.bas := rfl
@[simp] theorem setMem_pcr (f : Mem → Mem) (s : State) : (setMem f s).pcr = s.pcr := rfl
@[simp] theorem setMem_fab (f : Mem → Mem) (s : State) : (setMem f s).fab = s.fab := rfl
@[simp] theorem setMem_arc (f : Mem → Mem) (s : State) : (setMem f s).arc = s.arc := rfl
@[simp] theorem setMem_pair (f : Mem → Mem) (s : State) : (setMem f s).pair = s.pair := rfl
@[simp] theorem setMem_msh (f : Mem → Mem) (s : State) : (setMem f s).msh = s.msh := rfl
@[simp] theorem setMem_hif (f : Mem → Mem) (s : State) : (setMem f s).hif = s.hif := rfl
@[simp] theorem setMem_free (f : Mem → Mem) (s : State) : (setMem f s).free = s.free := rfl
@[simp] theorem setMem_pending (f : Mem → Mem) (s : State) : (setMem f s).pending = s.pending := rfl

@[simp] theorem setMem_mem (f : Mem → Mem) (s : State) : (setMem f s).mem = f s.mem := rfl

@[simp] theorem setCtl_link (c : Nat) (f : MemCtl → MemCtl) (s : State) : (setCtl c f s).link = s.link := rfl
@[simp] theorem setCtl_regs (c : Nat) (f : MemCtl → MemCtl) (s : State) : (setCtl c f s).regs = s.regs := rfl
@[simp] theorem setCtl_lock (c : Nat) (f : MemCtl → MemCtl) (s : State) : (setCtl c f s).lock = s.lock := rfl
@[simp] theorem setCtl_log (c : Nat) (f : MemCtl → MemCtl) (s : State) : (setCtl c f s).log = s.log := rfl
@[simp] theorem setCtl_snap (c : Nat) (f : MemCtl → MemCtl) (s : State) : (setCtl c f s).snap = s.snap := rfl
@[simp] theorem setCtl_irq (c : Nat) (f : MemCtl → MemCtl) (s : State) : (setCtl c f s).irq = s.irq := rfl
@[simp] theorem setCtl_resp (c : Nat) (f : MemCtl → MemCtl) (s : State) : (setCtl c f s).resp = s.resp := rfl
@[simp] theorem setCtl_tim (c : Nat) (f : MemCtl → MemCtl) (s : State) : (setCtl c f s).tim = s.tim := rfl
@[simp] theorem setCtl_boot (c : Nat) (f : MemCtl → MemCtl) (s : State) : (setCtl c f s).boot = s.boot := rfl
@[simp] theorem setCtl_fixed (c : Nat) (f : MemCtl → MemCtl) (s : State) : (setCtl c f s).fixed = s.fixed := rfl
@[simp] theorem setCtl_jtag (c : Nat) (f : MemCtl → MemCtl) (s : State) : (setCtl c f s).jtag = s.jtag := rfl
@[simp] theorem setCtl_lic (c : Nat) (f : MemCtl → MemCtl) (s : State) : (setCtl c f s).lic = s.lic := rfl
@[simp] theorem setCtl_sdh (c : Nat) (f : MemCtl → MemCtl) (s : State) : (setCtl c f s).sdh = s.sdh := rfl
@[simp] theorem setCtl_pac (c : Nat) (f : MemCtl → MemCtl) (s : State) : (setCtl c f s).pac = s.pac := rfl
@[simp] theorem setCtl_ftb (c : Nat) (f : MemCtl → MemCtl) (s : State) : (setCtl c f s).ftb = s.ftb := rfl
@[simp] theorem setCtl_exp (c : Nat) (f : MemCtl → MemCtl) (s : State) : (setCtl c f s).exp = s.exp := rfl
@[simp] theorem setCtl_bas (c : Nat) (f : MemCtl → MemCtl) (s : State) : (setCtl c f s).bas = s.bas := rfl
@[simp] theorem setCtl_pcr (c : Nat) (f : MemCtl → MemCtl) (s : State) : (setCtl c f s).pcr = s.pcr := rfl
@[simp] theorem setCtl_fab (c : Nat) (f : MemCtl → MemCtl) (s : State) : (setCtl c f s).fab = s.fab := rfl
@[simp] theorem setCtl_arc (c : Nat) (f : MemCtl → MemCtl) (s : State) : (setCtl c f s).arc = s.arc := rfl
@[simp] theorem setCtl_pair (c : Nat) (f : MemCtl → MemCtl) (s : State) : (setCtl c f s).pair = s.pair := rfl
@[simp] theorem setCtl_msh (c : Nat) (f : MemCtl → MemCtl) (s : State) : (setCtl c f s).msh = s.msh := rfl
@[simp] theorem setCtl_hif (c : Nat) (f : MemCtl → MemCtl) (s : State) : (setCtl c f s).hif = s.hif := rfl
@[simp] theorem setCtl_free (c : Nat) (f : MemCtl → MemCtl) (s : State) : (setCtl c f s).free = s.free := rfl
@[simp] theorem setCtl_pending (c : Nat) (f : MemCtl → MemCtl) (s : State) : (setCtl c f s).pending = s.pending := rfl

@[simp] theorem setCell_link (i : Nat) (b : Bytes) (s : State) : (setCell i b s).link = s.link := rfl
@[simp] theorem setCell_regs (i : Nat) (b : Bytes) (s : State) : (setCell i b s).regs = s.regs := rfl
@[simp] theorem setCell_lock (i : Nat) (b : Bytes) (s : State) : (setCell i b s).lock = s.lock := rfl
@[simp] theorem setCell_log (i : Nat) (b : Bytes) (s : State) : (setCell i b s).log = s.log := rfl
@[simp] theorem setCell_snap (i : Nat) (b : Bytes) (s : State) : (setCell i b s).snap = s.snap := rfl
@[simp] theorem setCell_irq (i : Nat) (b : Bytes) (s : State) : (setCell i b s).irq = s.irq := rfl
@[simp] theorem setCell_resp (i : Nat) (b : Bytes) (s : State) : (setCell i b s).resp = s.resp := rfl
@[simp] theorem setCell_tim (i : Nat) (b : Bytes) (s : State) : (setCell i b s).tim = s.tim := rfl
@[simp] theorem setCell_boot (i : Nat) (b : Bytes) (s : State) : (setCell i b s).boot = s.boot := rfl
@[simp] theorem setCell_fixed (i : Nat) (b : Bytes) (s : State) : (setCell i b s).fixed = s.fixed := rfl
@[simp] theorem setCell_jtag (i : Nat) (b : Bytes) (s : State) : (setCell i b s).jtag = s.jtag := rfl
@[simp] theorem setCell_lic (i : Nat) (b : Bytes) (s : State) : (setCell i b s).lic = s.lic := rfl
@[simp] theorem setCell_sdh (i : Nat) (b : Bytes) (s : State) : (setCell i b s).sdh = s.sdh := rfl
@[simp] theorem setCell_pac (i : Nat) (b : Bytes) (s : State) : (setCell i b s).pac = s.pac := rfl
@[simp] theorem setCell_ftb (i : Nat) (b : Bytes) (s : State) : (setCell i b s).ftb = s.ftb := rfl
@[simp] theorem setCell_exp (i : Nat) (b : Bytes) (s : State) : (setCell i b s).exp = s.exp := rfl
@[simp] theorem setCell_bas (i : Nat) (b : Bytes) (s : State) : (setCell i b s).bas = s.bas := rfl
@[simp] theorem setCell_pcr (i : Nat) (b : Bytes) (s : State) : (setCell i b s).pcr = s.pcr := rfl
@[simp] theorem setCell_fab (i : Nat) (b : Bytes) (s : State) : (setCell i b s).fab = s.fab := rfl
@[simp] theorem setCell_arc (i : Nat) (b : Bytes) (s : State) : (setCell i b s).arc = s.arc := rfl
@[simp] theorem setCell_pair (i : Nat) (b : Bytes) (s : State) : (setCell i b s).pair = s.pair := rfl
@[simp] theorem setCell_msh (i : Nat) (b : Bytes) (s : State) : (setCell i b s).msh = s.msh := rfl
@[simp] theorem setCell_hif (i : Nat) (b : Bytes) (s : State) : (setCell i b s).hif = s.hif := rfl
@[simp] theorem setCell_free (i : Nat) (b : Bytes) (s : State) : (setCell i b s).free = s.free := rfl
@[simp] theorem setCell_pending (i : Nat) (b : Bytes) (s : State) : (setCell i b s).pending = s.pending := rfl

@[simp] theorem setMsh_link (f : Msh → Msh) (s : State) : (setMsh f s).link = s.link := rfl
@[simp] theorem setMsh_regs (f : Msh → Msh) (s : State) : (setMsh f s).regs = s.regs := rfl
@[simp] theorem setMsh_lock (f : Msh → Msh) (s : State) : (setMsh f s).lock = s.lock := rfl
@[simp] theorem setMsh_log (f : Msh → Msh) (s : State) : (setMsh f s).log = s.log := rfl
@[simp] theorem setMsh_snap (f : Msh → Msh) (s : State) : (setMsh f s).snap = s.snap := rfl
@[simp] theorem setMsh_irq (f : Msh → Msh) (s : State) : (setMsh f s).irq = s.irq := rfl
@[simp] theorem setMsh_resp (f : Msh → Msh) (s : State) : (setMsh f s).resp = s.resp := rfl
@[simp] theorem setMsh_tim (f : Msh → Msh) (s : State) : (setMsh f s).tim = s.tim := rfl
@[simp] theorem setMsh_boot (f : Msh → Msh) (s : State) : (setMsh f s).boot = s.boot := rfl
@[simp] theorem setMsh_fixed (f : Msh → Msh) (s : State) : (setMsh f s).fixed = s.fixed := rfl
@[simp] theorem setMsh_jtag (f : Msh → Msh) (s : State) : (setMsh f s).jtag = s.jtag := rfl
@[simp] theorem setMsh_lic (f : Msh → Msh) (s : State) : (setMsh f s).lic = s.lic := rfl
@[simp] theorem setMsh_sdh (f : Msh → Msh) (s : State) : (setMsh f s).sdh = s.sdh := rfl
@[simp] theorem setMsh_pac (f : Msh → Msh) (s : State) : (setMsh f s).pac = s.pac := rfl
@[simp] theorem setMsh_ftb (f : Msh → Msh) (s : State) : (setMsh f s).ftb = s.ftb := rfl
@[simp] theorem setMsh_exp (f : Msh → Msh) (s : State) : (setMsh f s).exp = s.exp := rfl
@[simp] theorem setMsh_bas (f : Msh → Msh) (s : State) : (setMsh f s).bas = s.bas := rfl
@[simp] theorem setMsh_pcr (f : Msh → Msh) (s : State) : (setMsh f s).pcr = s.pcr := rfl
@[simp] theorem setMsh_fab (f : Msh → Msh) (s : State) : (setMsh f s).fab = s.fab := rfl
@[simp] theorem setMsh_mem (f : Msh → Msh) (s : State) : (setMsh f s).mem = s.mem := rfl
@[simp] theorem setMsh_arc (f : Msh → Msh) (s : State) : (setMsh f s).arc = s.arc := rfl
@[simp] theorem setMsh_pair (f : Msh → Msh) (s : State) : (setMsh f s).pair = s.pair := rfl
@[simp] theorem setMsh_hif (f : Msh → Msh) (s : State) : (setMsh f s).hif = s.hif := rfl
@[simp] theorem setMsh_free (f : Msh → Msh) (s : State) : (setMsh f s).free = s.free := rfl
@[simp] theorem setMsh_pending (f : Msh → Msh) (s : State) : (setMsh f s).pending = s.pending := rfl

@[simp] theorem setMsh_msh (f : Msh → Msh) (s : State) : (setMsh f s).msh = f s.msh := rfl

@[simp] theorem setCon_link (f : Console → Console) (s : State) : (setCon f s).link = s.link := rfl
@[simp] theorem setCon_regs (f : Console → Console) (s : State) : (setCon f s).regs = s.regs := rfl
@[simp] theorem setCon_lock (f : Console → Console) (s : State) : (setCon f s).lock = s.lock := rfl
@[simp] theorem setCon_log (f : Console → Console) (s : State) : (setCon f s).log = s.log := rfl
@[simp] theorem setCon_snap (f : Console → Console) (s : State) : (setCon f s).snap = s.snap := rfl
@[simp] theorem setCon_irq (f : Console → Console) (s : State) : (setCon f s).irq = s.irq := rfl
@[simp] theorem setCon_resp (f : Console → Console) (s : State) : (setCon f s).resp = s.resp := rfl
@[simp] theorem setCon_tim (f : Console → Console) (s : State) : (setCon f s).tim = s.tim := rfl
@[simp] theorem setCon_boot (f : Console → Console) (s : State) : (setCon f s).boot = s.boot := rfl
@[simp] theorem setCon_fixed (f : Console → Console) (s : State) : (setCon f s).fixed = s.fixed := rfl
@[simp] theorem setCon_jtag (f : Console → Console) (s : State) : (setCon f s).jtag = s.jtag := rfl
@[simp] theorem setCon_lic (f : Console → Console) (s : State) : (setCon f s).lic = s.lic := rfl
@[simp] theorem setCon_sdh (f : Console → Console) (s : State) : (setCon f s).sdh = s.sdh := rfl
@[simp] theorem setCon_pac (f : Console → Console) (s : State) : (setCon f s).pac = s.pac := rfl
@[simp] theorem setCon_ftb (f : Console → Console) (s : State) : (setCon f s).ftb = s.ftb := rfl
@[simp] theorem setCon_exp (f : Console → Console) (s : State) : (setCon f s).exp = s.exp := rfl
@[simp] theorem setCon_bas (f : Console → Console) (s : State) : (setCon f s).bas = s.bas := rfl
@[simp] theorem setCon_pcr (f : Console → Console) (s : State) : (setCon f s).pcr = s.pcr := rfl
@[simp] theorem setCon_fab (f : Console → Console) (s : State) : (setCon f s).fab = s.fab := rfl
@[simp] theorem setCon_mem (f : Console → Console) (s : State) : (setCon f s).mem = s.mem := rfl
@[simp] theorem setCon_arc (f : Console → Console) (s : State) : (setCon f s).arc = s.arc := rfl
@[simp] theorem setCon_pair (f : Console → Console) (s : State) : (setCon f s).pair = s.pair := rfl
@[simp] theorem setCon_hif (f : Console → Console) (s : State) : (setCon f s).hif = s.hif := rfl
@[simp] theorem setCon_free (f : Console → Console) (s : State) : (setCon f s).free = s.free := rfl
@[simp] theorem setCon_pending (f : Console → Console) (s : State) : (setCon f s).pending = s.pending := rfl

@[simp] theorem setHeat_link (f : Heat → Heat) (s : State) : (setHeat f s).link = s.link := rfl
@[simp] theorem setHeat_regs (f : Heat → Heat) (s : State) : (setHeat f s).regs = s.regs := rfl
@[simp] theorem setHeat_lock (f : Heat → Heat) (s : State) : (setHeat f s).lock = s.lock := rfl
@[simp] theorem setHeat_log (f : Heat → Heat) (s : State) : (setHeat f s).log = s.log := rfl
@[simp] theorem setHeat_snap (f : Heat → Heat) (s : State) : (setHeat f s).snap = s.snap := rfl
@[simp] theorem setHeat_irq (f : Heat → Heat) (s : State) : (setHeat f s).irq = s.irq := rfl
@[simp] theorem setHeat_resp (f : Heat → Heat) (s : State) : (setHeat f s).resp = s.resp := rfl
@[simp] theorem setHeat_tim (f : Heat → Heat) (s : State) : (setHeat f s).tim = s.tim := rfl
@[simp] theorem setHeat_boot (f : Heat → Heat) (s : State) : (setHeat f s).boot = s.boot := rfl
@[simp] theorem setHeat_fixed (f : Heat → Heat) (s : State) : (setHeat f s).fixed = s.fixed := rfl
@[simp] theorem setHeat_jtag (f : Heat → Heat) (s : State) : (setHeat f s).jtag = s.jtag := rfl
@[simp] theorem setHeat_lic (f : Heat → Heat) (s : State) : (setHeat f s).lic = s.lic := rfl
@[simp] theorem setHeat_sdh (f : Heat → Heat) (s : State) : (setHeat f s).sdh = s.sdh := rfl
@[simp] theorem setHeat_pac (f : Heat → Heat) (s : State) : (setHeat f s).pac = s.pac := rfl
@[simp] theorem setHeat_ftb (f : Heat → Heat) (s : State) : (setHeat f s).ftb = s.ftb := rfl
@[simp] theorem setHeat_exp (f : Heat → Heat) (s : State) : (setHeat f s).exp = s.exp := rfl
@[simp] theorem setHeat_bas (f : Heat → Heat) (s : State) : (setHeat f s).bas = s.bas := rfl
@[simp] theorem setHeat_pcr (f : Heat → Heat) (s : State) : (setHeat f s).pcr = s.pcr := rfl
@[simp] theorem setHeat_fab (f : Heat → Heat) (s : State) : (setHeat f s).fab = s.fab := rfl
@[simp] theorem setHeat_mem (f : Heat → Heat) (s : State) : (setHeat f s).mem = s.mem := rfl
@[simp] theorem setHeat_arc (f : Heat → Heat) (s : State) : (setHeat f s).arc = s.arc := rfl
@[simp] theorem setHeat_pair (f : Heat → Heat) (s : State) : (setHeat f s).pair = s.pair := rfl
@[simp] theorem setHeat_hif (f : Heat → Heat) (s : State) : (setHeat f s).hif = s.hif := rfl
@[simp] theorem setHeat_free (f : Heat → Heat) (s : State) : (setHeat f s).free = s.free := rfl
@[simp] theorem setHeat_pending (f : Heat → Heat) (s : State) : (setHeat f s).pending = s.pending := rfl

@[simp] theorem setBucket_link (k : Nat) (b : Bucket) (s : State) : (setBucket k b s).link = s.link := rfl
@[simp] theorem setBucket_regs (k : Nat) (b : Bucket) (s : State) : (setBucket k b s).regs = s.regs := rfl
@[simp] theorem setBucket_lock (k : Nat) (b : Bucket) (s : State) : (setBucket k b s).lock = s.lock := rfl
@[simp] theorem setBucket_log (k : Nat) (b : Bucket) (s : State) : (setBucket k b s).log = s.log := rfl
@[simp] theorem setBucket_snap (k : Nat) (b : Bucket) (s : State) : (setBucket k b s).snap = s.snap := rfl
@[simp] theorem setBucket_irq (k : Nat) (b : Bucket) (s : State) : (setBucket k b s).irq = s.irq := rfl
@[simp] theorem setBucket_resp (k : Nat) (b : Bucket) (s : State) : (setBucket k b s).resp = s.resp := rfl
@[simp] theorem setBucket_tim (k : Nat) (b : Bucket) (s : State) : (setBucket k b s).tim = s.tim := rfl
@[simp] theorem setBucket_boot (k : Nat) (b : Bucket) (s : State) : (setBucket k b s).boot = s.boot := rfl
@[simp] theorem setBucket_fixed (k : Nat) (b : Bucket) (s : State) : (setBucket k b s).fixed = s.fixed := rfl
@[simp] theorem setBucket_jtag (k : Nat) (b : Bucket) (s : State) : (setBucket k b s).jtag = s.jtag := rfl
@[simp] theorem setBucket_lic (k : Nat) (b : Bucket) (s : State) : (setBucket k b s).lic = s.lic := rfl
@[simp] theorem setBucket_sdh (k : Nat) (b : Bucket) (s : State) : (setBucket k b s).sdh = s.sdh := rfl
@[simp] theorem setBucket_pac (k : Nat) (b : Bucket) (s : State) : (setBucket k b s).pac = s.pac := rfl
@[simp] theorem setBucket_ftb (k : Nat) (b : Bucket) (s : State) : (setBucket k b s).ftb = s.ftb := rfl
@[simp] theorem setBucket_exp (k : Nat) (b : Bucket) (s : State) : (setBucket k b s).exp = s.exp := rfl
@[simp] theorem setBucket_bas (k : Nat) (b : Bucket) (s : State) : (setBucket k b s).bas = s.bas := rfl
@[simp] theorem setBucket_fab (k : Nat) (b : Bucket) (s : State) : (setBucket k b s).fab = s.fab := rfl
@[simp] theorem setBucket_mem (k : Nat) (b : Bucket) (s : State) : (setBucket k b s).mem = s.mem := rfl
@[simp] theorem setBucket_arc (k : Nat) (b : Bucket) (s : State) : (setBucket k b s).arc = s.arc := rfl
@[simp] theorem setBucket_pair (k : Nat) (b : Bucket) (s : State) : (setBucket k b s).pair = s.pair := rfl
@[simp] theorem setBucket_msh (k : Nat) (b : Bucket) (s : State) : (setBucket k b s).msh = s.msh := rfl
@[simp] theorem setBucket_hif (k : Nat) (b : Bucket) (s : State) : (setBucket k b s).hif = s.hif := rfl
@[simp] theorem setBucket_free (k : Nat) (b : Bucket) (s : State) : (setBucket k b s).free = s.free := rfl
@[simp] theorem setBucket_pending (k : Nat) (b : Bucket) (s : State) : (setBucket k b s).pending = s.pending := rfl

@[simp] theorem setTag_link (k : Nat) (x : PTag) (s : State) : (setTag k x s).link = s.link := rfl
@[simp] theorem setTag_regs (k : Nat) (x : PTag) (s : State) : (setTag k x s).regs = s.regs := rfl
@[simp] theorem setTag_lock (k : Nat) (x : PTag) (s : State) : (setTag k x s).lock = s.lock := rfl
@[simp] theorem setTag_log (k : Nat) (x : PTag) (s : State) : (setTag k x s).log = s.log := rfl
@[simp] theorem setTag_snap (k : Nat) (x : PTag) (s : State) : (setTag k x s).snap = s.snap := rfl
@[simp] theorem setTag_irq (k : Nat) (x : PTag) (s : State) : (setTag k x s).irq = s.irq := rfl
@[simp] theorem setTag_resp (k : Nat) (x : PTag) (s : State) : (setTag k x s).resp = s.resp := rfl
@[simp] theorem setTag_tim (k : Nat) (x : PTag) (s : State) : (setTag k x s).tim = s.tim := rfl
@[simp] theorem setTag_boot (k : Nat) (x : PTag) (s : State) : (setTag k x s).boot = s.boot := rfl
@[simp] theorem setTag_fixed (k : Nat) (x : PTag) (s : State) : (setTag k x s).fixed = s.fixed := rfl
@[simp] theorem setTag_jtag (k : Nat) (x : PTag) (s : State) : (setTag k x s).jtag = s.jtag := rfl
@[simp] theorem setTag_lic (k : Nat) (x : PTag) (s : State) : (setTag k x s).lic = s.lic := rfl
@[simp] theorem setTag_sdh (k : Nat) (x : PTag) (s : State) : (setTag k x s).sdh = s.sdh := rfl
@[simp] theorem setTag_pac (k : Nat) (x : PTag) (s : State) : (setTag k x s).pac = s.pac := rfl
@[simp] theorem setTag_ftb (k : Nat) (x : PTag) (s : State) : (setTag k x s).ftb = s.ftb := rfl
@[simp] theorem setTag_exp (k : Nat) (x : PTag) (s : State) : (setTag k x s).exp = s.exp := rfl
@[simp] theorem setTag_bas (k : Nat) (x : PTag) (s : State) : (setTag k x s).bas = s.bas := rfl
@[simp] theorem setTag_fab (k : Nat) (x : PTag) (s : State) : (setTag k x s).fab = s.fab := rfl
@[simp] theorem setTag_mem (k : Nat) (x : PTag) (s : State) : (setTag k x s).mem = s.mem := rfl
@[simp] theorem setTag_arc (k : Nat) (x : PTag) (s : State) : (setTag k x s).arc = s.arc := rfl
@[simp] theorem setTag_pair (k : Nat) (x : PTag) (s : State) : (setTag k x s).pair = s.pair := rfl
@[simp] theorem setTag_msh (k : Nat) (x : PTag) (s : State) : (setTag k x s).msh = s.msh := rfl
@[simp] theorem setTag_hif (k : Nat) (x : PTag) (s : State) : (setTag k x s).hif = s.hif := rfl
@[simp] theorem setTag_free (k : Nat) (x : PTag) (s : State) : (setTag k x s).free = s.free := rfl
@[simp] theorem setTag_pending (k : Nat) (x : PTag) (s : State) : (setTag k x s).pending = s.pending := rfl

@[simp] theorem setGate_link (c : Nat) (f : GateCh → GateCh) (s : State) : (setGate c f s).link = s.link := rfl
@[simp] theorem setGate_regs (c : Nat) (f : GateCh → GateCh) (s : State) : (setGate c f s).regs = s.regs := rfl
@[simp] theorem setGate_lock (c : Nat) (f : GateCh → GateCh) (s : State) : (setGate c f s).lock = s.lock := rfl
@[simp] theorem setGate_log (c : Nat) (f : GateCh → GateCh) (s : State) : (setGate c f s).log = s.log := rfl
@[simp] theorem setGate_snap (c : Nat) (f : GateCh → GateCh) (s : State) : (setGate c f s).snap = s.snap := rfl
@[simp] theorem setGate_irq (c : Nat) (f : GateCh → GateCh) (s : State) : (setGate c f s).irq = s.irq := rfl
@[simp] theorem setGate_resp (c : Nat) (f : GateCh → GateCh) (s : State) : (setGate c f s).resp = s.resp := rfl
@[simp] theorem setGate_tim (c : Nat) (f : GateCh → GateCh) (s : State) : (setGate c f s).tim = s.tim := rfl
@[simp] theorem setGate_boot (c : Nat) (f : GateCh → GateCh) (s : State) : (setGate c f s).boot = s.boot := rfl
@[simp] theorem setGate_fixed (c : Nat) (f : GateCh → GateCh) (s : State) : (setGate c f s).fixed = s.fixed := rfl
@[simp] theorem setGate_jtag (c : Nat) (f : GateCh → GateCh) (s : State) : (setGate c f s).jtag = s.jtag := rfl
@[simp] theorem setGate_lic (c : Nat) (f : GateCh → GateCh) (s : State) : (setGate c f s).lic = s.lic := rfl
@[simp] theorem setGate_sdh (c : Nat) (f : GateCh → GateCh) (s : State) : (setGate c f s).sdh = s.sdh := rfl
@[simp] theorem setGate_pac (c : Nat) (f : GateCh → GateCh) (s : State) : (setGate c f s).pac = s.pac := rfl
@[simp] theorem setGate_ftb (c : Nat) (f : GateCh → GateCh) (s : State) : (setGate c f s).ftb = s.ftb := rfl
@[simp] theorem setGate_exp (c : Nat) (f : GateCh → GateCh) (s : State) : (setGate c f s).exp = s.exp := rfl
@[simp] theorem setGate_bas (c : Nat) (f : GateCh → GateCh) (s : State) : (setGate c f s).bas = s.bas := rfl
@[simp] theorem setGate_fab (c : Nat) (f : GateCh → GateCh) (s : State) : (setGate c f s).fab = s.fab := rfl
@[simp] theorem setGate_mem (c : Nat) (f : GateCh → GateCh) (s : State) : (setGate c f s).mem = s.mem := rfl
@[simp] theorem setGate_arc (c : Nat) (f : GateCh → GateCh) (s : State) : (setGate c f s).arc = s.arc := rfl
@[simp] theorem setGate_pair (c : Nat) (f : GateCh → GateCh) (s : State) : (setGate c f s).pair = s.pair := rfl
@[simp] theorem setGate_msh (c : Nat) (f : GateCh → GateCh) (s : State) : (setGate c f s).msh = s.msh := rfl
@[simp] theorem setGate_hif (c : Nat) (f : GateCh → GateCh) (s : State) : (setGate c f s).hif = s.hif := rfl
@[simp] theorem setGate_free (c : Nat) (f : GateCh → GateCh) (s : State) : (setGate c f s).free = s.free := rfl
@[simp] theorem setGate_pending (c : Nat) (f : GateCh → GateCh) (s : State) : (setGate c f s).pending = s.pending := rfl

@[simp] theorem setPcr_link (f : Pcr → Pcr) (s : State) : (setPcr f s).link = s.link := rfl
@[simp] theorem setPcr_regs (f : Pcr → Pcr) (s : State) : (setPcr f s).regs = s.regs := rfl
@[simp] theorem setPcr_lock (f : Pcr → Pcr) (s : State) : (setPcr f s).lock = s.lock := rfl
@[simp] theorem setPcr_log (f : Pcr → Pcr) (s : State) : (setPcr f s).log = s.log := rfl
@[simp] theorem setPcr_snap (f : Pcr → Pcr) (s : State) : (setPcr f s).snap = s.snap := rfl
@[simp] theorem setPcr_irq (f : Pcr → Pcr) (s : State) : (setPcr f s).irq = s.irq := rfl
@[simp] theorem setPcr_resp (f : Pcr → Pcr) (s : State) : (setPcr f s).resp = s.resp := rfl
@[simp] theorem setPcr_tim (f : Pcr → Pcr) (s : State) : (setPcr f s).tim = s.tim := rfl
@[simp] theorem setPcr_boot (f : Pcr → Pcr) (s : State) : (setPcr f s).boot = s.boot := rfl
@[simp] theorem setPcr_fixed (f : Pcr → Pcr) (s : State) : (setPcr f s).fixed = s.fixed := rfl
@[simp] theorem setPcr_jtag (f : Pcr → Pcr) (s : State) : (setPcr f s).jtag = s.jtag := rfl
@[simp] theorem setPcr_lic (f : Pcr → Pcr) (s : State) : (setPcr f s).lic = s.lic := rfl
@[simp] theorem setPcr_sdh (f : Pcr → Pcr) (s : State) : (setPcr f s).sdh = s.sdh := rfl
@[simp] theorem setPcr_pac (f : Pcr → Pcr) (s : State) : (setPcr f s).pac = s.pac := rfl
@[simp] theorem setPcr_ftb (f : Pcr → Pcr) (s : State) : (setPcr f s).ftb = s.ftb := rfl
@[simp] theorem setPcr_exp (f : Pcr → Pcr) (s : State) : (setPcr f s).exp = s.exp := rfl
@[simp] theorem setPcr_bas (f : Pcr → Pcr) (s : State) : (setPcr f s).bas = s.bas := rfl
@[simp] theorem setPcr_fab (f : Pcr → Pcr) (s : State) : (setPcr f s).fab = s.fab := rfl
@[simp] theorem setPcr_mem (f : Pcr → Pcr) (s : State) : (setPcr f s).mem = s.mem := rfl
@[simp] theorem setPcr_arc (f : Pcr → Pcr) (s : State) : (setPcr f s).arc = s.arc := rfl
@[simp] theorem setPcr_pair (f : Pcr → Pcr) (s : State) : (setPcr f s).pair = s.pair := rfl
@[simp] theorem setPcr_msh (f : Pcr → Pcr) (s : State) : (setPcr f s).msh = s.msh := rfl
@[simp] theorem setPcr_hif (f : Pcr → Pcr) (s : State) : (setPcr f s).hif = s.hif := rfl
@[simp] theorem setPcr_free (f : Pcr → Pcr) (s : State) : (setPcr f s).free = s.free := rfl
@[simp] theorem setPcr_pending (f : Pcr → Pcr) (s : State) : (setPcr f s).pending = s.pending := rfl

@[simp] theorem setPcr_pcr (f : Pcr → Pcr) (s : State) : (setPcr f s).pcr = f s.pcr := rfl

@[simp] theorem setJtag_link (f : Jtag → Jtag) (s : State) : (setJtag f s).link = s.link := rfl
@[simp] theorem setJtag_regs (f : Jtag → Jtag) (s : State) : (setJtag f s).regs = s.regs := rfl
@[simp] theorem setJtag_lock (f : Jtag → Jtag) (s : State) : (setJtag f s).lock = s.lock := rfl
@[simp] theorem setJtag_log (f : Jtag → Jtag) (s : State) : (setJtag f s).log = s.log := rfl
@[simp] theorem setJtag_snap (f : Jtag → Jtag) (s : State) : (setJtag f s).snap = s.snap := rfl
@[simp] theorem setJtag_irq (f : Jtag → Jtag) (s : State) : (setJtag f s).irq = s.irq := rfl
@[simp] theorem setJtag_resp (f : Jtag → Jtag) (s : State) : (setJtag f s).resp = s.resp := rfl
@[simp] theorem setJtag_tim (f : Jtag → Jtag) (s : State) : (setJtag f s).tim = s.tim := rfl
@[simp] theorem setJtag_boot (f : Jtag → Jtag) (s : State) : (setJtag f s).boot = s.boot := rfl
@[simp] theorem setJtag_fixed (f : Jtag → Jtag) (s : State) : (setJtag f s).fixed = s.fixed := rfl
@[simp] theorem setJtag_lic (f : Jtag → Jtag) (s : State) : (setJtag f s).lic = s.lic := rfl
@[simp] theorem setJtag_sdh (f : Jtag → Jtag) (s : State) : (setJtag f s).sdh = s.sdh := rfl
@[simp] theorem setJtag_pac (f : Jtag → Jtag) (s : State) : (setJtag f s).pac = s.pac := rfl
@[simp] theorem setJtag_ftb (f : Jtag → Jtag) (s : State) : (setJtag f s).ftb = s.ftb := rfl
@[simp] theorem setJtag_exp (f : Jtag → Jtag) (s : State) : (setJtag f s).exp = s.exp := rfl
@[simp] theorem setJtag_bas (f : Jtag → Jtag) (s : State) : (setJtag f s).bas = s.bas := rfl
@[simp] theorem setJtag_pcr (f : Jtag → Jtag) (s : State) : (setJtag f s).pcr = s.pcr := rfl
@[simp] theorem setJtag_fab (f : Jtag → Jtag) (s : State) : (setJtag f s).fab = s.fab := rfl
@[simp] theorem setJtag_mem (f : Jtag → Jtag) (s : State) : (setJtag f s).mem = s.mem := rfl
@[simp] theorem setJtag_arc (f : Jtag → Jtag) (s : State) : (setJtag f s).arc = s.arc := rfl
@[simp] theorem setJtag_pair (f : Jtag → Jtag) (s : State) : (setJtag f s).pair = s.pair := rfl
@[simp] theorem setJtag_msh (f : Jtag → Jtag) (s : State) : (setJtag f s).msh = s.msh := rfl
@[simp] theorem setJtag_hif (f : Jtag → Jtag) (s : State) : (setJtag f s).hif = s.hif := rfl
@[simp] theorem setJtag_free (f : Jtag → Jtag) (s : State) : (setJtag f s).free = s.free := rfl
@[simp] theorem setJtag_pending (f : Jtag → Jtag) (s : State) : (setJtag f s).pending = s.pending := rfl

@[simp] theorem setJtag_jtag (f : Jtag → Jtag) (s : State) : (setJtag f s).jtag = f s.jtag := rfl

@[simp] theorem setCh_link (c : Nat) (f : SdhCh → SdhCh) (s : State) : (setCh c f s).link = s.link := rfl
@[simp] theorem setCh_regs (c : Nat) (f : SdhCh → SdhCh) (s : State) : (setCh c f s).regs = s.regs := rfl
@[simp] theorem setCh_lock (c : Nat) (f : SdhCh → SdhCh) (s : State) : (setCh c f s).lock = s.lock := rfl
@[simp] theorem setCh_log (c : Nat) (f : SdhCh → SdhCh) (s : State) : (setCh c f s).log = s.log := rfl
@[simp] theorem setCh_snap (c : Nat) (f : SdhCh → SdhCh) (s : State) : (setCh c f s).snap = s.snap := rfl
@[simp] theorem setCh_irq (c : Nat) (f : SdhCh → SdhCh) (s : State) : (setCh c f s).irq = s.irq := rfl
@[simp] theorem setCh_resp (c : Nat) (f : SdhCh → SdhCh) (s : State) : (setCh c f s).resp = s.resp := rfl
@[simp] theorem setCh_tim (c : Nat) (f : SdhCh → SdhCh) (s : State) : (setCh c f s).tim = s.tim := rfl
@[simp] theorem setCh_boot (c : Nat) (f : SdhCh → SdhCh) (s : State) : (setCh c f s).boot = s.boot := rfl
@[simp] theorem setCh_fixed (c : Nat) (f : SdhCh → SdhCh) (s : State) : (setCh c f s).fixed = s.fixed := rfl
@[simp] theorem setCh_jtag (c : Nat) (f : SdhCh → SdhCh) (s : State) : (setCh c f s).jtag = s.jtag := rfl
@[simp] theorem setCh_lic (c : Nat) (f : SdhCh → SdhCh) (s : State) : (setCh c f s).lic = s.lic := rfl
@[simp] theorem setCh_pac (c : Nat) (f : SdhCh → SdhCh) (s : State) : (setCh c f s).pac = s.pac := rfl
@[simp] theorem setCh_ftb (c : Nat) (f : SdhCh → SdhCh) (s : State) : (setCh c f s).ftb = s.ftb := rfl
@[simp] theorem setCh_exp (c : Nat) (f : SdhCh → SdhCh) (s : State) : (setCh c f s).exp = s.exp := rfl
@[simp] theorem setCh_bas (c : Nat) (f : SdhCh → SdhCh) (s : State) : (setCh c f s).bas = s.bas := rfl
@[simp] theorem setCh_pcr (c : Nat) (f : SdhCh → SdhCh) (s : State) : (setCh c f s).pcr = s.pcr := rfl
@[simp] theorem setCh_fab (c : Nat) (f : SdhCh → SdhCh) (s : State) : (setCh c f s).fab = s.fab := rfl
@[simp] theorem setCh_mem (c : Nat) (f : SdhCh → SdhCh) (s : State) : (setCh c f s).mem = s.mem := rfl
@[simp] theorem setCh_arc (c : Nat) (f : SdhCh → SdhCh) (s : State) : (setCh c f s).arc = s.arc := rfl
@[simp] theorem setCh_pair (c : Nat) (f : SdhCh → SdhCh) (s : State) : (setCh c f s).pair = s.pair := rfl
@[simp] theorem setCh_msh (c : Nat) (f : SdhCh → SdhCh) (s : State) : (setCh c f s).msh = s.msh := rfl
@[simp] theorem setCh_hif (c : Nat) (f : SdhCh → SdhCh) (s : State) : (setCh c f s).hif = s.hif := rfl
@[simp] theorem setCh_free (c : Nat) (f : SdhCh → SdhCh) (s : State) : (setCh c f s).free = s.free := rfl
@[simp] theorem setCh_pending (c : Nat) (f : SdhCh → SdhCh) (s : State) : (setCh c f s).pending = s.pending := rfl

@[simp] theorem setPath_link (k : Nat) (f : SdhPath → SdhPath) (s : State) : (setPath k f s).link = s.link := rfl
@[simp] theorem setPath_regs (k : Nat) (f : SdhPath → SdhPath) (s : State) : (setPath k f s).regs = s.regs := rfl
@[simp] theorem setPath_lock (k : Nat) (f : SdhPath → SdhPath) (s : State) : (setPath k f s).lock = s.lock := rfl
@[simp] theorem setPath_log (k : Nat) (f : SdhPath → SdhPath) (s : State) : (setPath k f s).log = s.log := rfl
@[simp] theorem setPath_snap (k : Nat) (f : SdhPath → SdhPath) (s : State) : (setPath k f s).snap = s.snap := rfl
@[simp] theorem setPath_irq (k : Nat) (f : SdhPath → SdhPath) (s : State) : (setPath k f s).irq = s.irq := rfl
@[simp] theorem setPath_resp (k : Nat) (f : SdhPath → SdhPath) (s : State) : (setPath k f s).resp = s.resp := rfl
@[simp] theorem setPath_tim (k : Nat) (f : SdhPath → SdhPath) (s : State) : (setPath k f s).tim = s.tim := rfl
@[simp] theorem setPath_boot (k : Nat) (f : SdhPath → SdhPath) (s : State) : (setPath k f s).boot = s.boot := rfl
@[simp] theorem setPath_fixed (k : Nat) (f : SdhPath → SdhPath) (s : State) : (setPath k f s).fixed = s.fixed := rfl
@[simp] theorem setPath_jtag (k : Nat) (f : SdhPath → SdhPath) (s : State) : (setPath k f s).jtag = s.jtag := rfl
@[simp] theorem setPath_lic (k : Nat) (f : SdhPath → SdhPath) (s : State) : (setPath k f s).lic = s.lic := rfl
@[simp] theorem setPath_pac (k : Nat) (f : SdhPath → SdhPath) (s : State) : (setPath k f s).pac = s.pac := rfl
@[simp] theorem setPath_ftb (k : Nat) (f : SdhPath → SdhPath) (s : State) : (setPath k f s).ftb = s.ftb := rfl
@[simp] theorem setPath_exp (k : Nat) (f : SdhPath → SdhPath) (s : State) : (setPath k f s).exp = s.exp := rfl
@[simp] theorem setPath_bas (k : Nat) (f : SdhPath → SdhPath) (s : State) : (setPath k f s).bas = s.bas := rfl
@[simp] theorem setPath_pcr (k : Nat) (f : SdhPath → SdhPath) (s : State) : (setPath k f s).pcr = s.pcr := rfl
@[simp] theorem setPath_fab (k : Nat) (f : SdhPath → SdhPath) (s : State) : (setPath k f s).fab = s.fab := rfl
@[simp] theorem setPath_mem (k : Nat) (f : SdhPath → SdhPath) (s : State) : (setPath k f s).mem = s.mem := rfl
@[simp] theorem setPath_arc (k : Nat) (f : SdhPath → SdhPath) (s : State) : (setPath k f s).arc = s.arc := rfl
@[simp] theorem setPath_pair (k : Nat) (f : SdhPath → SdhPath) (s : State) : (setPath k f s).pair = s.pair := rfl
@[simp] theorem setPath_msh (k : Nat) (f : SdhPath → SdhPath) (s : State) : (setPath k f s).msh = s.msh := rfl
@[simp] theorem setPath_hif (k : Nat) (f : SdhPath → SdhPath) (s : State) : (setPath k f s).hif = s.hif := rfl
@[simp] theorem setPath_free (k : Nat) (f : SdhPath → SdhPath) (s : State) : (setPath k f s).free = s.free := rfl
@[simp] theorem setPath_pending (k : Nat) (f : SdhPath → SdhPath) (s : State) : (setPath k f s).pending = s.pending := rfl

@[simp] theorem setTrib_link (k : Nat) (f : Trib → Trib) (s : State) : (setTrib k f s).link = s.link := rfl
@[simp] theorem setTrib_regs (k : Nat) (f : Trib → Trib) (s : State) : (setTrib k f s).regs = s.regs := rfl
@[simp] theorem setTrib_lock (k : Nat) (f : Trib → Trib) (s : State) : (setTrib k f s).lock = s.lock := rfl
@[simp] theorem setTrib_log (k : Nat) (f : Trib → Trib) (s : State) : (setTrib k f s).log = s.log := rfl
@[simp] theorem setTrib_snap (k : Nat) (f : Trib → Trib) (s : State) : (setTrib k f s).snap = s.snap := rfl
@[simp] theorem setTrib_irq (k : Nat) (f : Trib → Trib) (s : State) : (setTrib k f s).irq = s.irq := rfl
@[simp] theorem setTrib_resp (k : Nat) (f : Trib → Trib) (s : State) : (setTrib k f s).resp = s.resp := rfl
@[simp] theorem setTrib_tim (k : Nat) (f : Trib → Trib) (s : State) : (setTrib k f s).tim = s.tim := rfl
@[simp] theorem setTrib_boot (k : Nat) (f : Trib → Trib) (s : State) : (setTrib k f s).boot = s.boot := rfl
@[simp] theorem setTrib_fixed (k : Nat) (f : Trib → Trib) (s : State) : (setTrib k f s).fixed = s.fixed := rfl
@[simp] theorem setTrib_jtag (k : Nat) (f : Trib → Trib) (s : State) : (setTrib k f s).jtag = s.jtag := rfl
@[simp] theorem setTrib_lic (k : Nat) (f : Trib → Trib) (s : State) : (setTrib k f s).lic = s.lic := rfl
@[simp] theorem setTrib_pac (k : Nat) (f : Trib → Trib) (s : State) : (setTrib k f s).pac = s.pac := rfl
@[simp] theorem setTrib_ftb (k : Nat) (f : Trib → Trib) (s : State) : (setTrib k f s).ftb = s.ftb := rfl
@[simp] theorem setTrib_exp (k : Nat) (f : Trib → Trib) (s : State) : (setTrib k f s).exp = s.exp := rfl
@[simp] theorem setTrib_bas (k : Nat) (f : Trib → Trib) (s : State) : (setTrib k f s).bas = s.bas := rfl
@[simp] theorem setTrib_pcr (k : Nat) (f : Trib → Trib) (s : State) : (setTrib k f s).pcr = s.pcr := rfl
@[simp] theorem setTrib_fab (k : Nat) (f : Trib → Trib) (s : State) : (setTrib k f s).fab = s.fab := rfl
@[simp] theorem setTrib_mem (k : Nat) (f : Trib → Trib) (s : State) : (setTrib k f s).mem = s.mem := rfl
@[simp] theorem setTrib_arc (k : Nat) (f : Trib → Trib) (s : State) : (setTrib k f s).arc = s.arc := rfl
@[simp] theorem setTrib_pair (k : Nat) (f : Trib → Trib) (s : State) : (setTrib k f s).pair = s.pair := rfl
@[simp] theorem setTrib_msh (k : Nat) (f : Trib → Trib) (s : State) : (setTrib k f s).msh = s.msh := rfl
@[simp] theorem setTrib_hif (k : Nat) (f : Trib → Trib) (s : State) : (setTrib k f s).hif = s.hif := rfl
@[simp] theorem setTrib_free (k : Nat) (f : Trib → Trib) (s : State) : (setTrib k f s).free = s.free := rfl
@[simp] theorem setTrib_pending (k : Nat) (f : Trib → Trib) (s : State) : (setTrib k f s).pending = s.pending := rfl

@[simp] theorem setPw_link (k : Nat) (f : Pw → Pw) (s : State) : (setPw k f s).link = s.link := rfl
@[simp] theorem setPw_regs (k : Nat) (f : Pw → Pw) (s : State) : (setPw k f s).regs = s.regs := rfl
@[simp] theorem setPw_lock (k : Nat) (f : Pw → Pw) (s : State) : (setPw k f s).lock = s.lock := rfl
@[simp] theorem setPw_log (k : Nat) (f : Pw → Pw) (s : State) : (setPw k f s).log = s.log := rfl
@[simp] theorem setPw_snap (k : Nat) (f : Pw → Pw) (s : State) : (setPw k f s).snap = s.snap := rfl
@[simp] theorem setPw_irq (k : Nat) (f : Pw → Pw) (s : State) : (setPw k f s).irq = s.irq := rfl
@[simp] theorem setPw_resp (k : Nat) (f : Pw → Pw) (s : State) : (setPw k f s).resp = s.resp := rfl
@[simp] theorem setPw_tim (k : Nat) (f : Pw → Pw) (s : State) : (setPw k f s).tim = s.tim := rfl
@[simp] theorem setPw_boot (k : Nat) (f : Pw → Pw) (s : State) : (setPw k f s).boot = s.boot := rfl
@[simp] theorem setPw_fixed (k : Nat) (f : Pw → Pw) (s : State) : (setPw k f s).fixed = s.fixed := rfl
@[simp] theorem setPw_jtag (k : Nat) (f : Pw → Pw) (s : State) : (setPw k f s).jtag = s.jtag := rfl
@[simp] theorem setPw_lic (k : Nat) (f : Pw → Pw) (s : State) : (setPw k f s).lic = s.lic := rfl
@[simp] theorem setPw_pac (k : Nat) (f : Pw → Pw) (s : State) : (setPw k f s).pac = s.pac := rfl
@[simp] theorem setPw_ftb (k : Nat) (f : Pw → Pw) (s : State) : (setPw k f s).ftb = s.ftb := rfl
@[simp] theorem setPw_exp (k : Nat) (f : Pw → Pw) (s : State) : (setPw k f s).exp = s.exp := rfl
@[simp] theorem setPw_bas (k : Nat) (f : Pw → Pw) (s : State) : (setPw k f s).bas = s.bas := rfl
@[simp] theorem setPw_pcr (k : Nat) (f : Pw → Pw) (s : State) : (setPw k f s).pcr = s.pcr := rfl
@[simp] theorem setPw_fab (k : Nat) (f : Pw → Pw) (s : State) : (setPw k f s).fab = s.fab := rfl
@[simp] theorem setPw_mem (k : Nat) (f : Pw → Pw) (s : State) : (setPw k f s).mem = s.mem := rfl
@[simp] theorem setPw_arc (k : Nat) (f : Pw → Pw) (s : State) : (setPw k f s).arc = s.arc := rfl
@[simp] theorem setPw_pair (k : Nat) (f : Pw → Pw) (s : State) : (setPw k f s).pair = s.pair := rfl
@[simp] theorem setPw_msh (k : Nat) (f : Pw → Pw) (s : State) : (setPw k f s).msh = s.msh := rfl
@[simp] theorem setPw_hif (k : Nat) (f : Pw → Pw) (s : State) : (setPw k f s).hif = s.hif := rfl
@[simp] theorem setPw_free (k : Nat) (f : Pw → Pw) (s : State) : (setPw k f s).free = s.free := rfl
@[simp] theorem setPw_pending (k : Nat) (f : Pw → Pw) (s : State) : (setPw k f s).pending = s.pending := rfl

@[simp] theorem setEnt_link (k : Nat) (f : PmEnt → PmEnt) (s : State) : (setEnt k f s).link = s.link := rfl
@[simp] theorem setEnt_regs (k : Nat) (f : PmEnt → PmEnt) (s : State) : (setEnt k f s).regs = s.regs := rfl
@[simp] theorem setEnt_lock (k : Nat) (f : PmEnt → PmEnt) (s : State) : (setEnt k f s).lock = s.lock := rfl
@[simp] theorem setEnt_log (k : Nat) (f : PmEnt → PmEnt) (s : State) : (setEnt k f s).log = s.log := rfl
@[simp] theorem setEnt_snap (k : Nat) (f : PmEnt → PmEnt) (s : State) : (setEnt k f s).snap = s.snap := rfl
@[simp] theorem setEnt_irq (k : Nat) (f : PmEnt → PmEnt) (s : State) : (setEnt k f s).irq = s.irq := rfl
@[simp] theorem setEnt_resp (k : Nat) (f : PmEnt → PmEnt) (s : State) : (setEnt k f s).resp = s.resp := rfl
@[simp] theorem setEnt_tim (k : Nat) (f : PmEnt → PmEnt) (s : State) : (setEnt k f s).tim = s.tim := rfl
@[simp] theorem setEnt_boot (k : Nat) (f : PmEnt → PmEnt) (s : State) : (setEnt k f s).boot = s.boot := rfl
@[simp] theorem setEnt_fixed (k : Nat) (f : PmEnt → PmEnt) (s : State) : (setEnt k f s).fixed = s.fixed := rfl
@[simp] theorem setEnt_jtag (k : Nat) (f : PmEnt → PmEnt) (s : State) : (setEnt k f s).jtag = s.jtag := rfl
@[simp] theorem setEnt_lic (k : Nat) (f : PmEnt → PmEnt) (s : State) : (setEnt k f s).lic = s.lic := rfl
@[simp] theorem setEnt_pac (k : Nat) (f : PmEnt → PmEnt) (s : State) : (setEnt k f s).pac = s.pac := rfl
@[simp] theorem setEnt_ftb (k : Nat) (f : PmEnt → PmEnt) (s : State) : (setEnt k f s).ftb = s.ftb := rfl
@[simp] theorem setEnt_exp (k : Nat) (f : PmEnt → PmEnt) (s : State) : (setEnt k f s).exp = s.exp := rfl
@[simp] theorem setEnt_bas (k : Nat) (f : PmEnt → PmEnt) (s : State) : (setEnt k f s).bas = s.bas := rfl
@[simp] theorem setEnt_pcr (k : Nat) (f : PmEnt → PmEnt) (s : State) : (setEnt k f s).pcr = s.pcr := rfl
@[simp] theorem setEnt_fab (k : Nat) (f : PmEnt → PmEnt) (s : State) : (setEnt k f s).fab = s.fab := rfl
@[simp] theorem setEnt_mem (k : Nat) (f : PmEnt → PmEnt) (s : State) : (setEnt k f s).mem = s.mem := rfl
@[simp] theorem setEnt_arc (k : Nat) (f : PmEnt → PmEnt) (s : State) : (setEnt k f s).arc = s.arc := rfl
@[simp] theorem setEnt_pair (k : Nat) (f : PmEnt → PmEnt) (s : State) : (setEnt k f s).pair = s.pair := rfl
@[simp] theorem setEnt_msh (k : Nat) (f : PmEnt → PmEnt) (s : State) : (setEnt k f s).msh = s.msh := rfl
@[simp] theorem setEnt_hif (k : Nat) (f : PmEnt → PmEnt) (s : State) : (setEnt k f s).hif = s.hif := rfl
@[simp] theorem setEnt_free (k : Nat) (f : PmEnt → PmEnt) (s : State) : (setEnt k f s).free = s.free := rfl
@[simp] theorem setEnt_pending (k : Nat) (f : PmEnt → PmEnt) (s : State) : (setEnt k f s).pending = s.pending := rfl

/-! ## What every command leaves -/

@[simp] theorem owned_link (s r : State) : (owned s r).link = r.link := rfl
@[simp] theorem owned_regs (s r : State) : (owned s r).regs = r.regs := rfl
@[simp] theorem owned_lock (s r : State) : (owned s r).lock = r.lock := rfl
@[simp] theorem owned_log (s r : State) : (owned s r).log = r.log := rfl
@[simp] theorem owned_snap (s r : State) : (owned s r).snap = r.snap := rfl
@[simp] theorem owned_irq (s r : State) : (owned s r).irq = r.irq := rfl
@[simp] theorem owned_resp (s r : State) : (owned s r).resp = r.resp := rfl
@[simp] theorem owned_tim (s r : State) : (owned s r).tim = r.tim := rfl
@[simp] theorem owned_fixed (s r : State) : (owned s r).fixed = r.fixed := rfl
@[simp] theorem owned_jtag (s r : State) : (owned s r).jtag = r.jtag := rfl
@[simp] theorem owned_lic (s r : State) : (owned s r).lic = r.lic := rfl
@[simp] theorem owned_sdh (s r : State) : (owned s r).sdh = r.sdh := rfl
@[simp] theorem owned_pac (s r : State) : (owned s r).pac = r.pac := rfl
@[simp] theorem owned_ftb (s r : State) : (owned s r).ftb = r.ftb := rfl
@[simp] theorem owned_exp (s r : State) : (owned s r).exp = r.exp := rfl
@[simp] theorem owned_bas (s r : State) : (owned s r).bas = r.bas := rfl
@[simp] theorem owned_pcr (s r : State) : (owned s r).pcr = r.pcr := rfl
@[simp] theorem owned_fab (s r : State) : (owned s r).fab = r.fab := rfl
@[simp] theorem owned_mem (s r : State) : (owned s r).mem = r.mem := rfl
@[simp] theorem owned_arc (s r : State) : (owned s r).arc = r.arc := rfl
@[simp] theorem owned_pair (s r : State) : (owned s r).pair = r.pair := rfl
@[simp] theorem owned_msh (s r : State) : (owned s r).msh = r.msh := rfl
@[simp] theorem owned_hif (s r : State) : (owned s r).hif = r.hif := rfl
@[simp] theorem owned_free (s r : State) : (owned s r).free = r.free := rfl
@[simp] theorem owned_pending (s r : State) : (owned s r).pending = s.pending := rfl
@[simp] theorem owned_rstN (s r : State) : (owned s r).boot.rstN = s.boot.rstN := rfl
@[simp] theorem owned_devPg (s r : State) : (owned s r).boot.devPg = s.boot.devPg := rfl
@[simp] theorem owned_inReset (s r : State) : (owned s r).boot.inReset = (s.boot.inReset || r.boot.inReset) := rfl

end Sys2Proof.Machine
end

