-- ==== Sys2Proof/Laws/Ops.lean ====
section
/-! SUPPORT. What the shared operations can do: time, registers, counters, interrupts and the change log. -/
namespace Sys2Proof.Machine

/-! ## Time -/

section
variable (t : Nat) (s : State)

theorem advance_eq : advance t s = { s with tim := (advance t s).tim } := by
  unfold advance; split <;> rfl

/-- Time moves to the stamp, or stays. -/
theorem advance_now : (advance t s).tim.now = max s.tim.now (t * 65536) := by
  unfold advance; split
  · simp only []; omega
  · omega

/-- Nothing of the time unit but the time base and the uptime moves. -/
theorem advance_tim : (advance t s).tim = { s.tim with now := (advance t s).tim.now, up := (advance t s).tim.up } := by
  unfold advance; split <;> rfl

end

/-! ## Registers -/

theorem rkey_inj {p q a b : Nat} (ha : a < 65536) (hb : b < 65536) : rkey p a = rkey q b ↔ p = q ∧ a = b := by
  unfold rkey; omega

/-- A register that a write does not name reads as before. -/
theorem rd_wr_other (p q a b : Nat) (v : Word) (s : State) (ha : a < 65536) (hb : b < 65536) (h : ¬(q = p ∧ b = a)) :
    rd q b (wr p a v s) = rd q b s := by
  unfold rd wr
  exact look_put_other _ _ _ _ _ _ (fun e => h ((rkey_inj hb ha).1 e))

/-- A register that a write names takes the value. -/
@[simp] theorem rd_wr_self (p a : Nat) (v : Word) (s : State) : rd p a (wr p a v s) = v := by
  unfold rd wr; exact look_put_self _ _ _ _

/-- A table word that a write names takes the value. -/
@[simp] theorem tw_tput_self (tab i w : Nat) (v : Word) (s : State) : tw tab i w (tput tab i w v s) = v := by
  unfold tw tput; exact look_put_self _ _ _ _

/-- The register file keeps its canonical form. -/
theorem wr_wf (p a : Nat) (v : Word) (s : State) (h : Tab.wfBy resetOf s.regs.live) : Tab.wfBy resetOf (wr p a v s).regs.live := by
  unfold wr; exact put_wfBy resetOf _ _ _ h

/-- The tables keep their canonical form. -/
theorem tput_wf (tab i w : Nat) (v : Word) (s : State) (h : Tab.wfBy tblReset s.regs.tbl) : Tab.wfBy tblReset (tput tab i w v s).regs.tbl := by
  unfold tput; exact put_wfBy tblReset _ _ _ h

theorem wr_rising (p a : Nat) (v : Word) (s : State) (h : rising s.regs.live) : rising (wr p a v s).regs.live := by
  unfold wr; exact put_rising _ _ _ _ h

/-! ## What the reporting operations leave -/

/-- `b` differs from `a` only in what reports: the common headers, the counters, the interrupt messages, the change log with its
page, and what the marshal keeps of its last event. -/
structure Kept (a b : State) : Prop where
  link : b.link = a.link
  lock : b.lock = a.lock
  snap : b.snap = a.snap
  resp : b.resp = a.resp
  tim : b.tim = a.tim
  boot : b.boot = a.boot
  fixed : b.fixed = a.fixed
  jtag : b.jtag = a.jtag
  lic : b.lic = a.lic
  sdh : b.sdh = a.sdh
  pac : b.pac = a.pac
  ftb : b.ftb = a.ftb
  exp : b.exp = a.exp
  bas : b.bas = a.bas
  pcr : b.pcr = a.pcr
  fab : b.fab = a.fab
  mem : b.mem = a.mem
  arc : b.arc = a.arc
  pair : b.pair = a.pair
  free : b.free = a.free
  pending : b.pending = a.pending
  hif : { b.hif with msgs := a.hif.msgs } = a.hif
  msh : { b.msh with lastEvent := a.msh.lastEvent, statusDue := a.msh.statusDue } = a.msh
  regs : { b.regs with live := a.regs.live, pm := a.regs.pm, ovfPend := a.regs.ovfPend } = a.regs
  live : ∀ p off, p ≠ 2 → 0x100 ≤ off → off < 65536 → rd p off b = rd p off a
  en : ∀ p, rd p 8 b = rd p 8 a
  rise : rising a.regs.live → rising b.regs.live

theorem Kept.refl (s : State) : Kept s s := by
  constructor <;> first | rfl | (intros; first | rfl | assumption)

theorem Kept.trans {a b c : State} (h : Kept a b) (g : Kept b c) : Kept a c where
  link := g.link.trans h.link
  lock := g.lock.trans h.lock
  snap := g.snap.trans h.snap
  resp := g.resp.trans h.resp
  tim := g.tim.trans h.tim
  boot := g.boot.trans h.boot
  fixed := g.fixed.trans h.fixed
  jtag := g.jtag.trans h.jtag
  lic := g.lic.trans h.lic
  sdh := g.sdh.trans h.sdh
  pac := g.pac.trans h.pac
  ftb := g.ftb.trans h.ftb
  exp := g.exp.trans h.exp
  bas := g.bas.trans h.bas
  pcr := g.pcr.trans h.pcr
  fab := g.fab.trans h.fab
  mem := g.mem.trans h.mem
  arc := g.arc.trans h.arc
  pair := g.pair.trans h.pair
  free := g.free.trans h.free
  pending := g.pending.trans h.pending
  hif := by rw [← h.hif, ← g.hif]
  msh := by rw [← h.msh, ← g.msh]
  regs := by rw [← h.regs, ← g.regs]
  live := fun p off a b c => (g.live p off a b c).trans (h.live p off a b c)
  en := fun p => (g.en p).trans (h.en p)
  rise := fun x => g.rise (h.rise x)

theorem Kept.rd {a b : State} (h : Kept a b) {p off : Nat} (hp : p ≠ 2) (ho : 0x100 ≤ off ∧ off < 65536) : rd p off b = rd p off a :=
  h.live p off hp ho.1 ho.2
theorem Kept.tbl {a b : State} (h : Kept a b) : b.regs.tbl = a.regs.tbl := by rw [← h.regs]
theorem Kept.tw {a b : State} (h : Kept a b) (x i w : Nat) : tw x i w b = tw x i w a := by unfold Machine.tw; rw [h.tbl]

/-- A write of a header register other than PG_CTL. -/
theorem wr_head_kept (p off : Nat) (v : Word) (s : State) (h : off < 0x100) (h8 : off ≠ 8) : Kept s (wr p off v s) := by
  constructor <;> first
    | rfl
    | (intro q o _ h1 h2; exact rd_wr_other p q off o v s (by omega) h2 (by omega))
    | (intro q; exact rd_wr_other p q off 8 v s (by omega) (by omega) (by omega))
    | exact fun h => wr_rising _ _ _ _ h

/-- A write of a register of the log's page. -/
theorem wr_log_kept (off : Nat) (v : Word) (s : State) (h : 0x100 ≤ off) (h2 : off < 65536) : Kept s (wr 2 off v s) := by
  constructor <;> first
    | rfl
    | (intro q o h3 h4 h5; exact rd_wr_other 2 q off o v s h2 h5 (by omega))
    | (intro q; exact rd_wr_other 2 q off 8 v s (by omega) (by omega) (by omega))
    | exact fun h => wr_rising _ _ _ _ h

/-- A change of the counters alone. -/
theorem pm_kept (m : Tab Nat) (o : List Nat) (s : State) : Kept s { s with regs := { s.regs with pm := m, ovfPend := o } } := by
  constructor <;> first | rfl | (intros; first | rfl | assumption)

theorem pmAdd_kept (p k n : Nat) (s : State) : Kept s (pmAdd p k n s) := by
  unfold pmAdd setBits
  simp only []
  split
  · exact pm_kept _ _ s
  · split
    · exact ((pm_kept _ _ s).trans (wr_head_kept p 0x1C _ _ (by decide) (by decide))).trans (pm_kept _ _ _)
    · exact (pm_kept _ _ s).trans (wr_head_kept p 0x1C _ _ (by decide) (by decide))

/-- A fold of keeping steps keeps. -/
theorem foldl_kept {β : Type} (f : State → β → State) (h : ∀ a b, Kept a (f a b)) (l : List β) (s : State) : Kept s (l.foldl f s) := by
  induction l generalizing s with
  | nil => exact Kept.refl s
  | cons b r ih => exact (h s b).trans (ih _)

theorem evRaw_kept (p num n : Nat) (s : State) : Kept s (evRaw p num n s) := by
  unfold evRaw
  split
  · exact foldl_kept _ (fun a b => by split <;> first | exact pmAdd_kept _ _ _ _ | exact Kept.refl _) _ s
  · exact Kept.refl s

theorem hifEvRaw_kept (f num n : Nat) (s : State) : Kept s (hifEvRaw f num n s) := by
  unfold hifEvRaw; simp only []
  split
  · exact evRaw_kept _ _ _ _
  · exact (evRaw_kept _ _ _ _).trans (evRaw_kept _ _ _ _)

theorem msgs_kept (m : Tab Nat) (s : State) : Kept s { s with hif := { s.hif with msgs := m } } := by
  constructor <;> first | rfl | (intros; first | rfl | assumption)
theorem irq_kept (m : Irq) (s : State) : Kept s { s with irq := m } := by
  constructor <;> first | rfl | (intros; first | rfl | assumption)
theorem log_kept (m : Log) (s : State) : Kept s { s with log := m } := by
  constructor <;> first | rfl | (intros; first | rfl | assumption)
theorem lastEvent_kept (e : Nat) (d : Bool) (s : State) : Kept s { s with msh := { s.msh with lastEvent := e, statusDue := d } } := by
  constructor <;> first | rfl | (intros; first | rfl | assumption)

theorem msiSend_kept (f vec : Nat) (s : State) : Kept s (msiSend f vec s) := by
  unfold msiSend; exact (msgs_kept _ s).trans (hifEvRaw_kept _ _ _ _)

theorem irqSend_kept (v : Nat) (s : State) : Kept s (irqSend v s) := by
  unfold irqSend
  simp only []
  split
  · exact ((irq_kept _ s).trans (evRaw_kept _ _ _ _)).trans (msiSend_kept _ _ _)
  · exact (irq_kept _ s).trans (evRaw_kept _ _ _ _)

theorem irqDue_kept (v : Nat) (s : State) : Kept s (irqDue v s) := by
  unfold irqDue; split
  · exact irqSend_kept _ _
  · exact (irq_kept _ s).trans (evRaw_kept _ _ _ _)

theorem irqEdgeN_kept (n : Nat) (b : State) (v : Option Nat) (s : State) : Kept s (irqEdgeN n b v s) := by
  induction n generalizing b v s with
  | zero => exact Kept.refl s
  | succ n ih =>
    unfold irqEdgeN; split
    · exact Kept.refl s
    · split
      · exact ((irqDue_kept _ _).trans (ih _ _ _)).trans (ih _ _ _)
      · exact Kept.refl s

theorem irqEdge_kept (b : State) (v : Option Nat) (s : State) : Kept s (irqEdge b v s) := irqEdgeN_kept 3 b v s

/-- A message outside a change of its vector's OR changes reporting alone. -/
theorem irqAfter_kept (f : State → State) (s : State) (h : Kept s (f s)) : Kept s (irqAfter f s) :=
  (h.trans (irqEdge_kept _ _ _)).trans (irqEdge_kept _ _ _)

theorem irqStep_kept (p : Nat) (f : State → State) (s : State) (h : Kept s (f s)) : Kept s (irqStep p f s) := by
  unfold irqStep; exact h.trans (irqEdge_kept _ _ _)

/-- An interrupt cause changes reporting alone. -/
theorem raise_kept (p bit : Nat) (s : State) : Kept s (raise p bit s) := by
  unfold raise; split
  · exact irqStep_kept _ _ _ (wr_head_kept p 0x1C _ _ (by decide) (by decide))
  · exact Kept.refl s

/-- An event changes reporting alone. -/
theorem ev_kept (p num n : Nat) (s : State) : Kept s (ev p num n s) := by
  unfold ev; exact irqStep_kept _ _ _ (evRaw_kept _ _ _ _)

theorem setStat_kept (p bit : Nat) (s : State) : Kept s (setStat p bit s) := by
  unfold setStat; split
  · exact (wr_head_kept p 0x0C _ s (by decide) (by decide)).trans (raise_kept _ _ _)
  · exact Kept.refl s

theorem logPut_kept (r : LogRec) (s : State) : Kept s (logPut r s) := by
  unfold logPut; simp only []
  split
  · exact ((log_kept _ s).trans (ev_kept _ _ _ _)).trans (raise_kept _ _ _)
  · exact (log_kept _ s).trans (ev_kept _ _ _ _)

theorem logLose_kept (s : State) : Kept s (logLose s) := by
  unfold logLose bump wf
  exact (((log_kept _ s).trans (wr_log_kept 0x114 _ _ (by decide) (by decide))).trans (ev_kept _ _ _ _)).trans (raise_kept _ _ _)

theorem logGap_kept (s : State) : Kept s (logGap s) := by
  unfold logGap; simp only []
  split
  · exact Kept.refl s
  · exact (log_kept _ s).trans (logPut_kept _ _)

theorem logAt_kept (a b c d e f g h : Nat) (s : State) : Kept s (logAt a b c d e f g h s) := by
  unfold logAt; simp only []
  split
  · exact (logGap_kept s).trans (logLose_kept _)
  · exact (logGap_kept s).trans (logPut_kept _ _)

/-- A record changes reporting alone. -/
theorem logRec_kept (a b c d e f : Nat) (s : State) : Kept s (logRec a b c d e f s) := by
  unfold logRec; exact logAt_kept _ _ _ _ _ _ _ _ _

theorem logDev_kept (a b c d e : Nat) (s : State) : Kept s (logDev a b c d e s) := by
  unfold logDev; simp only []
  split
  · exact (lastEvent_kept _ _ s).trans (logRec_kept _ _ _ _ _ _ _)
  · exact logRec_kept _ _ _ _ _ _ _

theorem batchWrite_kept (b : Batch) (s : State) : Kept s (batchWrite b s) := by
  unfold batchWrite; simp only []
  split
  · exact logAt_kept _ _ _ _ _ _ _ _ _
  · exact (logAt_kept _ _ _ _ _ _ _ _ _).trans (ev_kept _ _ _ _)

theorem batchClose_kept (f : Batch → Bool) (s : State) : Kept s (batchClose f s) := by
  unfold batchClose; exact (log_kept _ s).trans (foldl_kept _ (fun a b => batchWrite_kept _ _) _ _)

theorem logHeld_kept (s : State) : Kept s (logHeld s) := by
  unfold logHeld bump wf
  exact ((wr_log_kept 0x118 _ s (by decide) (by decide)).trans (ev_kept _ _ _ _)).trans (raise_kept _ _ _)

theorem logAccess_kept (a b c d e f : Nat) (s : State) : Kept s (logAccess a b c d e f s) := by
  unfold logAccess; split
  · exact logHeld_kept _
  · exact logRec_kept _ _ _ _ _ _ _

theorem ignore_kept (p off o bit : Nat) (v : Word) (s : State) : Kept s (ignore p off o bit v s) := by
  unfold ignore
  exact ((setStat_kept _ _ s).trans (ev_kept _ _ _ _)).trans (logAccess_kept _ _ _ _ _ _ _)

theorem accepted_kept (p off o : Nat) (ch : Bool) (s : State) : Kept s (accepted p off o ch s) := by
  unfold accepted
  exact (ev_kept _ _ _ s).trans (wr_head_kept p 0x94 _ _ (by decide) (by decide))

/-- A written register's record changes reporting alone. -/
theorem logWrite_kept (p off o : Nat) (old new : Word) (s : State) : Kept s (logWrite p off o old new s) := by
  unfold logWrite; exact (batchClose_kept _ s).trans (logRec_kept _ _ _ _ _ _ _)

/-! ## Counting and interrupts leave the change log -/

theorem pmAdd_log (p k n : Nat) (s : State) : (pmAdd p k n s).log = s.log := by
  unfold pmAdd; simp only []
  split
  · rfl
  · split <;> rfl
theorem evRaw_log (p num n : Nat) (s : State) : (evRaw p num n s).log = s.log := by
  unfold evRaw
  split
  · have : ∀ (l : List Nat) (a : State), (l.foldl (fun a k => if rf p (0x30 + 4 * k) 0 16 a = num then pmAdd p k n a else a) a).log = a.log := by
      intro l
      induction l with
      | nil => intro a; rfl
      | cons k r ih =>
        intro a
        rw [List.foldl_cons, ih]
        split
        · exact pmAdd_log _ _ _ _
        · rfl
    exact this _ _
  · rfl
theorem hifEvRaw_log (f num n : Nat) (s : State) : (hifEvRaw f num n s).log = s.log := by
  unfold hifEvRaw; simp only []
  split
  · exact evRaw_log _ _ _ _
  · rw [evRaw_log, evRaw_log]
theorem irqSend_log (v : Nat) (s : State) : (irqSend v s).log = s.log := by
  unfold irqSend; simp only []
  split
  · unfold msiSend; rw [hifEvRaw_log]; simp only []; rw [evRaw_log]
  · rw [evRaw_log]
theorem irqDue_log (v : Nat) (s : State) : (irqDue v s).log = s.log := by
  unfold irqDue; split
  · exact irqSend_log _ _
  · rw [evRaw_log]
theorem irqEdgeN_log (n : Nat) (b : State) (v : Option Nat) (s : State) : (irqEdgeN n b v s).log = s.log := by
  induction n generalizing b v s with
  | zero => rfl
  | succ n ih =>
    unfold irqEdgeN; split
    · rfl
    · split
      · simp only []; rw [ih, ih, irqDue_log]
      · rfl
theorem irqEdge_log (b : State) (v : Option Nat) (s : State) : (irqEdge b v s).log = s.log := irqEdgeN_log 3 b v s
@[simp] theorem ev_log (p num n : Nat) (s : State) : (ev p num n s).log = s.log := by
  unfold ev irqStep; rw [irqEdge_log, evRaw_log]
@[simp] theorem raise_log (p bit : Nat) (s : State) : (raise p bit s).log = s.log := by
  unfold raise; split
  · unfold irqStep; rw [irqEdge_log]; rfl
  · rfl
@[simp] theorem setStat_log (p bit : Nat) (s : State) : (setStat p bit s).log = s.log := by
  unfold setStat; split
  · rw [raise_log]; rfl
  · rfl
@[simp] theorem accepted_log (p off o : Nat) (ch : Bool) (s : State) : (accepted p off o ch s).log = s.log := by
  unfold accepted
  show (ev _ _ _ s).log = s.log
  exact ev_log _ _ _ _

end Sys2Proof.Machine
end

