-- ==== Sys2Proof/Laws/Kept.lean ====
section
/-! SUPPORT. What the reporting operations and the advance of time leave, field by field. -/
namespace Sys2Proof.Machine

@[simp] theorem ev_link (p num n : Nat) (s : State) : (ev p num n s).link = s.link := (ev_kept _ _ _ _).link
@[simp] theorem ev_lock (p num n : Nat) (s : State) : (ev p num n s).lock = s.lock := (ev_kept _ _ _ _).lock
@[simp] theorem ev_snap (p num n : Nat) (s : State) : (ev p num n s).snap = s.snap := (ev_kept _ _ _ _).snap
@[simp] theorem ev_resp (p num n : Nat) (s : State) : (ev p num n s).resp = s.resp := (ev_kept _ _ _ _).resp
@[simp] theorem ev_tim (p num n : Nat) (s : State) : (ev p num n s).tim = s.tim := (ev_kept _ _ _ _).tim
@[simp] theorem ev_boot (p num n : Nat) (s : State) : (ev p num n s).boot = s.boot := (ev_kept _ _ _ _).boot
@[simp] theorem ev_fixed (p num n : Nat) (s : State) : (ev p num n s).fixed = s.fixed := (ev_kept _ _ _ _).fixed
@[simp] theorem ev_jtag (p num n : Nat) (s : State) : (ev p num n s).jtag = s.jtag := (ev_kept _ _ _ _).jtag
@[simp] theorem ev_lic (p num n : Nat) (s : State) : (ev p num n s).lic = s.lic := (ev_kept _ _ _ _).lic
@[simp] theorem ev_sdh (p num n : Nat) (s : State) : (ev p num n s).sdh = s.sdh := (ev_kept _ _ _ _).sdh
@[simp] theorem ev_pac (p num n : Nat) (s : State) : (ev p num n s).pac = s.pac := (ev_kept _ _ _ _).pac
@[simp] theorem ev_ftb (p num n : Nat) (s : State) : (ev p num n s).ftb = s.ftb := (ev_kept _ _ _ _).ftb
@[simp] theorem ev_exp (p num n : Nat) (s : State) : (ev p num n s).exp = s.exp := (ev_kept _ _ _ _).exp
@[simp] theorem ev_bas (p num n : Nat) (s : State) : (ev p num n s).bas = s.bas := (ev_kept _ _ _ _).bas
@[simp] theorem ev_pcr (p num n : Nat) (s : State) : (ev p num n s).pcr = s.pcr := (ev_kept _ _ _ _).pcr
@[simp] theorem ev_fab (p num n : Nat) (s : State) : (ev p num n s).fab = s.fab := (ev_kept _ _ _ _).fab
@[simp] theorem ev_mem (p num n : Nat) (s : State) : (ev p num n s).mem = s.mem := (ev_kept _ _ _ _).mem
@[simp] theorem ev_arc (p num n : Nat) (s : State) : (ev p num n s).arc = s.arc := (ev_kept _ _ _ _).arc
@[simp] theorem ev_pair (p num n : Nat) (s : State) : (ev p num n s).pair = s.pair := (ev_kept _ _ _ _).pair
@[simp] theorem ev_free (p num n : Nat) (s : State) : (ev p num n s).free = s.free := (ev_kept _ _ _ _).free
@[simp] theorem ev_pending (p num n : Nat) (s : State) : (ev p num n s).pending = s.pending := (ev_kept _ _ _ _).pending
@[simp] theorem tw_ev (tab i w : Nat) (p num n : Nat) (s : State) : tw tab i w (ev p num n s) = tw tab i w s := (ev_kept _ _ _ _).tw tab i w

@[simp] theorem raise_link (p bit : Nat) (s : State) : (raise p bit s).link = s.link := (raise_kept _ _ _).link
@[simp] theorem raise_lock (p bit : Nat) (s : State) : (raise p bit s).lock = s.lock := (raise_kept _ _ _).lock
@[simp] theorem raise_snap (p bit : Nat) (s : State) : (raise p bit s).snap = s.snap := (raise_kept _ _ _).snap
@[simp] theorem raise_resp (p bit : Nat) (s : State) : (raise p bit s).resp = s.resp := (raise_kept _ _ _).resp
@[simp] theorem raise_tim (p bit : Nat) (s : State) : (raise p bit s).tim = s.tim := (raise_kept _ _ _).tim
@[simp] theorem raise_boot (p bit : Nat) (s : State) : (raise p bit s).boot = s.boot := (raise_kept _ _ _).boot
@[simp] theorem raise_fixed (p bit : Nat) (s : State) : (raise p bit s).fixed = s.fixed := (raise_kept _ _ _).fixed
@[simp] theorem raise_jtag (p bit : Nat) (s : State) : (raise p bit s).jtag = s.jtag := (raise_kept _ _ _).jtag
@[simp] theorem raise_lic (p bit : Nat) (s : State) : (raise p bit s).lic = s.lic := (raise_kept _ _ _).lic
@[simp] theorem raise_sdh (p bit : Nat) (s : State) : (raise p bit s).sdh = s.sdh := (raise_kept _ _ _).sdh
@[simp] theorem raise_pac (p bit : Nat) (s : State) : (raise p bit s).pac = s.pac := (raise_kept _ _ _).pac
@[simp] theorem raise_ftb (p bit : Nat) (s : State) : (raise p bit s).ftb = s.ftb := (raise_kept _ _ _).ftb
@[simp] theorem raise_exp (p bit : Nat) (s : State) : (raise p bit s).exp = s.exp := (raise_kept _ _ _).exp
@[simp] theorem raise_bas (p bit : Nat) (s : State) : (raise p bit s).bas = s.bas := (raise_kept _ _ _).bas
@[simp] theorem raise_pcr (p bit : Nat) (s : State) : (raise p bit s).pcr = s.pcr := (raise_kept _ _ _).pcr
@[simp] theorem raise_fab (p bit : Nat) (s : State) : (raise p bit s).fab = s.fab := (raise_kept _ _ _).fab
@[simp] theorem raise_mem (p bit : Nat) (s : State) : (raise p bit s).mem = s.mem := (raise_kept _ _ _).mem
@[simp] theorem raise_arc (p bit : Nat) (s : State) : (raise p bit s).arc = s.arc := (raise_kept _ _ _).arc
@[simp] theorem raise_pair (p bit : Nat) (s : State) : (raise p bit s).pair = s.pair := (raise_kept _ _ _).pair
@[simp] theorem raise_free (p bit : Nat) (s : State) : (raise p bit s).free = s.free := (raise_kept _ _ _).free
@[simp] theorem raise_pending (p bit : Nat) (s : State) : (raise p bit s).pending = s.pending := (raise_kept _ _ _).pending
@[simp] theorem tw_raise (tab i w : Nat) (p bit : Nat) (s : State) : tw tab i w (raise p bit s) = tw tab i w s := (raise_kept _ _ _).tw tab i w

@[simp] theorem setStat_link (p bit : Nat) (s : State) : (setStat p bit s).link = s.link := (setStat_kept _ _ _).link
@[simp] theorem setStat_lock (p bit : Nat) (s : State) : (setStat p bit s).lock = s.lock := (setStat_kept _ _ _).lock
@[simp] theorem setStat_snap (p bit : Nat) (s : State) : (setStat p bit s).snap = s.snap := (setStat_kept _ _ _).snap
@[simp] theorem setStat_resp (p bit : Nat) (s : State) : (setStat p bit s).resp = s.resp := (setStat_kept _ _ _).resp
@[simp] theorem setStat_tim (p bit : Nat) (s : State) : (setStat p bit s).tim = s.tim := (setStat_kept _ _ _).tim
@[simp] theorem setStat_boot (p bit : Nat) (s : State) : (setStat p bit s).boot = s.boot := (setStat_kept _ _ _).boot
@[simp] theorem setStat_fixed (p bit : Nat) (s : State) : (setStat p bit s).fixed = s.fixed := (setStat_kept _ _ _).fixed
@[simp] theorem setStat_jtag (p bit : Nat) (s : State) : (setStat p bit s).jtag = s.jtag := (setStat_kept _ _ _).jtag
@[simp] theorem setStat_lic (p bit : Nat) (s : State) : (setStat p bit s).lic = s.lic := (setStat_kept _ _ _).lic
@[simp] theorem setStat_sdh (p bit : Nat) (s : State) : (setStat p bit s).sdh = s.sdh := (setStat_kept _ _ _).sdh
@[simp] theorem setStat_pac (p bit : Nat) (s : State) : (setStat p bit s).pac = s.pac := (setStat_kept _ _ _).pac
@[simp] theorem setStat_ftb (p bit : Nat) (s : State) : (setStat p bit s).ftb = s.ftb := (setStat_kept _ _ _).ftb
@[simp] theorem setStat_exp (p bit : Nat) (s : State) : (setStat p bit s).exp = s.exp := (setStat_kept _ _ _).exp
@[simp] theorem setStat_bas (p bit : Nat) (s : State) : (setStat p bit s).bas = s.bas := (setStat_kept _ _ _).bas
@[simp] theorem setStat_pcr (p bit : Nat) (s : State) : (setStat p bit s).pcr = s.pcr := (setStat_kept _ _ _).pcr
@[simp] theorem setStat_fab (p bit : Nat) (s : State) : (setStat p bit s).fab = s.fab := (setStat_kept _ _ _).fab
@[simp] theorem setStat_mem (p bit : Nat) (s : State) : (setStat p bit s).mem = s.mem := (setStat_kept _ _ _).mem
@[simp] theorem setStat_arc (p bit : Nat) (s : State) : (setStat p bit s).arc = s.arc := (setStat_kept _ _ _).arc
@[simp] theorem setStat_pair (p bit : Nat) (s : State) : (setStat p bit s).pair = s.pair := (setStat_kept _ _ _).pair
@[simp] theorem setStat_free (p bit : Nat) (s : State) : (setStat p bit s).free = s.free := (setStat_kept _ _ _).free
@[simp] theorem setStat_pending (p bit : Nat) (s : State) : (setStat p bit s).pending = s.pending := (setStat_kept _ _ _).pending
@[simp] theorem tw_setStat (tab i w : Nat) (p bit : Nat) (s : State) : tw tab i w (setStat p bit s) = tw tab i w s := (setStat_kept _ _ _).tw tab i w

@[simp] theorem logRec_link (a b c d e f : Nat) (s : State) : (logRec a b c d e f s).link = s.link := (logRec_kept _ _ _ _ _ _ _).link
@[simp] theorem logRec_lock (a b c d e f : Nat) (s : State) : (logRec a b c d e f s).lock = s.lock := (logRec_kept _ _ _ _ _ _ _).lock
@[simp] theorem logRec_snap (a b c d e f : Nat) (s : State) : (logRec a b c d e f s).snap = s.snap := (logRec_kept _ _ _ _ _ _ _).snap
@[simp] theorem logRec_resp (a b c d e f : Nat) (s : State) : (logRec a b c d e f s).resp = s.resp := (logRec_kept _ _ _ _ _ _ _).resp
@[simp] theorem logRec_tim (a b c d e f : Nat) (s : State) : (logRec a b c d e f s).tim = s.tim := (logRec_kept _ _ _ _ _ _ _).tim
@[simp] theorem logRec_boot (a b c d e f : Nat) (s : State) : (logRec a b c d e f s).boot = s.boot := (logRec_kept _ _ _ _ _ _ _).boot
@[simp] theorem logRec_fixed (a b c d e f : Nat) (s : State) : (logRec a b c d e f s).fixed = s.fixed := (logRec_kept _ _ _ _ _ _ _).fixed
@[simp] theorem logRec_jtag (a b c d e f : Nat) (s : State) : (logRec a b c d e f s).jtag = s.jtag := (logRec_kept _ _ _ _ _ _ _).jtag
@[simp] theorem logRec_lic (a b c d e f : Nat) (s : State) : (logRec a b c d e f s).lic = s.lic := (logRec_kept _ _ _ _ _ _ _).lic
@[simp] theorem logRec_sdh (a b c d e f : Nat) (s : State) : (logRec a b c d e f s).sdh = s.sdh := (logRec_kept _ _ _ _ _ _ _).sdh
@[simp] theorem logRec_pac (a b c d e f : Nat) (s : State) : (logRec a b c d e f s).pac = s.pac := (logRec_kept _ _ _ _ _ _ _).pac
@[simp] theorem logRec_ftb (a b c d e f : Nat) (s : State) : (logRec a b c d e f s).ftb = s.ftb := (logRec_kept _ _ _ _ _ _ _).ftb
@[simp] theorem logRec_exp (a b c d e f : Nat) (s : State) : (logRec a b c d e f s).exp = s.exp := (logRec_kept _ _ _ _ _ _ _).exp
@[simp] theorem logRec_bas (a b c d e f : Nat) (s : State) : (logRec a b c d e f s).bas = s.bas := (logRec_kept _ _ _ _ _ _ _).bas
@[simp] theorem logRec_pcr (a b c d e f : Nat) (s : State) : (logRec a b c d e f s).pcr = s.pcr := (logRec_kept _ _ _ _ _ _ _).pcr
@[simp] theorem logRec_fab (a b c d e f : Nat) (s : State) : (logRec a b c d e f s).fab = s.fab := (logRec_kept _ _ _ _ _ _ _).fab
@[simp] theorem logRec_mem (a b c d e f : Nat) (s : State) : (logRec a b c d e f s).mem = s.mem := (logRec_kept _ _ _ _ _ _ _).mem
@[simp] theorem logRec_arc (a b c d e f : Nat) (s : State) : (logRec a b c d e f s).arc = s.arc := (logRec_kept _ _ _ _ _ _ _).arc
@[simp] theorem logRec_pair (a b c d e f : Nat) (s : State) : (logRec a b c d e f s).pair = s.pair := (logRec_kept _ _ _ _ _ _ _).pair
@[simp] theorem logRec_free (a b c d e f : Nat) (s : State) : (logRec a b c d e f s).free = s.free := (logRec_kept _ _ _ _ _ _ _).free
@[simp] theorem logRec_pending (a b c d e f : Nat) (s : State) : (logRec a b c d e f s).pending = s.pending := (logRec_kept _ _ _ _ _ _ _).pending
@[simp] theorem tw_logRec (tab i w : Nat) (a b c d e f : Nat) (s : State) : tw tab i w (logRec a b c d e f s) = tw tab i w s := (logRec_kept _ _ _ _ _ _ _).tw tab i w

@[simp] theorem logDev_link (a b c d e : Nat) (s : State) : (logDev a b c d e s).link = s.link := (logDev_kept _ _ _ _ _ _).link
@[simp] theorem logDev_lock (a b c d e : Nat) (s : State) : (logDev a b c d e s).lock = s.lock := (logDev_kept _ _ _ _ _ _).lock
@[simp] theorem logDev_snap (a b c d e : Nat) (s : State) : (logDev a b c d e s).snap = s.snap := (logDev_kept _ _ _ _ _ _).snap
@[simp] theorem logDev_resp (a b c d e : Nat) (s : State) : (logDev a b c d e s).resp = s.resp := (logDev_kept _ _ _ _ _ _).resp
@[simp] theorem logDev_tim (a b c d e : Nat) (s : State) : (logDev a b c d e s).tim = s.tim := (logDev_kept _ _ _ _ _ _).tim
@[simp] theorem logDev_boot (a b c d e : Nat) (s : State) : (logDev a b c d e s).boot = s.boot := (logDev_kept _ _ _ _ _ _).boot
@[simp] theorem logDev_fixed (a b c d e : Nat) (s : State) : (logDev a b c d e s).fixed = s.fixed := (logDev_kept _ _ _ _ _ _).fixed
@[simp] theorem logDev_jtag (a b c d e : Nat) (s : State) : (logDev a b c d e s).jtag = s.jtag := (logDev_kept _ _ _ _ _ _).jtag
@[simp] theorem logDev_lic (a b c d e : Nat) (s : State) : (logDev a b c d e s).lic = s.lic := (logDev_kept _ _ _ _ _ _).lic
@[simp] theorem logDev_sdh (a b c d e : Nat) (s : State) : (logDev a b c d e s).sdh = s.sdh := (logDev_kept _ _ _ _ _ _).sdh
@[simp] theorem logDev_pac (a b c d e : Nat) (s : State) : (logDev a b c d e s).pac = s.pac := (logDev_kept _ _ _ _ _ _).pac
@[simp] theorem logDev_ftb (a b c d e : Nat) (s : State) : (logDev a b c d e s).ftb = s.ftb := (logDev_kept _ _ _ _ _ _).ftb
@[simp] theorem logDev_exp (a b c d e : Nat) (s : State) : (logDev a b c d e s).exp = s.exp := (logDev_kept _ _ _ _ _ _).exp
@[simp] theorem logDev_bas (a b c d e : Nat) (s : State) : (logDev a b c d e s).bas = s.bas := (logDev_kept _ _ _ _ _ _).bas
@[simp] theorem logDev_pcr (a b c d e : Nat) (s : State) : (logDev a b c d e s).pcr = s.pcr := (logDev_kept _ _ _ _ _ _).pcr
@[simp] theorem logDev_fab (a b c d e : Nat) (s : State) : (logDev a b c d e s).fab = s.fab := (logDev_kept _ _ _ _ _ _).fab
@[simp] theorem logDev_mem (a b c d e : Nat) (s : State) : (logDev a b c d e s).mem = s.mem := (logDev_kept _ _ _ _ _ _).mem
@[simp] theorem logDev_arc (a b c d e : Nat) (s : State) : (logDev a b c d e s).arc = s.arc := (logDev_kept _ _ _ _ _ _).arc
@[simp] theorem logDev_pair (a b c d e : Nat) (s : State) : (logDev a b c d e s).pair = s.pair := (logDev_kept _ _ _ _ _ _).pair
@[simp] theorem logDev_free (a b c d e : Nat) (s : State) : (logDev a b c d e s).free = s.free := (logDev_kept _ _ _ _ _ _).free
@[simp] theorem logDev_pending (a b c d e : Nat) (s : State) : (logDev a b c d e s).pending = s.pending := (logDev_kept _ _ _ _ _ _).pending
@[simp] theorem tw_logDev (tab i w : Nat) (a b c d e : Nat) (s : State) : tw tab i w (logDev a b c d e s) = tw tab i w s := (logDev_kept _ _ _ _ _ _).tw tab i w

@[simp] theorem batchClose_link (f : Batch → Bool) (s : State) : (batchClose f s).link = s.link := (batchClose_kept _ _).link
@[simp] theorem batchClose_lock (f : Batch → Bool) (s : State) : (batchClose f s).lock = s.lock := (batchClose_kept _ _).lock
@[simp] theorem batchClose_snap (f : Batch → Bool) (s : State) : (batchClose f s).snap = s.snap := (batchClose_kept _ _).snap
@[simp] theorem batchClose_resp (f : Batch → Bool) (s : State) : (batchClose f s).resp = s.resp := (batchClose_kept _ _).resp
@[simp] theorem batchClose_tim (f : Batch → Bool) (s : State) : (batchClose f s).tim = s.tim := (batchClose_kept _ _).tim
@[simp] theorem batchClose_boot (f : Batch → Bool) (s : State) : (batchClose f s).boot = s.boot := (batchClose_kept _ _).boot
@[simp] theorem batchClose_fixed (f : Batch → Bool) (s : State) : (batchClose f s).fixed = s.fixed := (batchClose_kept _ _).fixed
@[simp] theorem batchClose_jtag (f : Batch → Bool) (s : State) : (batchClose f s).jtag = s.jtag := (batchClose_kept _ _).jtag
@[simp] theorem batchClose_lic (f : Batch → Bool) (s : State) : (batchClose f s).lic = s.lic := (batchClose_kept _ _).lic
@[simp] theorem batchClose_sdh (f : Batch → Bool) (s : State) : (batchClose f s).sdh = s.sdh := (batchClose_kept _ _).sdh
@[simp] theorem batchClose_pac (f : Batch → Bool) (s : State) : (batchClose f s).pac = s.pac := (batchClose_kept _ _).pac
@[simp] theorem batchClose_ftb (f : Batch → Bool) (s : State) : (batchClose f s).ftb = s.ftb := (batchClose_kept _ _).ftb
@[simp] theorem batchClose_exp (f : Batch → Bool) (s : State) : (batchClose f s).exp = s.exp := (batchClose_kept _ _).exp
@[simp] theorem batchClose_bas (f : Batch → Bool) (s : State) : (batchClose f s).bas = s.bas := (batchClose_kept _ _).bas
@[simp] theorem batchClose_pcr (f : Batch → Bool) (s : State) : (batchClose f s).pcr = s.pcr := (batchClose_kept _ _).pcr
@[simp] theorem batchClose_fab (f : Batch → Bool) (s : State) : (batchClose f s).fab = s.fab := (batchClose_kept _ _).fab
@[simp] theorem batchClose_mem (f : Batch → Bool) (s : State) : (batchClose f s).mem = s.mem := (batchClose_kept _ _).mem
@[simp] theorem batchClose_arc (f : Batch → Bool) (s : State) : (batchClose f s).arc = s.arc := (batchClose_kept _ _).arc
@[simp] theorem batchClose_pair (f : Batch → Bool) (s : State) : (batchClose f s).pair = s.pair := (batchClose_kept _ _).pair
@[simp] theorem batchClose_free (f : Batch → Bool) (s : State) : (batchClose f s).free = s.free := (batchClose_kept _ _).free
@[simp] theorem batchClose_pending (f : Batch → Bool) (s : State) : (batchClose f s).pending = s.pending := (batchClose_kept _ _).pending
@[simp] theorem tw_batchClose (tab i w : Nat) (f : Batch → Bool) (s : State) : tw tab i w (batchClose f s) = tw tab i w s := (batchClose_kept _ _).tw tab i w

@[simp] theorem ignore_link (p off o bit : Nat) (v : Word) (s : State) : (ignore p off o bit v s).link = s.link := (ignore_kept _ _ _ _ _ _).link
@[simp] theorem ignore_lock (p off o bit : Nat) (v : Word) (s : State) : (ignore p off o bit v s).lock = s.lock := (ignore_kept _ _ _ _ _ _).lock
@[simp] theorem ignore_snap (p off o bit : Nat) (v : Word) (s : State) : (ignore p off o bit v s).snap = s.snap := (ignore_kept _ _ _ _ _ _).snap
@[simp] theorem ignore_resp (p off o bit : Nat) (v : Word) (s : State) : (ignore p off o bit v s).resp = s.resp := (ignore_kept _ _ _ _ _ _).resp
@[simp] theorem ignore_tim (p off o bit : Nat) (v : Word) (s : State) : (ignore p off o bit v s).tim = s.tim := (ignore_kept _ _ _ _ _ _).tim
@[simp] theorem ignore_boot (p off o bit : Nat) (v : Word) (s : State) : (ignore p off o bit v s).boot = s.boot := (ignore_kept _ _ _ _ _ _).boot
@[simp] theorem ignore_fixed (p off o bit : Nat) (v : Word) (s : State) : (ignore p off o bit v s).fixed = s.fixed := (ignore_kept _ _ _ _ _ _).fixed
@[simp] theorem ignore_jtag (p off o bit : Nat) (v : Word) (s : State) : (ignore p off o bit v s).jtag = s.jtag := (ignore_kept _ _ _ _ _ _).jtag
@[simp] theorem ignore_lic (p off o bit : Nat) (v : Word) (s : State) : (ignore p off o bit v s).lic = s.lic := (ignore_kept _ _ _ _ _ _).lic
@[simp] theorem ignore_sdh (p off o bit : Nat) (v : Word) (s : State) : (ignore p off o bit v s).sdh = s.sdh := (ignore_kept _ _ _ _ _ _).sdh
@[simp] theorem ignore_pac (p off o bit : Nat) (v : Word) (s : State) : (ignore p off o bit v s).pac = s.pac := (ignore_kept _ _ _ _ _ _).pac
@[simp] theorem ignore_ftb (p off o bit : Nat) (v : Word) (s : State) : (ignore p off o bit v s).ftb = s.ftb := (ignore_kept _ _ _ _ _ _).ftb
@[simp] theorem ignore_exp (p off o bit : Nat) (v : Word) (s : State) : (ignore p off o bit v s).exp = s.exp := (ignore_kept _ _ _ _ _ _).exp
@[simp] theorem ignore_bas (p off o bit : Nat) (v : Word) (s : State) : (ignore p off o bit v s).bas = s.bas := (ignore_kept _ _ _ _ _ _).bas
@[simp] theorem ignore_pcr (p off o bit : Nat) (v : Word) (s : State) : (ignore p off o bit v s).pcr = s.pcr := (ignore_kept _ _ _ _ _ _).pcr
@[simp] theorem ignore_fab (p off o bit : Nat) (v : Word) (s : State) : (ignore p off o bit v s).fab = s.fab := (ignore_kept _ _ _ _ _ _).fab
@[simp] theorem ignore_mem (p off o bit : Nat) (v : Word) (s : State) : (ignore p off o bit v s).mem = s.mem := (ignore_kept _ _ _ _ _ _).mem
@[simp] theorem ignore_arc (p off o bit : Nat) (v : Word) (s : State) : (ignore p off o bit v s).arc = s.arc := (ignore_kept _ _ _ _ _ _).arc
@[simp] theorem ignore_pair (p off o bit : Nat) (v : Word) (s : State) : (ignore p off o bit v s).pair = s.pair := (ignore_kept _ _ _ _ _ _).pair
@[simp] theorem ignore_free (p off o bit : Nat) (v : Word) (s : State) : (ignore p off o bit v s).free = s.free := (ignore_kept _ _ _ _ _ _).free
@[simp] theorem ignore_pending (p off o bit : Nat) (v : Word) (s : State) : (ignore p off o bit v s).pending = s.pending := (ignore_kept _ _ _ _ _ _).pending
@[simp] theorem tw_ignore (tab i w : Nat) (p off o bit : Nat) (v : Word) (s : State) : tw tab i w (ignore p off o bit v s) = tw tab i w s := (ignore_kept _ _ _ _ _ _).tw tab i w

@[simp] theorem logAccess_link (a b c d e f : Nat) (s : State) : (logAccess a b c d e f s).link = s.link := (logAccess_kept _ _ _ _ _ _ _).link
@[simp] theorem logAccess_lock (a b c d e f : Nat) (s : State) : (logAccess a b c d e f s).lock = s.lock := (logAccess_kept _ _ _ _ _ _ _).lock
@[simp] theorem logAccess_snap (a b c d e f : Nat) (s : State) : (logAccess a b c d e f s).snap = s.snap := (logAccess_kept _ _ _ _ _ _ _).snap
@[simp] theorem logAccess_resp (a b c d e f : Nat) (s : State) : (logAccess a b c d e f s).resp = s.resp := (logAccess_kept _ _ _ _ _ _ _).resp
@[simp] theorem logAccess_tim (a b c d e f : Nat) (s : State) : (logAccess a b c d e f s).tim = s.tim := (logAccess_kept _ _ _ _ _ _ _).tim
@[simp] theorem logAccess_boot (a b c d e f : Nat) (s : State) : (logAccess a b c d e f s).boot = s.boot := (logAccess_kept _ _ _ _ _ _ _).boot
@[simp] theorem logAccess_fixed (a b c d e f : Nat) (s : State) : (logAccess a b c d e f s).fixed = s.fixed := (logAccess_kept _ _ _ _ _ _ _).fixed
@[simp] theorem logAccess_jtag (a b c d e f : Nat) (s : State) : (logAccess a b c d e f s).jtag = s.jtag := (logAccess_kept _ _ _ _ _ _ _).jtag
@[simp] theorem logAccess_lic (a b c d e f : Nat) (s : State) : (logAccess a b c d e f s).lic = s.lic := (logAccess_kept _ _ _ _ _ _ _).lic
@[simp] theorem logAccess_sdh (a b c d e f : Nat) (s : State) : (logAccess a b c d e f s).sdh = s.sdh := (logAccess_kept _ _ _ _ _ _ _).sdh
@[simp] theorem logAccess_pac (a b c d e f : Nat) (s : State) : (logAccess a b c d e f s).pac = s.pac := (logAccess_kept _ _ _ _ _ _ _).pac
@[simp] theorem logAccess_ftb (a b c d e f : Nat) (s : State) : (logAccess a b c d e f s).ftb = s.ftb := (logAccess_kept _ _ _ _ _ _ _).ftb
@[simp] theorem logAccess_exp (a b c d e f : Nat) (s : State) : (logAccess a b c d e f s).exp = s.exp := (logAccess_kept _ _ _ _ _ _ _).exp
@[simp] theorem logAccess_bas (a b c d e f : Nat) (s : State) : (logAccess a b c d e f s).bas = s.bas := (logAccess_kept _ _ _ _ _ _ _).bas
@[simp] theorem logAccess_pcr (a b c d e f : Nat) (s : State) : (logAccess a b c d e f s).pcr = s.pcr := (logAccess_kept _ _ _ _ _ _ _).pcr
@[simp] theorem logAccess_fab (a b c d e f : Nat) (s : State) : (logAccess a b c d e f s).fab = s.fab := (logAccess_kept _ _ _ _ _ _ _).fab
@[simp] theorem logAccess_mem (a b c d e f : Nat) (s : State) : (logAccess a b c d e f s).mem = s.mem := (logAccess_kept _ _ _ _ _ _ _).mem
@[simp] theorem logAccess_arc (a b c d e f : Nat) (s : State) : (logAccess a b c d e f s).arc = s.arc := (logAccess_kept _ _ _ _ _ _ _).arc
@[simp] theorem logAccess_pair (a b c d e f : Nat) (s : State) : (logAccess a b c d e f s).pair = s.pair := (logAccess_kept _ _ _ _ _ _ _).pair
@[simp] theorem logAccess_free (a b c d e f : Nat) (s : State) : (logAccess a b c d e f s).free = s.free := (logAccess_kept _ _ _ _ _ _ _).free
@[simp] theorem logAccess_pending (a b c d e f : Nat) (s : State) : (logAccess a b c d e f s).pending = s.pending := (logAccess_kept _ _ _ _ _ _ _).pending
@[simp] theorem tw_logAccess (tab i w : Nat) (a b c d e f : Nat) (s : State) : tw tab i w (logAccess a b c d e f s) = tw tab i w s := (logAccess_kept _ _ _ _ _ _ _).tw tab i w

@[simp] theorem accepted_link (p off o : Nat) (ch : Bool) (s : State) : (accepted p off o ch s).link = s.link := (accepted_kept _ _ _ _ _).link
@[simp] theorem accepted_lock (p off o : Nat) (ch : Bool) (s : State) : (accepted p off o ch s).lock = s.lock := (accepted_kept _ _ _ _ _).lock
@[simp] theorem accepted_snap (p off o : Nat) (ch : Bool) (s : State) : (accepted p off o ch s).snap = s.snap := (accepted_kept _ _ _ _ _).snap
@[simp] theorem accepted_resp (p off o : Nat) (ch : Bool) (s : State) : (accepted p off o ch s).resp = s.resp := (accepted_kept _ _ _ _ _).resp
@[simp] theorem accepted_tim (p off o : Nat) (ch : Bool) (s : State) : (accepted p off o ch s).tim = s.tim := (accepted_kept _ _ _ _ _).tim
@[simp] theorem accepted_boot (p off o : Nat) (ch : Bool) (s : State) : (accepted p off o ch s).boot = s.boot := (accepted_kept _ _ _ _ _).boot
@[simp] theorem accepted_fixed (p off o : Nat) (ch : Bool) (s : State) : (accepted p off o ch s).fixed = s.fixed := (accepted_kept _ _ _ _ _).fixed
@[simp] theorem accepted_jtag (p off o : Nat) (ch : Bool) (s : State) : (accepted p off o ch s).jtag = s.jtag := (accepted_kept _ _ _ _ _).jtag
@[simp] theorem accepted_lic (p off o : Nat) (ch : Bool) (s : State) : (accepted p off o ch s).lic = s.lic := (accepted_kept _ _ _ _ _).lic
@[simp] theorem accepted_sdh (p off o : Nat) (ch : Bool) (s : State) : (accepted p off o ch s).sdh = s.sdh := (accepted_kept _ _ _ _ _).sdh
@[simp] theorem accepted_pac (p off o : Nat) (ch : Bool) (s : State) : (accepted p off o ch s).pac = s.pac := (accepted_kept _ _ _ _ _).pac
@[simp] theorem accepted_ftb (p off o : Nat) (ch : Bool) (s : State) : (accepted p off o ch s).ftb = s.ftb := (accepted_kept _ _ _ _ _).ftb
@[simp] theorem accepted_exp (p off o : Nat) (ch : Bool) (s : State) : (accepted p off o ch s).exp = s.exp := (accepted_kept _ _ _ _ _).exp
@[simp] theorem accepted_bas (p off o : Nat) (ch : Bool) (s : State) : (accepted p off o ch s).bas = s.bas := (accepted_kept _ _ _ _ _).bas
@[simp] theorem accepted_pcr (p off o : Nat) (ch : Bool) (s : State) : (accepted p off o ch s).pcr = s.pcr := (accepted_kept _ _ _ _ _).pcr
@[simp] theorem accepted_fab (p off o : Nat) (ch : Bool) (s : State) : (accepted p off o ch s).fab = s.fab := (accepted_kept _ _ _ _ _).fab
@[simp] theorem accepted_mem (p off o : Nat) (ch : Bool) (s : State) : (accepted p off o ch s).mem = s.mem := (accepted_kept _ _ _ _ _).mem
@[simp] theorem accepted_arc (p off o : Nat) (ch : Bool) (s : State) : (accepted p off o ch s).arc = s.arc := (accepted_kept _ _ _ _ _).arc
@[simp] theorem accepted_pair (p off o : Nat) (ch : Bool) (s : State) : (accepted p off o ch s).pair = s.pair := (accepted_kept _ _ _ _ _).pair
@[simp] theorem accepted_free (p off o : Nat) (ch : Bool) (s : State) : (accepted p off o ch s).free = s.free := (accepted_kept _ _ _ _ _).free
@[simp] theorem accepted_pending (p off o : Nat) (ch : Bool) (s : State) : (accepted p off o ch s).pending = s.pending := (accepted_kept _ _ _ _ _).pending
@[simp] theorem tw_accepted (tab i w : Nat) (p off o : Nat) (ch : Bool) (s : State) : tw tab i w (accepted p off o ch s) = tw tab i w s := (accepted_kept _ _ _ _ _).tw tab i w

@[simp] theorem logWrite_link (p off o : Nat) (old new : Word) (s : State) : (logWrite p off o old new s).link = s.link := (logWrite_kept _ _ _ _ _ _).link
@[simp] theorem logWrite_lock (p off o : Nat) (old new : Word) (s : State) : (logWrite p off o old new s).lock = s.lock := (logWrite_kept _ _ _ _ _ _).lock
@[simp] theorem logWrite_snap (p off o : Nat) (old new : Word) (s : State) : (logWrite p off o old new s).snap = s.snap := (logWrite_kept _ _ _ _ _ _).snap
@[simp] theorem logWrite_resp (p off o : Nat) (old new : Word) (s : State) : (logWrite p off o old new s).resp = s.resp := (logWrite_kept _ _ _ _ _ _).resp
@[simp] theorem logWrite_tim (p off o : Nat) (old new : Word) (s : State) : (logWrite p off o old new s).tim = s.tim := (logWrite_kept _ _ _ _ _ _).tim
@[simp] theorem logWrite_boot (p off o : Nat) (old new : Word) (s : State) : (logWrite p off o old new s).boot = s.boot := (logWrite_kept _ _ _ _ _ _).boot
@[simp] theorem logWrite_fixed (p off o : Nat) (old new : Word) (s : State) : (logWrite p off o old new s).fixed = s.fixed := (logWrite_kept _ _ _ _ _ _).fixed
@[simp] theorem logWrite_jtag (p off o : Nat) (old new : Word) (s : State) : (logWrite p off o old new s).jtag = s.jtag := (logWrite_kept _ _ _ _ _ _).jtag
@[simp] theorem logWrite_lic (p off o : Nat) (old new : Word) (s : State) : (logWrite p off o old new s).lic = s.lic := (logWrite_kept _ _ _ _ _ _).lic
@[simp] theorem logWrite_sdh (p off o : Nat) (old new : Word) (s : State) : (logWrite p off o old new s).sdh = s.sdh := (logWrite_kept _ _ _ _ _ _).sdh
@[simp] theorem logWrite_pac (p off o : Nat) (old new : Word) (s : State) : (logWrite p off o old new s).pac = s.pac := (logWrite_kept _ _ _ _ _ _).pac
@[simp] theorem logWrite_ftb (p off o : Nat) (old new : Word) (s : State) : (logWrite p off o old new s).ftb = s.ftb := (logWrite_kept _ _ _ _ _ _).ftb
@[simp] theorem logWrite_exp (p off o : Nat) (old new : Word) (s : State) : (logWrite p off o old new s).exp = s.exp := (logWrite_kept _ _ _ _ _ _).exp
@[simp] theorem logWrite_bas (p off o : Nat) (old new : Word) (s : State) : (logWrite p off o old new s).bas = s.bas := (logWrite_kept _ _ _ _ _ _).bas
@[simp] theorem logWrite_pcr (p off o : Nat) (old new : Word) (s : State) : (logWrite p off o old new s).pcr = s.pcr := (logWrite_kept _ _ _ _ _ _).pcr
@[simp] theorem logWrite_fab (p off o : Nat) (old new : Word) (s : State) : (logWrite p off o old new s).fab = s.fab := (logWrite_kept _ _ _ _ _ _).fab
@[simp] theorem logWrite_mem (p off o : Nat) (old new : Word) (s : State) : (logWrite p off o old new s).mem = s.mem := (logWrite_kept _ _ _ _ _ _).mem
@[simp] theorem logWrite_arc (p off o : Nat) (old new : Word) (s : State) : (logWrite p off o old new s).arc = s.arc := (logWrite_kept _ _ _ _ _ _).arc
@[simp] theorem logWrite_pair (p off o : Nat) (old new : Word) (s : State) : (logWrite p off o old new s).pair = s.pair := (logWrite_kept _ _ _ _ _ _).pair
@[simp] theorem logWrite_free (p off o : Nat) (old new : Word) (s : State) : (logWrite p off o old new s).free = s.free := (logWrite_kept _ _ _ _ _ _).free
@[simp] theorem logWrite_pending (p off o : Nat) (old new : Word) (s : State) : (logWrite p off o old new s).pending = s.pending := (logWrite_kept _ _ _ _ _ _).pending
@[simp] theorem tw_logWrite (tab i w : Nat) (p off o : Nat) (old new : Word) (s : State) : tw tab i w (logWrite p off o old new s) = tw tab i w s := (logWrite_kept _ _ _ _ _ _).tw tab i w

@[simp] theorem hifEvRaw_link (f num n : Nat) (s : State) : (hifEvRaw f num n s).link = s.link := (hifEvRaw_kept _ _ _ _).link
@[simp] theorem hifEvRaw_lock (f num n : Nat) (s : State) : (hifEvRaw f num n s).lock = s.lock := (hifEvRaw_kept _ _ _ _).lock
@[simp] theorem hifEvRaw_snap (f num n : Nat) (s : State) : (hifEvRaw f num n s).snap = s.snap := (hifEvRaw_kept _ _ _ _).snap
@[simp] theorem hifEvRaw_resp (f num n : Nat) (s : State) : (hifEvRaw f num n s).resp = s.resp := (hifEvRaw_kept _ _ _ _).resp
@[simp] theorem hifEvRaw_tim (f num n : Nat) (s : State) : (hifEvRaw f num n s).tim = s.tim := (hifEvRaw_kept _ _ _ _).tim
@[simp] theorem hifEvRaw_boot (f num n : Nat) (s : State) : (hifEvRaw f num n s).boot = s.boot := (hifEvRaw_kept _ _ _ _).boot
@[simp] theorem hifEvRaw_fixed (f num n : Nat) (s : State) : (hifEvRaw f num n s).fixed = s.fixed := (hifEvRaw_kept _ _ _ _).fixed
@[simp] theorem hifEvRaw_jtag (f num n : Nat) (s : State) : (hifEvRaw f num n s).jtag = s.jtag := (hifEvRaw_kept _ _ _ _).jtag
@[simp] theorem hifEvRaw_lic (f num n : Nat) (s : State) : (hifEvRaw f num n s).lic = s.lic := (hifEvRaw_kept _ _ _ _).lic
@[simp] theorem hifEvRaw_sdh (f num n : Nat) (s : State) : (hifEvRaw f num n s).sdh = s.sdh := (hifEvRaw_kept _ _ _ _).sdh
@[simp] theorem hifEvRaw_pac (f num n : Nat) (s : State) : (hifEvRaw f num n s).pac = s.pac := (hifEvRaw_kept _ _ _ _).pac
@[simp] theorem hifEvRaw_ftb (f num n : Nat) (s : State) : (hifEvRaw f num n s).ftb = s.ftb := (hifEvRaw_kept _ _ _ _).ftb
@[simp] theorem hifEvRaw_exp (f num n : Nat) (s : State) : (hifEvRaw f num n s).exp = s.exp := (hifEvRaw_kept _ _ _ _).exp
@[simp] theorem hifEvRaw_bas (f num n : Nat) (s : State) : (hifEvRaw f num n s).bas = s.bas := (hifEvRaw_kept _ _ _ _).bas
@[simp] theorem hifEvRaw_pcr (f num n : Nat) (s : State) : (hifEvRaw f num n s).pcr = s.pcr := (hifEvRaw_kept _ _ _ _).pcr
@[simp] theorem hifEvRaw_fab (f num n : Nat) (s : State) : (hifEvRaw f num n s).fab = s.fab := (hifEvRaw_kept _ _ _ _).fab
@[simp] theorem hifEvRaw_mem (f num n : Nat) (s : State) : (hifEvRaw f num n s).mem = s.mem := (hifEvRaw_kept _ _ _ _).mem
@[simp] theorem hifEvRaw_arc (f num n : Nat) (s : State) : (hifEvRaw f num n s).arc = s.arc := (hifEvRaw_kept _ _ _ _).arc
@[simp] theorem hifEvRaw_pair (f num n : Nat) (s : State) : (hifEvRaw f num n s).pair = s.pair := (hifEvRaw_kept _ _ _ _).pair
@[simp] theorem hifEvRaw_free (f num n : Nat) (s : State) : (hifEvRaw f num n s).free = s.free := (hifEvRaw_kept _ _ _ _).free
@[simp] theorem hifEvRaw_pending (f num n : Nat) (s : State) : (hifEvRaw f num n s).pending = s.pending := (hifEvRaw_kept _ _ _ _).pending
@[simp] theorem tw_hifEvRaw (tab i w : Nat) (f num n : Nat) (s : State) : tw tab i w (hifEvRaw f num n s) = tw tab i w s := (hifEvRaw_kept _ _ _ _).tw tab i w

@[simp] theorem msiSend_link (f vec : Nat) (s : State) : (msiSend f vec s).link = s.link := (msiSend_kept _ _ _).link
@[simp] theorem msiSend_lock (f vec : Nat) (s : State) : (msiSend f vec s).lock = s.lock := (msiSend_kept _ _ _).lock
@[simp] theorem msiSend_snap (f vec : Nat) (s : State) : (msiSend f vec s).snap = s.snap := (msiSend_kept _ _ _).snap
@[simp] theorem msiSend_resp (f vec : Nat) (s : State) : (msiSend f vec s).resp = s.resp := (msiSend_kept _ _ _).resp
@[simp] theorem msiSend_tim (f vec : Nat) (s : State) : (msiSend f vec s).tim = s.tim := (msiSend_kept _ _ _).tim
@[simp] theorem msiSend_boot (f vec : Nat) (s : State) : (msiSend f vec s).boot = s.boot := (msiSend_kept _ _ _).boot
@[simp] theorem msiSend_fixed (f vec : Nat) (s : State) : (msiSend f vec s).fixed = s.fixed := (msiSend_kept _ _ _).fixed
@[simp] theorem msiSend_jtag (f vec : Nat) (s : State) : (msiSend f vec s).jtag = s.jtag := (msiSend_kept _ _ _).jtag
@[simp] theorem msiSend_lic (f vec : Nat) (s : State) : (msiSend f vec s).lic = s.lic := (msiSend_kept _ _ _).lic
@[simp] theorem msiSend_sdh (f vec : Nat) (s : State) : (msiSend f vec s).sdh = s.sdh := (msiSend_kept _ _ _).sdh
@[simp] theorem msiSend_pac (f vec : Nat) (s : State) : (msiSend f vec s).pac = s.pac := (msiSend_kept _ _ _).pac
@[simp] theorem msiSend_ftb (f vec : Nat) (s : State) : (msiSend f vec s).ftb = s.ftb := (msiSend_kept _ _ _).ftb
@[simp] theorem msiSend_exp (f vec : Nat) (s : State) : (msiSend f vec s).exp = s.exp := (msiSend_kept _ _ _).exp
@[simp] theorem msiSend_bas (f vec : Nat) (s : State) : (msiSend f vec s).bas = s.bas := (msiSend_kept _ _ _).bas
@[simp] theorem msiSend_pcr (f vec : Nat) (s : State) : (msiSend f vec s).pcr = s.pcr := (msiSend_kept _ _ _).pcr
@[simp] theorem msiSend_fab (f vec : Nat) (s : State) : (msiSend f vec s).fab = s.fab := (msiSend_kept _ _ _).fab
@[simp] theorem msiSend_mem (f vec : Nat) (s : State) : (msiSend f vec s).mem = s.mem := (msiSend_kept _ _ _).mem
@[simp] theorem msiSend_arc (f vec : Nat) (s : State) : (msiSend f vec s).arc = s.arc := (msiSend_kept _ _ _).arc
@[simp] theorem msiSend_pair (f vec : Nat) (s : State) : (msiSend f vec s).pair = s.pair := (msiSend_kept _ _ _).pair
@[simp] theorem msiSend_free (f vec : Nat) (s : State) : (msiSend f vec s).free = s.free := (msiSend_kept _ _ _).free
@[simp] theorem msiSend_pending (f vec : Nat) (s : State) : (msiSend f vec s).pending = s.pending := (msiSend_kept _ _ _).pending
@[simp] theorem tw_msiSend (tab i w : Nat) (f vec : Nat) (s : State) : tw tab i w (msiSend f vec s) = tw tab i w s := (msiSend_kept _ _ _).tw tab i w

@[simp] theorem advance_link (t : Nat) (s : State) : (advance t s).link = s.link := by unfold advance; split <;> rfl
@[simp] theorem advance_regs (t : Nat) (s : State) : (advance t s).regs = s.regs := by unfold advance; split <;> rfl
@[simp] theorem advance_lock (t : Nat) (s : State) : (advance t s).lock = s.lock := by unfold advance; split <;> rfl
@[simp] theorem advance_log (t : Nat) (s : State) : (advance t s).log = s.log := by unfold advance; split <;> rfl
@[simp] theorem advance_snap (t : Nat) (s : State) : (advance t s).snap = s.snap := by unfold advance; split <;> rfl
@[simp] theorem advance_irq (t : Nat) (s : State) : (advance t s).irq = s.irq := by unfold advance; split <;> rfl
@[simp] theorem advance_resp (t : Nat) (s : State) : (advance t s).resp = s.resp := by unfold advance; split <;> rfl
@[simp] theorem advance_boot (t : Nat) (s : State) : (advance t s).boot = s.boot := by unfold advance; split <;> rfl
@[simp] theorem advance_fixed (t : Nat) (s : State) : (advance t s).fixed = s.fixed := by unfold advance; split <;> rfl
@[simp] theorem advance_jtag (t : Nat) (s : State) : (advance t s).jtag = s.jtag := by unfold advance; split <;> rfl
@[simp] theorem advance_lic (t : Nat) (s : State) : (advance t s).lic = s.lic := by unfold advance; split <;> rfl
@[simp] theorem advance_sdh (t : Nat) (s : State) : (advance t s).sdh = s.sdh := by unfold advance; split <;> rfl
@[simp] theorem advance_pac (t : Nat) (s : State) : (advance t s).pac = s.pac := by unfold advance; split <;> rfl
@[simp] theorem advance_ftb (t : Nat) (s : State) : (advance t s).ftb = s.ftb := by unfold advance; split <;> rfl
@[simp] theorem advance_exp (t : Nat) (s : State) : (advance t s).exp = s.exp := by unfold advance; split <;> rfl
@[simp] theorem advance_bas (t : Nat) (s : State) : (advance t s).bas = s.bas := by unfold advance; split <;> rfl
@[simp] theorem advance_pcr (t : Nat) (s : State) : (advance t s).pcr = s.pcr := by unfold advance; split <;> rfl
@[simp] theorem advance_fab (t : Nat) (s : State) : (advance t s).fab = s.fab := by unfold advance; split <;> rfl
@[simp] theorem advance_mem (t : Nat) (s : State) : (advance t s).mem = s.mem := by unfold advance; split <;> rfl
@[simp] theorem advance_arc (t : Nat) (s : State) : (advance t s).arc = s.arc := by unfold advance; split <;> rfl
@[simp] theorem advance_pair (t : Nat) (s : State) : (advance t s).pair = s.pair := by unfold advance; split <;> rfl
@[simp] theorem advance_msh (t : Nat) (s : State) : (advance t s).msh = s.msh := by unfold advance; split <;> rfl
@[simp] theorem advance_hif (t : Nat) (s : State) : (advance t s).hif = s.hif := by unfold advance; split <;> rfl
@[simp] theorem advance_free (t : Nat) (s : State) : (advance t s).free = s.free := by unfold advance; split <;> rfl
@[simp] theorem advance_pending (t : Nat) (s : State) : (advance t s).pending = s.pending := by unfold advance; split <;> rfl
@[simp] theorem advance_frac (t : Nat) (s : State) : (advance t s).tim.frac = s.tim.frac := by unfold advance; split <;> rfl
@[simp] theorem advance_run (t : Nat) (s : State) : (advance t s).tim.run = s.tim.run := by unfold advance; split <;> rfl
@[simp] theorem advance_nextIssue (t : Nat) (s : State) : (advance t s).tim.nextIssue = s.tim.nextIssue := by unfold advance; split <;> rfl
@[simp] theorem advance_issued (t : Nat) (s : State) : (advance t s).tim.issued = s.tim.issued := by unfold advance; split <;> rfl
@[simp] theorem advance_missPages (t : Nat) (s : State) : (advance t s).tim.missPages = s.tim.missPages := by unfold advance; split <;> rfl
@[simp] theorem advance_inForce (t : Nat) (s : State) : (advance t s).tim.inForce = s.tim.inForce := by unfold advance; split <;> rfl
@[simp] theorem advance_firstB (t : Nat) (s : State) : (advance t s).tim.firstB = s.tim.firstB := by unfold advance; split <;> rfl
@[simp] theorem advance_stretch (t : Nat) (s : State) : (advance t s).tim.stretch = s.tim.stretch := by unfold advance; split <;> rfl
@[simp] theorem advance_step (t : Nat) (s : State) : (advance t s).tim.step = s.tim.step := by unfold advance; split <;> rfl
@[simp] theorem advance_servo (t : Nat) (s : State) : (advance t s).tim.servo = s.tim.servo := by unfold advance; split <;> rfl
@[simp] theorem advance_acc (t : Nat) (s : State) : (advance t s).tim.acc = s.tim.acc := by unfold advance; split <;> rfl
@[simp] theorem advance_inRun (t : Nat) (s : State) : (advance t s).tim.inRun = s.tim.inRun := by unfold advance; split <;> rfl
@[simp] theorem advance_outRun (t : Nat) (s : State) : (advance t s).tim.outRun = s.tim.outRun := by unfold advance; split <;> rfl
@[simp] theorem advance_adjHist (t : Nat) (s : State) : (advance t s).tim.adjHist = s.tim.adjHist := by unfold advance; split <;> rfl
@[simp] theorem advance_backStep (t : Nat) (s : State) : (advance t s).tim.backStep = s.tim.backStep := by unfold advance; split <;> rfl
@[simp] theorem advance_holdStart (t : Nat) (s : State) : (advance t s).tim.holdStart = s.tim.holdStart := by unfold advance; split <;> rfl
@[simp] theorem advance_lastInput (t : Nat) (s : State) : (advance t s).tim.lastInput = s.tim.lastInput := by unfold advance; split <;> rfl
@[simp] theorem advance_replicaErr (t : Nat) (s : State) : (advance t s).tim.replicaErr = s.tim.replicaErr := by unfold advance; split <;> rfl
@[simp] theorem advance_txts (t : Nat) (s : State) : (advance t s).tim.txts = s.tim.txts := by unfold advance; split <;> rfl
@[simp] theorem advance_pdReq (t : Nat) (s : State) : (advance t s).tim.pdReq = s.tim.pdReq := by unfold advance; split <;> rfl
@[simp] theorem advance_userOld (t : Nat) (s : State) : (advance t s).tim.userOld = s.tim.userOld := by unfold advance; split <;> rfl
@[simp] theorem advance_pendOfs (t : Nat) (s : State) : (advance t s).tim.pendOfs = s.tim.pendOfs := by unfold advance; split <;> rfl
@[simp] theorem advance_lastOfs (t : Nat) (s : State) : (advance t s).tim.lastOfs = s.tim.lastOfs := by unfold advance; split <;> rfl
@[simp] theorem advance_refActive (t : Nat) (s : State) : (advance t s).tim.refActive = s.tim.refActive := by unfold advance; split <;> rfl
@[simp] theorem advance_refPending (t : Nat) (s : State) : (advance t s).tim.refPending = s.tim.refPending := by unfold advance; split <;> rfl
@[simp] theorem advance_refStat (t : Nat) (s : State) : (advance t s).tim.refStat = s.tim.refStat := by unfold advance; split <;> rfl
@[simp] theorem advance_sqA (t : Nat) (s : State) : (advance t s).tim.sqA = s.tim.sqA := by unfold advance; split <;> rfl
@[simp] theorem advance_sqB (t : Nat) (s : State) : (advance t s).tim.sqB = s.tim.sqB := by unfold advance; split <;> rfl
@[simp] theorem advance_ppsIn (t : Nat) (s : State) : (advance t s).tim.ppsIn = s.tim.ppsIn := by unfold advance; split <;> rfl
@[simp] theorem advance_ppsUp (t : Nat) (s : State) : (advance t s).tim.ppsUp = s.tim.ppsUp := by unfold advance; split <;> rfl
@[simp] theorem advance_ppsOut (t : Nat) (s : State) : (advance t s).tim.ppsOut = s.tim.ppsOut := by unfold advance; split <;> rfl
@[simp] theorem advance_tenmOut (t : Nat) (s : State) : (advance t s).tim.tenmOut = s.tim.tenmOut := by unfold advance; split <;> rfl
@[simp] theorem advance_ppsFall (t : Nat) (s : State) : (advance t s).tim.ppsFall = s.tim.ppsFall := by unfold advance; split <;> rfl
@[simp] theorem rd_advance (p off : Nat) (t : Nat) (s : State) : rd p off (advance t s) = rd p off s := by unfold advance; split <;> rfl
@[simp] theorem tw_advance (x i w : Nat) (t : Nat) (s : State) : tw x i w (advance t s) = tw x i w s := by unfold advance; split <;> rfl
@[simp] theorem held_advance (t : Nat) (s : State) : held (advance t s) = held s := by unfold advance; split <;> rfl
@[simp] theorem rf_advance (p off lo n : Nat) (t : Nat) (s : State) : rf p off lo n (advance t s) = rf p off lo n s := by unfold advance; split <;> rfl
@[simp] theorem rb_advance (p off i : Nat) (t : Nat) (s : State) : rb p off i (advance t s) = rb p off i s := by unfold advance; split <;> rfl
@[simp] theorem pageLive_advance (p : Nat) (t : Nat) (s : State) : pageLive p (advance t s) = pageLive p s := by unfold advance; split <;> rfl
@[simp] theorem tf_advance (x i w lo n : Nat) (t : Nat) (s : State) : tf x i w lo n (advance t s) = tf x i w lo n s := by unfold advance; split <;> rfl
@[simp] theorem tb_advance (x i w j : Nat) (t : Nat) (s : State) : tb x i w j (advance t s) = tb x i w j s := by unfold advance; split <;> rfl
@[simp] theorem answer_tim (e : Bool) (d : List Word) (s : State) : (answer e d s).tim = s.tim := rfl
@[simp] theorem answer_link (e : Bool) (d : List Word) (s : State) : (answer e d s).link = s.link := rfl
@[simp] theorem answer_regs (e : Bool) (d : List Word) (s : State) : (answer e d s).regs = s.regs := rfl
@[simp] theorem answer_lock (e : Bool) (d : List Word) (s : State) : (answer e d s).lock = s.lock := rfl
@[simp] theorem answer_log (e : Bool) (d : List Word) (s : State) : (answer e d s).log = s.log := rfl
@[simp] theorem answer_snap (e : Bool) (d : List Word) (s : State) : (answer e d s).snap = s.snap := rfl
@[simp] theorem answer_irq (e : Bool) (d : List Word) (s : State) : (answer e d s).irq = s.irq := rfl
@[simp] theorem answer_boot (e : Bool) (d : List Word) (s : State) : (answer e d s).boot = s.boot := rfl
@[simp] theorem answer_fixed (e : Bool) (d : List Word) (s : State) : (answer e d s).fixed = s.fixed := rfl
@[simp] theorem answer_jtag (e : Bool) (d : List Word) (s : State) : (answer e d s).jtag = s.jtag := rfl
@[simp] theorem answer_lic (e : Bool) (d : List Word) (s : State) : (answer e d s).lic = s.lic := rfl
@[simp] theorem answer_sdh (e : Bool) (d : List Word) (s : State) : (answer e d s).sdh = s.sdh := rfl
@[simp] theorem answer_pac (e : Bool) (d : List Word) (s : State) : (answer e d s).pac = s.pac := rfl
@[simp] theorem answer_ftb (e : Bool) (d : List Word) (s : State) : (answer e d s).ftb = s.ftb := rfl
@[simp] theorem answer_exp (e : Bool) (d : List Word) (s : State) : (answer e d s).exp = s.exp := rfl
@[simp] theorem answer_bas (e : Bool) (d : List Word) (s : State) : (answer e d s).bas = s.bas := rfl
@[simp] theorem answer_pcr (e : Bool) (d : List Word) (s : State) : (answer e d s).pcr = s.pcr := rfl
@[simp] theorem answer_fab (e : Bool) (d : List Word) (s : State) : (answer e d s).fab = s.fab := rfl
@[simp] theorem answer_mem (e : Bool) (d : List Word) (s : State) : (answer e d s).mem = s.mem := rfl
@[simp] theorem answer_arc (e : Bool) (d : List Word) (s : State) : (answer e d s).arc = s.arc := rfl
@[simp] theorem answer_pair (e : Bool) (d : List Word) (s : State) : (answer e d s).pair = s.pair := rfl
@[simp] theorem answer_msh (e : Bool) (d : List Word) (s : State) : (answer e d s).msh = s.msh := rfl
@[simp] theorem answer_hif (e : Bool) (d : List Word) (s : State) : (answer e d s).hif = s.hif := rfl
@[simp] theorem answer_free (e : Bool) (d : List Word) (s : State) : (answer e d s).free = s.free := rfl
@[simp] theorem answer_pending (e : Bool) (d : List Word) (s : State) : (answer e d s).pending = s.pending := rfl
@[simp] theorem rd_answer (p off : Nat) (e : Bool) (d : List Word) (s : State) : rd p off (answer e d s) = rd p off s := rfl
@[simp] theorem rd_owned (p off : Nat) (s r : State) : rd p off (owned s r) = rd p off r := rfl
@[simp] theorem tw_answer (x i w : Nat) (e : Bool) (d : List Word) (s : State) : tw x i w (answer e d s) = tw x i w s := rfl
@[simp] theorem tw_owned (x i w : Nat) (s r : State) : tw x i w (owned s r) = tw x i w r := rfl

end Sys2Proof.Machine
end

