-- ==== Sys2Proof/Laws/Frame.lean ====
section
/-! SUPPORT. How frames compose. -/
namespace Sys2Proof.Machine

theorem KeepsBut.refl (ps : List Part) (s : State) : KeepsBut ps s s := by
  intro p _; cases p <;> simp [same]

theorem KeepsBut.trans {ps : List Part} {a b c : State} (h : KeepsBut ps a b) (g : KeepsBut ps b c) : KeepsBut ps a c := by
  intro p hp
  have x := h p hp
  have y := g p hp
  cases p <;> simp only [same] at x y ⊢ <;> first
    | exact y.trans x
    | (rw [← x, ← y])
    | exact ⟨by rw [← x.1, ← y.1], fun q o a b c => (y.2.1 q o a b c).trans (x.2.1 q o a b c), fun q => (y.2.2 q).trans (x.2.2 q)⟩

theorem KeepsBut.mono {ps qs : List Part} {a b : State} (h : KeepsBut ps a b) (g : ∀ p ∈ ps, p ∈ qs) : KeepsBut qs a b :=
  fun p hp => h p (fun x => hp (g p x))

theorem Kept.keeps {a b : State} (h : Kept a b) (ps : List Part) : KeepsBut ps a b := by
  intro p _
  cases p <;> simp only [same] <;> first
    | exact h.link | exact h.lock | exact h.snap | exact h.resp | exact h.boot | exact h.fixed | exact h.jtag | exact h.lic | exact h.sdh
    | exact h.pac | exact h.ftb | exact h.exp | exact h.bas | exact h.pcr | exact h.fab | exact h.mem | exact h.arc | exact h.pair
    | exact h.msh | exact h.hif | exact h.free | exact ⟨h.regs, h.live, h.en⟩ | (rw [h.tim])

theorem keeps_advance (ps : List Part) (t : Nat) (s : State) : KeepsBut ps s (advance t s) := by
  intro p _
  cases p <;> simp only [same] <;> first | (unfold advance; split <;> rfl) | simp

/-- What a command's wrapper restores changes no part of a live device. -/
theorem keeps_owned {ps : List Part} {s r : State} (h : KeepsBut ps s r) : KeepsBut ps s (owned s r) := by
  intro p hp
  have x := h p hp
  cases p <;> simp only [same] at x ⊢ <;> first | exact x | (simp only [owned, x, Bool.or_self])

theorem keeps_live {ps : List Part} {t : Nat} {s r : State} (h : KeepsBut ps (advance t s) r) : KeepsBut ps s (owned s r) :=
  keeps_owned ((keeps_advance ps t s).trans h)

/-! ## Registers -/

theorem RegsBut.refl (l : List (Nat × Nat)) (s : State) : RegsBut l s s := ⟨rfl, fun _ _ _ _ _ _ => rfl⟩

theorem RegsBut.trans {l : List (Nat × Nat)} {a b c : State} (h : RegsBut l a b) (g : RegsBut l b c) : RegsBut l a c :=
  ⟨g.1.trans h.1, fun q o x y z w => (g.2 q o x y z w).trans (h.2 q o x y z w)⟩

theorem KeepsBut.regsBut {ps : List Part} {a b : State} (h : KeepsBut ps a b) (hp : Part.regs ∉ ps) (l : List (Nat × Nat)) : RegsBut l a b := by
  have x := h .regs hp
  simp only [same] at x
  exact ⟨by rw [← x.1], fun q o _ y z w => x.2.1 q o y z w⟩

theorem Kept.regsBut {a b : State} (h : Kept a b) (l : List (Nat × Nat)) : RegsBut l a b := (h.keeps []).regsBut (by simp) l

theorem regsBut_wr {l : List (Nat × Nat)} (p off : Nat) (v : Word) (s : State) (h : (p, off) ∈ l) (ho : off < 65536) : RegsBut l s (wr p off v s) :=
  ⟨rfl, fun q o x _ _ w => rd_wr_other p q off o v s ho w (fun e => x (by rw [e.1, e.2]; exact h))⟩

theorem regsBut_of {l : List (Nat × Nat)} {a b : State} (h : b.regs = a.regs) : RegsBut l a b :=
  ⟨by rw [h], fun q o _ _ _ _ => by unfold rd; rw [h]⟩

theorem RegsBut.live {l : List (Nat × Nat)} {t : Nat} {s r : State} (h : RegsBut l (advance t s) r) : RegsBut l s (owned s r) :=
  ⟨h.1.trans (by simp), fun q o x y z w => (h.2 q o x y z w).trans (by simp)⟩

end Sys2Proof.Machine
end

