-- ==== Sys2Proof/Laws/Keeps.lean ====
section
/-! SUPPORT. The frame of each update: it leaves every part but its own. -/
namespace Sys2Proof.Machine

theorem keeps_setLatch {ps : List Part} (hp : Part.regs ∈ ps) (o k : Nat) (w : Word) (s : State) : KeepsBut ps s (setLatch o k w s) := by
  intro x hx; cases x <;> first | exact absurd hp hx | rfl
theorem keeps_setChm {ps : List Part} (hp : Part.regs ∈ ps) (k : Nat) (v : Word) (s : State) : KeepsBut ps s (setChm k v s) := by
  intro x hx; cases x <;> first | exact absurd hp hx | rfl
theorem keeps_wr {ps : List Part} (hp : Part.regs ∈ ps) (p off : Nat) (v : Word) (s : State) : KeepsBut ps s (wr p off v s) := by
  intro x hx; cases x <;> first | exact absurd hp hx | rfl
theorem keeps_wf {ps : List Part} (hp : Part.regs ∈ ps) (p off lo n v : Nat) (s : State) : KeepsBut ps s (wf p off lo n v s) := by
  intro x hx; cases x <;> first | exact absurd hp hx | rfl
theorem keeps_setBits {ps : List Part} (hp : Part.regs ∈ ps) (p off mask : Nat) (s : State) : KeepsBut ps s (setBits p off mask s) := by
  intro x hx; cases x <;> first | exact absurd hp hx | rfl
theorem keeps_bump {ps : List Part} (hp : Part.regs ∈ ps) (p off lo n k : Nat) (s : State) : KeepsBut ps s (bump p off lo n k s) := by
  intro x hx; cases x <;> first | exact absurd hp hx | rfl
theorem keeps_tput {ps : List Part} (hp : Part.regs ∈ ps) (tab idx w : Nat) (v : Word) (s : State) : KeepsBut ps s (tput tab idx w v s) := by
  intro x hx; cases x <;> first | exact absurd hp hx | rfl
theorem keeps_tfput {ps : List Part} (hp : Part.regs ∈ ps) (tab idx w lo n v : Nat) (s : State) : KeepsBut ps s (tfput tab idx w lo n v s) := by
  intro x hx; cases x <;> first | exact absurd hp hx | rfl
theorem keeps_setAdj {ps : List Part} (hp : Part.regs ∈ ps) (v : Int) (s : State) : KeepsBut ps s (setAdj v s) := by
  intro x hx; cases x <;> first | exact absurd hp hx | rfl
theorem keeps_setArc {ps : List Part} (hp : Part.arc ∈ ps) (f : Arc → Arc) (s : State) : KeepsBut ps s (setArc f s) := by
  intro x hx; cases x <;> first | exact absurd hp hx | rfl | exact ⟨rfl, fun _ _ _ _ _ => rfl, fun _ => rfl⟩
theorem keeps_setPt {ps : List Part} (hp : Part.arc ∈ ps) (p : Nat) (f : CapPt → CapPt) (s : State) : KeepsBut ps s (setPt p f s) := by
  intro x hx; cases x <;> first | exact absurd hp hx | rfl | exact ⟨rfl, fun _ _ _ _ _ => rfl, fun _ => rfl⟩
theorem keeps_setExt {ps : List Part} (hp : Part.arc ∈ ps) (i : Nat) (f : Extent → Extent) (s : State) : KeepsBut ps s (setExt i f s) := by
  intro x hx; cases x <;> first | exact absurd hp hx | rfl | exact ⟨rfl, fun _ _ _ _ _ => rfl, fun _ => rfl⟩
theorem keeps_setTarget {ps : List Part} (hp : Part.arc ∈ ps) (t : Nat) (f : Target → Target) (s : State) : KeepsBut ps s (setTarget t f s) := by
  intro x hx; cases x <;> first | exact absurd hp hx | rfl | exact ⟨rfl, fun _ _ _ _ _ => rfl, fun _ => rfl⟩
theorem keeps_setBas {ps : List Part} (hp : Part.bas ∈ ps) (f : Bas → Bas) (s : State) : KeepsBut ps s (setBas f s) := by
  intro x hx; cases x <;> first | exact absurd hp hx | rfl | exact ⟨rfl, fun _ _ _ _ _ => rfl, fun _ => rfl⟩
theorem keeps_setQ {ps : List Part} (hp : Part.bas ∈ ps) (q : Nat) (l : List QEnt) (s : State) : KeepsBut ps s (setQ q l s) := by
  intro x hx; cases x <;> first | exact absurd hp hx | rfl | exact ⟨rfl, fun _ _ _ _ _ => rfl, fun _ => rfl⟩
theorem keeps_setBoot {ps : List Part} (hp : Part.boot ∈ ps) (f : Boot → Boot) (s : State) : KeepsBut ps s (setBoot f s) := by
  intro x hx; cases x <;> first | exact absurd hp hx | rfl | exact ⟨rfl, fun _ _ _ _ _ => rfl, fun _ => rfl⟩
theorem keeps_setLink {ps : List Part} (hp : Part.link ∈ ps) (f : DieLink → DieLink) (s : State) : KeepsBut ps s (setLink f s) := by
  intro x hx; cases x <;> first | exact absurd hp hx | rfl | exact ⟨rfl, fun _ _ _ _ _ => rfl, fun _ => rfl⟩
theorem keeps_setExp {ps : List Part} (hp : Part.exp ∈ ps) (f : Exp → Exp) (s : State) : KeepsBut ps s (setExp f s) := by
  intro x hx; cases x <;> first | exact absurd hp hx | rfl | exact ⟨rfl, fun _ _ _ _ _ => rfl, fun _ => rfl⟩
theorem keeps_setStream {ps : List Part} (hp : Part.exp ∈ ps) (r : Nat) (f : Stream → Stream) (s : State) : KeepsBut ps s (setStream r f s) := by
  intro x hx; cases x <;> first | exact absurd hp hx | rfl | exact ⟨rfl, fun _ _ _ _ _ => rfl, fun _ => rfl⟩
theorem keeps_setUnit {ps : List Part} (hp : Part.exp ∈ ps) (u : Nat) (f : SealUnit → SealUnit) (s : State) : KeepsBut ps s (setUnit u f s) := by
  intro x hx; cases x <;> first | exact absurd hp hx | rfl | exact ⟨rfl, fun _ _ _ _ _ => rfl, fun _ => rfl⟩
theorem keeps_setKey {ps : List Part} (hp : Part.msh ∈ ps) (k : Nat) (x : KeySlot) (s : State) : KeepsBut ps s (setKey k x s) := by
  intro x hx; cases x <;> first | exact absurd hp hx | rfl | exact ⟨rfl, fun _ _ _ _ _ => rfl, fun _ => rfl⟩
theorem keeps_setPair {ps : List Part} (hp : Part.pair ∈ ps) (f : Pair → Pair) (s : State) : KeepsBut ps s (setPair f s) := by
  intro x hx; cases x <;> first | exact absurd hp hx | rfl | exact ⟨rfl, fun _ _ _ _ _ => rfl, fun _ => rfl⟩
theorem keeps_setCtx {ps : List Part} (hp : Part.fab ∈ ps) (c : Nat) (f : Ctx → Ctx) (s : State) : KeepsBut ps s (setCtx c f s) := by
  intro x hx; cases x <;> first | exact absurd hp hx | rfl | exact ⟨rfl, fun _ _ _ _ _ => rfl, fun _ => rfl⟩
theorem keeps_setFab {ps : List Part} (hp : Part.fab ∈ ps) (f : Fab → Fab) (s : State) : KeepsBut ps s (setFab f s) := by
  intro x hx; cases x <;> first | exact absurd hp hx | rfl | exact ⟨rfl, fun _ _ _ _ _ => rfl, fun _ => rfl⟩
theorem keeps_setFLane {ps : List Part} (hp : Part.fab ∈ ps) (n : Nat) (g : FabLane → FabLane) (s : State) : KeepsBut ps s (setFLane n g s) := by
  intro x hx; cases x <;> first | exact absurd hp hx | rfl | exact ⟨rfl, fun _ _ _ _ _ => rfl, fun _ => rfl⟩
theorem keeps_setFtb {ps : List Part} (hp : Part.ftb ∈ ps) (f : Ftb → Ftb) (s : State) : KeepsBut ps s (setFtb f s) := by
  intro x hx; cases x <;> first | exact absurd hp hx | rfl | exact ⟨rfl, fun _ _ _ _ _ => rfl, fun _ => rfl⟩
theorem keeps_setSlot {ps : List Part} (hp : Part.ftb ∈ ps) (i : Nat) (x : FtbSlot) (s : State) : KeepsBut ps s (setSlot i x s) := by
  intro x hx; cases x <;> first | exact absurd hp hx | rfl | exact ⟨rfl, fun _ _ _ _ _ => rfl, fun _ => rfl⟩
theorem keeps_setHif {ps : List Part} (hp : Part.hif ∈ ps) (f : Hif → Hif) (s : State) : KeepsBut ps s (setHif f s) := by
  intro x hx; cases x <;> first | exact absurd hp hx | rfl | exact ⟨rfl, fun _ _ _ _ _ => rfl, fun _ => rfl⟩
theorem keeps_setQp {ps : List Part} (hp : Part.hif ∈ ps) (u : Nat) (f : Qp → Qp) (s : State) : KeepsBut ps s (setQp u f s) := by
  intro x hx; cases x <;> first | exact absurd hp hx | rfl | exact ⟨rfl, fun _ _ _ _ _ => rfl, fun _ => rfl⟩
theorem keeps_setMbx {ps : List Part} (hp : Part.hif ∈ ps) (k : Nat) (f : Mbx → Mbx) (s : State) : KeepsBut ps s (setMbx k f s) := by
  intro x hx; cases x <;> first | exact absurd hp hx | rfl | exact ⟨rfl, fun _ _ _ _ _ => rfl, fun _ => rfl⟩
theorem keeps_setFn {ps : List Part} (hp : Part.hif ∈ ps) (f : Nat) (g : FnSt → FnSt) (s : State) : KeepsBut ps s (setFn f g s) := by
  intro x hx; cases x <;> first | exact absurd hp hx | rfl | exact ⟨rfl, fun _ _ _ _ _ => rfl, fun _ => rfl⟩
theorem keeps_setLock {ps : List Part} (hp : Part.lock ∈ ps) (f : Lock → Lock) (s : State) : KeepsBut ps s (setLock f s) := by
  intro x hx; cases x <;> first | exact absurd hp hx | rfl | exact ⟨rfl, fun _ _ _ _ _ => rfl, fun _ => rfl⟩
theorem keeps_setPort {ps : List Part} (hp : Part.lic ∈ ps) (c : Nat) (f : Port → Port) (s : State) : KeepsBut ps s (setPort c f s) := by
  intro x hx; cases x <;> first | exact absurd hp hx | rfl | exact ⟨rfl, fun _ _ _ _ _ => rfl, fun _ => rfl⟩
theorem keeps_setNl {ps : List Part} (hp : Part.lic ∈ ps) (n : Nat) (f : Lane → Lane) (s : State) : KeepsBut ps s (setNl n f s) := by
  intro x hx; cases x <;> first | exact absurd hp hx | rfl | exact ⟨rfl, fun _ _ _ _ _ => rfl, fun _ => rfl⟩
theorem keeps_setFl {ps : List Part} (hp : Part.lic ∈ ps) (n : Nat) (f : Lane → Lane) (s : State) : KeepsBut ps s (setFl n f s) := by
  intro x hx; cases x <;> first | exact absurd hp hx | rfl | exact ⟨rfl, fun _ _ _ _ _ => rfl, fun _ => rfl⟩
theorem keeps_setBl {ps : List Part} (hp : Part.lic ∈ ps) (n : Nat) (f : Lane → Lane) (s : State) : KeepsBut ps s (setBl n f s) := by
  intro x hx; cases x <;> first | exact absurd hp hx | rfl | exact ⟨rfl, fun _ _ _ _ _ => rfl, fun _ => rfl⟩
theorem keeps_setMem {ps : List Part} (hp : Part.mem ∈ ps) (f : Mem → Mem) (s : State) : KeepsBut ps s (setMem f s) := by
  intro x hx; cases x <;> first | exact absurd hp hx | rfl | exact ⟨rfl, fun _ _ _ _ _ => rfl, fun _ => rfl⟩
theorem keeps_setCtl {ps : List Part} (hp : Part.mem ∈ ps) (c : Nat) (f : MemCtl → MemCtl) (s : State) : KeepsBut ps s (setCtl c f s) := by
  intro x hx; cases x <;> first | exact absurd hp hx | rfl | exact ⟨rfl, fun _ _ _ _ _ => rfl, fun _ => rfl⟩
theorem keeps_setCell {ps : List Part} (hp : Part.mem ∈ ps) (i : Nat) (b : Bytes) (s : State) : KeepsBut ps s (setCell i b s) := by
  intro x hx; cases x <;> first | exact absurd hp hx | rfl | exact ⟨rfl, fun _ _ _ _ _ => rfl, fun _ => rfl⟩
theorem keeps_setMsh {ps : List Part} (hp : Part.msh ∈ ps) (f : Msh → Msh) (s : State) : KeepsBut ps s (setMsh f s) := by
  intro x hx; cases x <;> first | exact absurd hp hx | rfl | exact ⟨rfl, fun _ _ _ _ _ => rfl, fun _ => rfl⟩
theorem keeps_setCon {ps : List Part} (hp : Part.msh ∈ ps) (f : Console → Console) (s : State) : KeepsBut ps s (setCon f s) := by
  intro x hx; cases x <;> first | exact absurd hp hx | rfl | exact ⟨rfl, fun _ _ _ _ _ => rfl, fun _ => rfl⟩
theorem keeps_setHeat {ps : List Part} (hp : Part.msh ∈ ps) (f : Heat → Heat) (s : State) : KeepsBut ps s (setHeat f s) := by
  intro x hx; cases x <;> first | exact absurd hp hx | rfl | exact ⟨rfl, fun _ _ _ _ _ => rfl, fun _ => rfl⟩
theorem keeps_setBucket {ps : List Part} (hp : Part.pcr ∈ ps) (k : Nat) (b : Bucket) (s : State) : KeepsBut ps s (setBucket k b s) := by
  intro x hx; cases x <;> first | exact absurd hp hx | rfl | exact ⟨rfl, fun _ _ _ _ _ => rfl, fun _ => rfl⟩
theorem keeps_setTag {ps : List Part} (hp : Part.pcr ∈ ps) (k : Nat) (x : PTag) (s : State) : KeepsBut ps s (setTag k x s) := by
  intro x hx; cases x <;> first | exact absurd hp hx | rfl | exact ⟨rfl, fun _ _ _ _ _ => rfl, fun _ => rfl⟩
theorem keeps_setGate {ps : List Part} (hp : Part.pcr ∈ ps) (c : Nat) (f : GateCh → GateCh) (s : State) : KeepsBut ps s (setGate c f s) := by
  intro x hx; cases x <;> first | exact absurd hp hx | rfl | exact ⟨rfl, fun _ _ _ _ _ => rfl, fun _ => rfl⟩
theorem keeps_setPcr {ps : List Part} (hp : Part.pcr ∈ ps) (f : Pcr → Pcr) (s : State) : KeepsBut ps s (setPcr f s) := by
  intro x hx; cases x <;> first | exact absurd hp hx | rfl | exact ⟨rfl, fun _ _ _ _ _ => rfl, fun _ => rfl⟩
theorem keeps_setJtag {ps : List Part} (hp : Part.jtag ∈ ps) (f : Jtag → Jtag) (s : State) : KeepsBut ps s (setJtag f s) := by
  intro x hx; cases x <;> first | exact absurd hp hx | rfl | exact ⟨rfl, fun _ _ _ _ _ => rfl, fun _ => rfl⟩
theorem keeps_setCh {ps : List Part} (hp : Part.sdh ∈ ps) (c : Nat) (f : SdhCh → SdhCh) (s : State) : KeepsBut ps s (setCh c f s) := by
  intro x hx; cases x <;> first | exact absurd hp hx | rfl | exact ⟨rfl, fun _ _ _ _ _ => rfl, fun _ => rfl⟩
theorem keeps_setPath {ps : List Part} (hp : Part.sdh ∈ ps) (k : Nat) (f : SdhPath → SdhPath) (s : State) : KeepsBut ps s (setPath k f s) := by
  intro x hx; cases x <;> first | exact absurd hp hx | rfl | exact ⟨rfl, fun _ _ _ _ _ => rfl, fun _ => rfl⟩
theorem keeps_setTrib {ps : List Part} (hp : Part.sdh ∈ ps) (k : Nat) (f : Trib → Trib) (s : State) : KeepsBut ps s (setTrib k f s) := by
  intro x hx; cases x <;> first | exact absurd hp hx | rfl | exact ⟨rfl, fun _ _ _ _ _ => rfl, fun _ => rfl⟩
theorem keeps_setPw {ps : List Part} (hp : Part.sdh ∈ ps) (k : Nat) (f : Pw → Pw) (s : State) : KeepsBut ps s (setPw k f s) := by
  intro x hx; cases x <;> first | exact absurd hp hx | rfl | exact ⟨rfl, fun _ _ _ _ _ => rfl, fun _ => rfl⟩
theorem keeps_setEnt {ps : List Part} (hp : Part.sdh ∈ ps) (k : Nat) (f : PmEnt → PmEnt) (s : State) : KeepsBut ps s (setEnt k f s) := by
  intro x hx; cases x <;> first | exact absurd hp hx | rfl | exact ⟨rfl, fun _ _ _ _ _ => rfl, fun _ => rfl⟩

end Sys2Proof.Machine
end

