-- ==== Sys2Proof/Laws/Access.lean ====
section
/-! SUPPORT. A one-DW write that reaches a register, and what becomes of it by its access code. -/
namespace Sys2Proof.Machine

theorem Admitted.adv {o p : Nat} {s : State} (h : Admitted o p s) (t : Nat) : Admitted o p (advance t s) := by
  obtain ⟨a, b, c, d, i, j⟩ := h
  refine ⟨by simpa using a, b, by simpa using c, d, ?_, ?_⟩
  · unfold advance; split <;> exact i
  · unfold advance; split <;> exact j

theorem Reaches.adv {o p off : Nat} {s : State} (h : Reaches o p off s) (t : Nat) : Reaches o p off (advance t s) :=
  ⟨h.toAdmitted.adv t, h.ge, h.lt, h.sf⟩

theorem ReachesCtl.adv {o p : Nat} {s : State} (h : ReachesCtl o p s) (t : Nat) : ReachesCtl o p (advance t s) := by
  refine ⟨h.toAdmitted.adv t, h.sf, ?_⟩
  rw [← h.unfrozen]; unfold advance; split <;> rfl

theorem locOf_plain (o p off : Nat) (s : State) (h : isVf o = false) (hoff : off < 65536) :
    locOf o p off 0 s = { page := p, off := off, region := p, logPage := p, logOff := off, stat := [p] } := by
  have h1 : (p * 65536 + off + 4 * 0) / 65536 = p := by omega
  have h2 : (p * 65536 + off + 4 * 0) % 65536 = off := by omega
  simp only [locOf, h, h1, h2, Bool.false_eq_true, if_false]

/-- Only the console's page notes an access. -/
theorem conTouch_ne {p : Nat} (h : p ≠ pgCon) (o : Nat) (s : State) : conTouch p o s = s := by simp [conTouch, h]

/-- An access to the console's page notes its time for the holder's lease, and nothing else. -/
theorem conTouch_eq (p o : Nat) (s : State) :
    ∃ n, conTouch p o s = { s with msh := { s.msh with con := { s.msh.con with accessAt := n } } } := by
  unfold conTouch; split
  · exact ⟨_, rfl⟩
  · exact ⟨s.msh.con.accessAt, rfl⟩

/-- The write of a register that an access reaches is the register's own write, answered without error. -/
theorem write1_reg (o p off : Nat) (v : Word) (s : State) (h : Reaches o p off s) :
    write1 o p off v s = answer false [] (regWrite p off o v (conTouch p o s)).1 := by
  have hl := locOf_plain o p off s h.notVf (by have := h.lt; omega)
  have hsf : sfDw { page := p, off := off, region := p, logPage := p, logOff := off, stat := [p] } o s = sfReg p off := by
    have h1 := h.ge
    have h2 := h.lt
    simp [sfDw, h.page, Nat.not_lt.2 h1, h2]
  have hb : barred { page := p, off := off, region := p, logPage := p, logOff := off, stat := [p] }
      { page := p, off := off, region := p, logPage := p, logOff := off, stat := [p] } true o s = false := by
    have := h.jtag
    simp [barred] at this ⊢
    exact this
  have hd : ∀ sb, dwWrite p off o 15 sb v (conTouch p o s) = regWrite p off o v (conTouch p o s) := by
    intro sb
    obtain ⟨n, e⟩ := conTouch_eq p o s
    have h1 := h.ge
    have h2 := h.lt
    have h3 : pageLive p (conTouch p o s) = true := by rw [e]; exact h.page
    simp [dwWrite, h3, Nat.not_lt.2 h1, h2]
  have hs : (!isMarshal o && sfReg p off) = false := by
    rcases h.sf with e | e <;> simp [e]
  simp only [write1, request, List.range, List.range.loop, List.map, List.head?, hl, hb, hsf]
  simp only [List.any, id, Bool.or_false, Bool.true_and, hs, Bool.false_eq_true, if_false, if_true]
  simp [writeDws, hd, h.notVf]

/-- A gated write takes effect for an origin whose records are not held. -/
theorem gate_taken (p o : Nat) (f : State → State) (s : State) (h : heldOrigin (logPage p) o s = false) : gate p o f s = (f s, true) := by
  simp [gate, h]

/-- A W1 register of a page other than the lock engine's: the record, then what the write starts (R33, R53). -/
theorem regWrite_w1 (o p off : Nat) (v : Word) (s : State) (r : RegRow) (h : Reaches o p off s) (hr : regAt p off = some r)
    (ha : r.acc = .w1) (hp : p ≠ pgLock) (hn : regRefuses p off o v s = []) :
    (regWrite p off o v s).1 = wroteHook p off o 0 v (logWrite p off o 0 v (accepted p off o false s)) := by
  have hl : heldOrigin (logPage p) o s = false := by
    have : logPage p = p := by have := h.pageLt; simp [logPage]; omega
    rw [this]; exact h.log
  simp [regWrite, hr, ha, hn, hp, gate_taken _ _ _ _ hl]

/-- The record and the count of an accepted write change reporting alone. -/
theorem logged_kept (p off o : Nat) (old v : Word) (s : State) : Kept s (logWrite p off o old v (accepted p off o false s)) :=
  (accepted_kept _ _ _ _ s).trans (logWrite_kept _ _ _ _ _ _)

theorem answer_keeps (e : Bool) (d : List Word) (ps : List Part) (s : State) (h : Part.resp ∈ ps) : KeepsBut ps s (answer e d s) := by
  intro p hp; cases p <;> first | exact absurd h hp | rfl | exact ⟨rfl, fun _ _ _ _ _ => rfl, fun _ => rfl⟩

/-- The state in which a stored register's hook starts: the register holds its new value, and nothing else has changed but reporting
and the page's chamber and latches. -/
structure Stored (p off : Nat) (new : Word) (a b : State) : Prop where
  keeps : KeepsBut [.regs] a b
  regs : RegsBut [(p, off)] a b
  val : rd p off b = new
  now : b.tim = a.tim

theorem latchDrop_frame (k : Nat) (s : State) : KeepsBut [.regs] s (latchDrop k s) := by
  intro x hx; cases x <;> first | exact absurd (by decide) hx | rfl

theorem chamberMirror_frame (p off : Nat) (v : Word) (s : State) : KeepsBut [.regs] s (chamberMirror p off v s) := by
  unfold chamberMirror
  split
  · exact KeepsBut.refl _ s
  · intro x hx; cases x <;> first | exact absurd (by decide) hx | rfl

theorem chamberMirror_rd (p off q o : Nat) (v : Word) (s : State) : rd q o (chamberMirror p off v s) = rd q o s := by
  unfold chamberMirror; split <;> rfl
theorem chamberMirror_tbl (p off : Nat) (v : Word) (s : State) : (chamberMirror p off v s).regs.tbl = s.regs.tbl := by
  unfold chamberMirror; split <;> rfl
theorem chamberMirror_tim (p off : Nat) (v : Word) (s : State) : (chamberMirror p off v s).tim = s.tim := by
  unfold chamberMirror; split <;> rfl

/-- A register write of a page other than the log's. -/
theorem regStore_stored (p off o : Nat) (r : RegRow) (v : Word) (s : State) (hp : p ≠ pgLog) (hge : 0x100 ≤ off) (hlt : off < 65536) :
    ∃ b, Stored p off (regNext p off r (rd p off s) v s) s b ∧
      regStore p off o r v s = startHook p off o (if r.mask = 0 then 0 else shown p off s)
        (if r.mask = 0 || (p = pgCon && off = 0x100) then v else regNext p off r (rd p off s) v s) b := by
  have hp2 : p ≠ 2 := hp
  refine ⟨_, ⟨?_, ?_, ?_, ?_⟩, by simp only [regStore, hp, if_false]; rfl⟩
  · exact (((keeps_wr (by simp) p off _ s).trans (latchDrop_frame _ _)).trans (chamberMirror_frame _ _ _ _)).trans
      ((logged_kept _ _ _ _ _ _).keeps _)
  · refine RegsBut.trans ?_ ((logged_kept _ _ _ _ _ _).regsBut _)
    refine RegsBut.trans (regsBut_wr p off (regNext p off r (rd p off s) v s) s (by simp) hlt) ⟨?_, fun q x _ _ _ _ => ?_⟩
    · rw [chamberMirror_tbl]; rfl
    · rw [chamberMirror_rd]; rfl
  · rw [(logged_kept _ _ _ _ _ _).rd hp2 ⟨hge, hlt⟩, chamberMirror_rd]
    exact rd_wr_self _ _ _ _
  · rw [(logged_kept _ _ _ _ _ _).tim, chamberMirror_tim]; rfl

/-- A command that is one write of a W1 register of a page other than the lock engine's. -/
theorem writeCmd_w1 (t o p off : Nat) (v : Word) (s : State) (r : RegRow) (h : Reaches o p off s) (hr : regAt p off = some r)
    (ha : r.acc = .w1) (hp : p ≠ pgLock) (hc : p ≠ pgCon) (hn : regRefuses p off o v (advance t s) = []) :
    writeCmd t o p off v s = .next (owned s (answer false []
      (wroteHook p off o 0 v (logWrite p off o 0 v (accepted p off o false (advance t s)))))) := by
  have h' := h.adv t
  simp [writeCmd, onLive, h.live, write1_reg _ _ _ _ _ h', conTouch_ne hc, regWrite_w1 _ _ _ _ _ r h' hr ha hp hn]

/-- A command that is one write of an RW or SF register of a page other than the log's, outside a lock and not staged. -/
theorem writeCmd_rw (t o p off : Nat) (v : Word) (s : State) (r : RegRow) (h : Reaches o p off s) (hr : regAt p off = some r)
    (ha : r.acc = .rw) (hc : p ≠ pgCon) (hn : regRefuses p off o v (advance t s) = []) :
    writeCmd t o p off v s = .next (owned s (answer false [] (regStore p off o r v (advance t s)))) := by
  have h' := h.adv t
  have hl : heldOrigin (logPage p) o (advance t s) = false := by
    have : logPage p = p := by have := h.pageLt; simp [logPage]; omega
    rw [this]; exact h'.log
  simp [writeCmd, onLive, h.live, write1_reg _ _ _ _ _ h', conTouch_ne hc, regWrite, hr, ha, hn, gate_taken _ _ _ _ hl]

/-- A command that is one write of a W1 register, with what it finds when its effect starts. -/
theorem writeCmd_w1_at (t o p off : Nat) (v : Word) (s : State) (r : RegRow) (h : Reaches o p off s) (hr : regAt p off = some r)
    (ha : r.acc = .w1) (hp : p ≠ pgLock) (hc : p ≠ pgCon) (hn : regRefuses p off o v (advance t s) = []) :
    ∃ b, Kept (advance t s) b ∧ writeCmd t o p off v s = .next (owned s (answer false [] (wroteHook p off o 0 v b))) :=
  ⟨_, logged_kept p off o 0 v _, writeCmd_w1 t o p off v s r h hr ha hp hc hn⟩

/-- A command that is one write of an RW register of a page other than the log's, with what it finds when its effect starts. -/
theorem writeCmd_rw_at (t o p off : Nat) (v : Word) (s : State) (r : RegRow) (h : Reaches o p off s) (hr : regAt p off = some r)
    (ha : r.acc = .rw) (hp : p ≠ pgLog) (hc : p ≠ pgCon) (hn : regRefuses p off o v (advance t s) = []) :
    ∃ b, Stored p off (regNext p off r (rd p off s) v (advance t s)) (advance t s) b ∧
      writeCmd t o p off v s = .next (owned s (answer false [] (startHook p off o (if r.mask = 0 then 0 else shown p off (advance t s))
        (if r.mask = 0 || (p = pgCon && off = 0x100) then v else regNext p off r (rd p off s) v (advance t s)) b))) := by
  obtain ⟨b, hb, e⟩ := regStore_stored p off o r v (advance t s) hp h.ge (by have := h.lt; omega)
  simp only [rd_advance] at hb e
  exact ⟨b, hb, by rw [writeCmd_rw t o p off v s r h hr ha hc hn, e]⟩

end Sys2Proof.Machine
end

