-- ==== Sys2Proof/Laws/Lic.lean ====
section
/-! SUPPORT. Ports and lanes: reads after updates, and what a change of port state can do. -/
namespace Sys2Proof.Machine

@[simp] theorem port_setPort_self (c : Nat) (f : Port → Port) (s : State) : port c (setPort c f s) = f (port c s) := by
  simp [port, setPort]
theorem port_setPort_other (c d : Nat) (f : Port → Port) (s : State) (h : d ≠ c) : port d (setPort c f s) = port d s := by
  simp only [port, setPort]; exact look_put_other _ _ _ _ _ _ h
@[simp] theorem nlane_setNl_self (n : Nat) (f : Lane → Lane) (s : State) : nlane n (setNl n f s) = f (nlane n s) := by
  simp [nlane, setNl]
theorem nlane_setNl_other (n m : Nat) (f : Lane → Lane) (s : State) (h : m ≠ n) : nlane m (setNl n f s) = nlane m s := by
  simp only [nlane, setNl]; exact look_put_other _ _ _ _ _ _ h
@[simp] theorem flane_setFl_self (n : Nat) (f : Lane → Lane) (s : State) : flane n (setFl n f s) = f (flane n s) := by
  simp [flane, setFl]
@[simp] theorem blane_setBl_self (n : Nat) (f : Lane → Lane) (s : State) : blane n (setBl n f s) = f (blane n s) := by
  simp [blane, setBl]

/-- What reads the line interface alone reads the same in two states that hold the same. -/
theorem port_congr {a b : State} (h : b.lic = a.lic) (c : Nat) : port c b = port c a := by unfold port; rw [h]
theorem nlane_congr {a b : State} (h : b.lic = a.lic) (n : Nat) : nlane n b = nlane n a := by unfold nlane; rw [h]
theorem flane_congr {a b : State} (h : b.lic = a.lic) (n : Nat) : flane n b = flane n a := by unfold flane; rw [h]
theorem blane_congr {a b : State} (h : b.lic = a.lic) (n : Nat) : blane n b = blane n a := by unfold blane; rw [h]

@[simp] theorem port_advance (c t : Nat) (s : State) : port c (advance t s) = port c s := port_congr (by simp) c
@[simp] theorem nlane_advance (n t : Nat) (s : State) : nlane n (advance t s) = nlane n s := nlane_congr (by simp) n
@[simp] theorem flane_advance (n t : Nat) (s : State) : flane n (advance t s) = flane n s := flane_congr (by simp) n
@[simp] theorem blane_advance (n t : Nat) (s : State) : blane n (advance t s) = blane n s := blane_congr (by simp) n
@[simp] theorem port_owned (c : Nat) (s r : State) : port c (owned s r) = port c r := rfl
@[simp] theorem nlane_owned (n : Nat) (s r : State) : nlane n (owned s r) = nlane n r := rfl
@[simp] theorem flane_owned (n : Nat) (s r : State) : flane n (owned s r) = flane n r := rfl
@[simp] theorem blane_owned (n : Nat) (s r : State) : blane n (owned s r) = blane n r := rfl

/-- A notice of a port that was not up for traffic ends no frame: it counts, and changes no port. -/
theorem portNotice_quiet (c : Nat) (s : State) : (portNotice c false s).lic = s.lic ∧ KeepsBut [.regs] s (portNotice c false s) := by
  unfold portNotice
  simp only [Bool.false_and, Bool.false_eq_true, if_false]
  exact ⟨by simp, (keeps_bump (by simp) _ _ _ _ _ s).trans (((ev_kept _ _ _ _).trans (raise_kept _ _ _)).keeps _)⟩

/-- Verification changes its own port alone, and reports. -/
theorem verifyStart_keeps (c : Nat) (s : State) : KeepsBut [.lic] s (verifyStart c s) := by
  unfold verifyStart; simp only []
  split
  · exact keeps_setPort (by simp) _ _ s
  · split
    · exact (keeps_setPort (by simp) _ _ s).trans (keeps_setPort (by simp) _ _ _)
    · exact ((keeps_setPort (by simp) _ _ s).trans (keeps_setPort (by simp) _ _ _)).trans ((ev_kept _ _ _ _).keeps _)
theorem verifyIdle_keeps (c : Nat) (s : State) : KeepsBut [.lic] s (verifyIdle c s) := by
  unfold verifyIdle; exact keeps_setPort (by simp) _ _ s

/-- A port that is not up for traffic moves to a state: the state is taken, and nothing but the line interface and its counts changes. -/
theorem portGo_keeps (c : Nat) (st : PortState) (s : State) (h : chUp c s = false) : KeepsBut [.lic, .regs] s (portGo c st s) := by
  have key : ∀ x, KeepsBut [.lic] x (if st = .up then verifyStart c x else verifyIdle c x) := fun x => by
    split
    · exact verifyStart_keeps _ _
    · exact verifyIdle_keeps _ _
  unfold portGo
  rw [h]
  exact ((keeps_setPort (by simp) c (fun p => { p with st := st }) s).trans ((key _).mono (by simp))).trans
    ((portNotice_quiet c _).2.mono (by simp))

/-- The port's other fields after a move to a state other than UP. -/
theorem portGo_port (c : Nat) (st : PortState) (s : State) (h : chUp c s = false) (hs : st ≠ .up) :
    port c (portGo c st s) = { port c s with
      st := st, active := false, tries := 0, verify := 0 } := by
  unfold portGo
  simp only [h, hs, if_false]
  rw [port_congr (portNotice_quiet _ _).1]
  simp [verifyIdle]

/-- A fault signal is no frame. -/
theorem faultSignal_ne (c : Nat) (s : State) : faultSignal c s ≠ .frames := by
  unfold faultSignal; split <;> (try split) <;> simp

/-- A port that is not in UP is not up for traffic. -/
theorem chUp_of (c : Nat) (s : State) (h : (port c s).st ≠ .up) : chUp c s = false := by
  have key : portSends c s ≠ .frames := by
    unfold portSends
    split
    · simp
    · split
      · split <;> simp
      · split
        · simp
        · rename_i e; exact absurd e h
        · split <;> first | exact faultSignal_ne c s | simp
        · exact faultSignal_ne c s
  simp [chUp, key]

end Sys2Proof.Machine
end

