-- ==== Sys2Proof/Laws/Mem.lean ====
section
/-! SUPPORT. The HBM's contents: a read after a write, and that every operation keeps the canonical form. -/
namespace Sys2Proof.Machine

/-- A granule that is written reads as written. -/
@[simp] theorem cell_setCell_self (i : Nat) (b : Bytes) (s : State) : cell i (setCell i b s) = b := by
  simp [cell, setCell, setMem]

/-- Every other granule reads as before. -/
theorem cell_setCell_other (i j : Nat) (b : Bytes) (s : State) (h : j ≠ i) : cell j (setCell i b s) = cell j s := by
  simp [cell, setCell, setMem, look_put_other _ _ _ _ _ _ h]

/-- Dropping granules keeps the canonical form. -/
theorem filter_wf (d : Bytes) (f : Nat × Bytes → Bool) (m : Tab Bytes) (h : Tab.wf d m) : Tab.wf d (m.filter f) := by
  simp only [Tab.wf, Bool.and_eq_true, List.all_eq_true] at h ⊢
  refine ⟨?_, fun e he => h.2 e (List.mem_filter.1 he).1⟩
  have hr := h.1
  clear h
  induction m with
  | nil => rfl
  | cons e r ih =>
    obtain ⟨k, v⟩ := e
    have h2 := (rising_cons k v r).1 hr
    by_cases hf : f (k, v) = true
    · rw [List.filter_cons_of_pos hf, rising_cons]
      exact ⟨fun e he => h2.1 e (List.mem_filter.1 he).1, ih h2.2⟩
    · rw [List.filter_cons_of_neg hf]
      exact ih h2.2

/-- A write of a granule keeps the canonical form. -/
theorem setCell_memory_wf (i : Nat) (b : Bytes) (s : State) (h : Memory.wf s) : Memory.wf (setCell i b s) :=
  put_wf (zeros 64) s.mem.cells i b h

/-- The fill of training and the freeing of a unit, which drop granules, keep the canonical form. -/
theorem dropCells_memory_wf (f : Nat × Bytes → Bool) (s : State) (h : Memory.wf s) :
    Memory.wf (setMem (fun m => { m with cells := m.cells.filter f }) s) :=
  filter_wf (zeros 64) f s.mem.cells h

/-- Right after reset the HBM's contents are in canonical form. -/
theorem reset_memory_wf : Memory.wf State.reset = true := by decide

end Sys2Proof.Machine
end

