-- ==== Sys2Proof/Tests/Slice0.lean ====
section
/-! SUPPORT. The tests: values of the spec's own functions, ill-formed commands refused, and for every statement with hypotheses states and operands that meet them. -/
set_option Elab.async false
namespace Sys2Proof.Tests
open Sys2Proof Sys2Proof.Machine

/-! ## States that the tests share -/

/-- The time unit, changed. -/
def onTim (f : Tim → Tim) (s : State) : State := { s with tim := f s.tim }

/-- The device right after reset, its boot parts changed. -/
def onBoot (f : Boot → Boot) (s : State) : State := { s with boot := f s.boot }

/-- Held in reset. -/
def sHeld : State := { State.reset with boot := { State.reset.boot with inReset := true } }

/-- The row of a register. -/
def rowOf (p off : Nat) : RegRow := (regAt p off).getD (reg1 0 .ro)
/-! ## Time -/

/-- The servo in mode OFFSET with an input that waits. -/
def sServo : State := onTim (fun t => { t with pendOfs := some 4096 }) (wr pgTim 0x114 0x00401011 State.reset)
def sServoIn (st : ServoState) : State := onTim (fun t => { t with servo := st }) State.reset
def sRefPend : State := onTim (fun t => { t with refPending := some 2 }) State.reset
def sRefUp : State := onTim (fun t => { t with refStat := 7 }) State.reset
def sRclk : State := wr pgRef 0x10C 0x300000 (wr pgRef 0x108 0x300000 State.reset)
def sPpsIn : State := wr pgRef 0x11C 1 State.reset
def sPpsOut : State := wr pgRef 0x110 1 State.reset
def sPpsLast : State := onTim (fun t => { t with ppsIn := some 0 }) sPpsIn
def sPpsLocked : State := onTim (fun t => { t with servo := .locked }) sPpsIn
def sRun : State := onTim (fun t => { t with run := true, nextIssue := 1 }) State.reset
def sIssued : State := onTim (fun t => { t with issued := some ⟨1, 125000 * 65536, none⟩ }) sRun
/-- N-lane 0 with signal and lock, whose clock recovered-clock output B presents. -/
def sRclkOk : State := setNl 0 (fun _ => { powered := true, signal := true, cdr := true }) (onTim (fun t => { t with sqB := true }) sRclk)
def sTenOut : State := onTim (fun t => { t with servo := .holdover }) (wr pgRef 0x118 3 State.reset)
def sStep : State := onTim (fun t => { t with step := some 65536 }) sRun
def sPpsMode2 : State := wr pgTim 0x114 0x00401012 sPpsIn
/-! ## Ports and lanes -/

/-- Channel 4 enabled at 10 Gb/s, in a port state. -/
def sPort (f : Port → Port) : State := setPort 4 f (wr (licPage 4) 0x08 1 (wr (licPage 4) 0x100 2 State.reset))
def lit : Lane := { powered := true, signal := true, cdr := true, adapt := true }
def sAcquire : State := setNl 4 (fun _ => { powered := true }) (sPort (fun p => { p with st := .acquire }))
def sAnDue : State := wr (licPage 4) 0x100 0x101 (setNl 4 (fun _ => lit) (sPort (fun p => { p with st := .acquire })))
def sAlign : State := sPort (fun p => { p with st := .align })
def sAlignV (n : Nat) : State := wr (licPage 4) 0x108 (w32 n) sAlign
def sUp : State := sPort (fun p => { p with st := .up })
def sPaused : State := sPort (fun p => { p with st := .up, hold := [(0, 0), (7, 9)] })
def sVerify (n : Nat) : State := sPort (fun p => { p with st := .up, verify := 2, tries := n })
def sFl (st : Nat) : State := setFl 255 (fun _ => { lit with st := st }) State.reset
def sBl (st : Nat) : State := setBl 7 (fun _ => { lit with st := st }) State.reset
/-- A frame of 200 bytes of class B7 in transmission, with a PAUSE frame that waits behind it. -/
def bulkTx : TxF := { id := 0, cls := 15, done := 0, closed := false, len := 200, mbps := 10000 }
def onWire (f : Port → Port) : State :=
  newFrm { bytes := List.replicate 200 0 } (sPort (fun p => f { p with st := .up, active := true }))
def sBulkTx : State := onWire (fun p => { p with tx := some bulkTx, ctl := [[1]] })
def sCtl : State := onWire (fun p => { p with ctl := [[1, 2], [3]] })
/-- The frame was begun as preemptable, 2 µs ago. -/
def preTx : TxF := { bulkTx with start := .smdS 1, stamp := 0 }
def sBulkPre : State := onTim (fun t => { t with now := 20 * 2 ^ 32, up := 20 * 2 ^ 32 }) (onWire (fun p => { p with tx := some preTx, ctl := [[1]] }))
/-- Two express frames for channel 4 wait, the second of the lower class. -/
def xTo4 (cls order : Nat) : XFrame :=
  { src := 5, contract := 9, bank := 0, cls := cls, maxlen := 1500, mcast := false, copies := [{ dst := .chan 4, cut := false, committed := true, order := order }] }
def sExpTx : State := { newFrm { src := 5, bytes := List.replicate 100 1 } ({ onWire id with lic := { (onWire id).lic with nextFrame := 7 } }) with exp := { State.reset.exp with frames := [(0, xTo4 3 1), (7, xTo4 2 5)] } }
def sUpLit : State := setNl 4 (fun _ => lit) (sPort (fun p => { p with st := .up }))
def sSusp : State := onWire (fun p => { p with susp := some { bulkTx with done := 64, closed := true } })
/-! ## Registers, the lock, the log -/

def onLock (f : Lock → Lock) (s : State) : State := { s with lock := f s.lock }
def onRegs (f : Regs → Regs) (s : State) : State := { s with regs := f s.regs }
def onLog (f : Log → Log) (s : State) : State := { s with log := f s.log }
def onIrq (f : Irq → Irq) (s : State) : State := { s with irq := f s.irq }
/-- Page 0x160 enabled. -/
def sPageOn : State := wr 0x160 0x008 1 State.reset
def sRej : State := wr pgRef 0x130 5 State.reset
def sPosted : State := onRegs (fun r => { r with posted := [(pgTim, (0x110, 0x80000000, 0x00))] }) State.reset
def sSoftRst : State := wr 0x1FF 0x100 7 (wr 0x160 0x118 7 (onRegs (fun r => { r with softRst := [0x160] }) State.reset))
def sReady (p : Nat) : State := onBoot (fun b => { b with ready := [(p, 1)] }) State.reset
def sFill : State := onLock (fun l => { l with st := .fill }) State.reset
/-- A lock in FILL with page 0x160 and one staged word. -/
def sFillWord : State :=
  onRegs (fun r => { r with dirty := [rkey 0x160 0x114] }) (onTim (fun t => { t with run := true })
    (onLock (fun l => { l with st := .fill, members := [0x160] }) (setChm (rkey 0x160 0x114) 3 State.reset)))
def sLevel : State :=
  onBoot (fun b => { b with ready := [(0x160, 1)] }) (onLock (fun l => { l with st := .level, members := [0x160] }) State.reset)
def sLvlLate : State := onLock (fun l => { l with st := .level, levelEpochs := 2 }) State.reset
def sLockIn (st : LockState) : State := onLock (fun l => { l with st := st }) State.reset
def sBehind : State := onLock (fun l => { l with held := some ⟨[3], 0⟩, heldEpochs := 16 }) sFill
def sLogTwo : State := onLog (fun l => { l with wrSeq := 65537, rdSeq := 1 }) State.reset
def sLogDma : State := wr pgLog 0x128 8 (wr pgLog 0x100 1 State.reset)
def sPmFull : State := onRegs (fun r => { r with pm := [(0x160 * 8 + 7, 2 ^ 48 - 1)] }) (wr 0x160 0x4C 5 (wr 0x160 0x28 1 State.reset))
def sOvf : State := onRegs (fun r => { r with ovfPend := [0x1FF] }) (wr 0x1FF 0x28 0xB State.reset)
def sWaiting : State := onIrq (fun i => { i with waiting := [2047] }) State.reset
/-- A lock in READY whose epoch is the next, with no frame of an earlier generation. -/
def sRdy : State := onTim (fun t => { t with run := true, nextIssue := 1 }) (onLock (fun l => { l with st := .ready, members := [0x160] }) State.reset)
def sRdyBound : State :=
  onTim (fun t => { t with issued := some ⟨1, 125000 * 65536, none⟩ }) (onLock (fun l => { l with bound := some 1 }) sRdy)
/-- Page 0x001 asserts vector 5 of the PF. -/
def sIrqOn : State := tput tbIrqMap 1 0 5 (wr 0x001 0x18 0x100 (wr 0x001 0x1C 0x100 State.reset))
def sLicRdy (c : Nat) : State := wr (licPage c) 0x100 2 (sReady (licPage c))
def sMarReq : State :=
  wr 0x020 0x170 1 (onRegs (fun r => { r with dirty := [rkey 0x180 0x108] }) (onTim (fun t => { t with run := true }) State.reset))
/-! ## SDH -/

/-- SDH channel 0 enabled, with its first VC-4 terminated in VC-12s and tributary 0 in use. -/
def sSdh (f : SdhCh → SdhCh) : State :=
  setCh 0 f (tput tbTrib 0 0 7 (tput tbPath 0 0 5 (wr (sdhPage 0) 0x08 1 State.reset)))
/-- A frame time of an STM-1 with the framing pattern at byte 100, and the bit position at which it stands. -/
def patLine : Bytes := List.replicate 100 0 ++ [0xF6, 0xF6, 0xF6, 0x28, 0x28, 0x28] ++ List.replicate 2324 0
def patAt : Nat := 800
def sFrm (st e : Nat) : State := sSdh (fun x => { x with frame := st, cand := patAt, errs := e })
/-- Tributary 0 as a VC-12, a multiframe of whose TU-12 has come with pointer 0, and 105 bytes of its VC-12 before. -/
def sTu12 : State :=
  tput tbPw 0 0 3 (tput tbTrib 0 0 5 (setTrib 0 (fun x => { x with raw := 0x60 :: List.replicate 143 0, vc := { x.vc with buf := List.replicate 105 1 } })
    (setCh 0 (fun x => { x with lineAct := true }) (sSdh id))))
def sTu3 : State := setTrib 0 (fun x => { x with raw := List.replicate 3096 0 }) (tput tbPath 0 0 3 (sSdh id))
def vc12 : Bytes := List.replicate 105 1 ++ List.replicate 35 0
/-- Pseudowire 0 for tributary 0, packets of 32 bytes, playing. -/
def sPw (f : Pw → Pw) : State :=
  setPw 0 (fun x => f { x with rx := List.replicate 256 false }) (tput tbPw 0 1 0x03000020 (tput tbPw 0 0 7 (sSdh id)))
def sPlay : State := sPw (fun x => { x with st := 2, next := 65535, jb := [(65535, 7, List.replicate 32 1)] })
def sLopsNext : State := sPw (fun x => { x with st := 2, next := 9, missing := lopsEntry 0 (sPw id) - 1 })
def sGap : State := sPw (fun x => { x with st := 2, next := 65535 })
def sBins : State := setEnt 0 (fun x => { x with eb := 3 }) (sSdh id)
def sWait15 : State := let s := sSdh id; { s with sdh := { s.sdh with wait15 := true } }
/-- What closing the payload gives. -/
def pwClosed : Bytes × Nat × State := (pwClose 0 (advance 0 sGap)).getD ([], 0, State.reset)
/-! ## Pipelines and tables -/

def onPac (f : Pac → Pac) (s : State) : State := { s with pac := f s.pac }
def onFtb (f : Ftb → Ftb) (s : State) : State := { s with ftb := f s.ftb }
/-- Page 0x160 enabled and ready, one urgent frame of source 5 waiting. -/
def sPac : State :=
  onPac (fun p => { p with fifo := [(10, [9])] }) (onBoot (fun b => { b with ready := [(0x160, 1)] }) (wr 0x160 8 1 State.reset))
def sDrain : State := onPac (fun p => { p with heat := some 3, draining := true, inPipe := [⟨9, 5, 4⟩] }) State.reset
def goose : Bytes := List.replicate 12 1 ++ [0x88, 0xB8] ++ List.replicate 50 0
def sInPipe : State :=
  onPac (fun p => { p with inPipe := [⟨0, 5, 4⟩, ⟨7, 5, 5⟩] }) (newFrm { src := 5, bytes := goose } (wr 0x160 8 1 State.reset))
def sComp : State := onPac (fun p => { p with comps := [⟨5, true, 0, some 9, 0⟩] }) State.reset
def sHeldBulk : State := onPac (fun p => { p with held := [⟨5, false, 3, some 9, 0⟩] }) State.reset
def sScan : State := onPac (fun p => { p with scanNext := 131071 }) (wr 0x160 8 1 State.reset)
/-- A command in slot 127. -/
def slotD (tab op : Nat) (d : List Nat) : FtbSlot := { state := 1, desc := (op + tab * 256) :: d }
def sCmd (tab op : Nat) (d : List Nat) : State := setSlot 127 (slotD tab op d) State.reset
def sMac : State :=
  onFtb (fun f => { f with mac := [(0, ⟨1, 0x10, 5, false, true, false, 0⟩), (8, ⟨1, 0x11, 6, false, false, true, 0⟩)], ageNext := 8 }) State.reset
def sLearn : State := onFtb (fun f => { f with learnQ := [⟨3, true, 1, 0x10, 9, 1⟩] }) (wr 0x170 0x118 1 sMac)
def sWalk : State := onFtb (fun f => { f with walks := [(4, ⟨127, 0, 0⟩)] }) State.reset
def sDec : State :=
  onPac (fun p => { p with lookups := [0], dec := [(0, ⟨{}, some 8, {}, false, 0, 3, 1, none⟩)] }) (newFrm { src := 5, bytes := goose } State.reset)

/-- Completions of source 5 with the numbers 0, 3 and 2100; the reorder stage waits for number 0. -/
def sComps : State := onPac (fun p => { p with comps := [⟨5, true, 0, some 9, 0⟩, ⟨5, false, 3, some 8, 1⟩, ⟨5, false, 2100, some 7, 2⟩] }) State.reset
def sFlowAge : State :=
  onFtb (fun f => { f with flow := [(8, ⟨0, 1, [], [1, 2, 512, 0], true, false, 0⟩)], flowNext := 8 }) (wr 0x170 0x118 0x10001 State.reset)
def sRedir : State := onPac (fun p => { p with lookups := [0], dec := [(0, ⟨{}, some 8, { w0 := 3, w1 := 7 }, false, 0, 3, 1, none⟩)] }) (newFrm { src := 5, bytes := goose } State.reset)
/-! ## The express path -/

def onExp (f : Exp → Exp) (s : State) : State := { s with exp := f s.exp }
def xcopy : XCopy := { dst := .chan 3, cut := true }
def xframe : XFrame := { src := 5, contract := 0, bank := 0, cls := 0, maxlen := 1522, mcast := false, copies := [xcopy] }
/-- A frame of 64 bytes admitted to the express path. -/
def sXf (f : XFrame → XFrame) : State := onExp (fun e => { e with frames := [(0, f xframe)] }) (newFrm { src := 5, bytes := goose } State.reset)
def sBadX (bad : Bool) : State :=
  onExp (fun e => { e with frames := [(0, xframe)] }) (newFrm { src := 5, bytes := goose, bad := bad } State.reset)
def sOutX : State := onPac (fun p => { p with outX := [(0, 0)], dec := [(0, ⟨{}, some 0, {}, false, 0, 3, 1, none⟩)] })
  (newFrm { src := 5, bytes := goose } (wr pgExp 8 1 State.reset))
def sUnit (n : Nat) : State := onExp (fun e => { e with units := [(63, { st := n })] }) (sXf (fun x => { x with units := [63] }))
def aNode : Node := ⟨false, false, 0, 0x10, false, 0, 0, 0, 0, 0, 0, 0⟩
def sNode : State := onExp (fun e => { e with nodes := [(7, aNode)] }) State.reset
def sHist : State := onExp (fun e => { e with hist := [(63, { count := 9, max := 7, min := 2 })] }) State.reset
def sCopyBank : State := onExp (fun e => { e with copyBusy := true }) (tput tbMap 3 0 77 (tput tbAlw 2 1 9 State.reset))
def xdec : Decision := ⟨{}, some 0, {}, false, 0, 3, 1, none⟩
/-- Contract 0 in force for channel 3, with the allowance of its queue and a policer bucket. -/
def sContract : State :=
  tput tbAlw (alwIdx 0 24) 0 0xFFFFFFFF (tput tbAlw (alwIdx 0 24) 1 0xFFFFFFFF (tput tbCon 0 1 3 (tput tbCon 0 4 1522 (tput tbCon 0 0 1 sOutX))))
/-- Channel 3 is up, and contract 0 has its whole burst. -/
def sContractUp : State := onExp (fun e => { e with level := [(0, (scaled 2000, 0))] }) (setPort 3 (fun p => { p with st := .up }) sContract)
def xHeld : XFrame := { xframe with copies := [{ xcopy with wait := some (9, 2) }] }
/-- The old path of the frame's contract has a barge of it waiting. -/
def sHoldBusy : State := setFl 9 (fun l => { l with st := 4 }) { sXf (fun _ => xHeld) with fab := { State.reset.fab with lanes := [(9, { st := 2, link := 2, xq := [{ type := 1, con := 0 }] })] } }
/-! ## The basin and the pacer -/

def onBas (f : Bas → Bas) (s : State) : State := { s with bas := f s.bas }
def onPcr (f : Pcr → Pcr) (s : State) : State := { s with pcr := f s.pcr }
/-- A frame of the host of 64 bytes on its way to queue 5, with its berths. -/
def hostDesc (l : List Nat) : BDesc := { req := .host, dest := .queue 5, cls := 5, src := 288, berths := l }
def sBerth (bad : Bool) (l : List Nat) : State :=
  onBas (fun b => { b with desc := [(0, hostDesc l)], cycle := 7, used := l }) (newFrm { src := 288, bytes := goose, bad := bad }
    (wr pgBas 0x400 9 (wr pgBas 8 1 (tput tbBq 5 0 1 (tput tbWeir 0 1 9 State.reset)))))
def qent (id : Nat) : QEnt := { id := id, len := 64 }
def sQ (q : Nat) (l : List QEnt) : State :=
  onBas (fun b => { b with q := [(q, l)], frames := [(0, ⟨0, [3], 1, 5, 0, 64⟩)], used := [3] }) (newFrm { src := 5, bytes := goose } State.reset)
def sRel : State := onBas (fun b => { b with used := [3, 4], rel := [(3, 0)], poolUsed := [(0, 2)] }) State.reset
def sMover : State := onBas (fun b => { b with memReady := true, used := List.range 9 }) (wr pgBas 0x104 0 (wr pgBas 0x100 0x2001 State.reset))
def sMoving (cr : Nat) : State :=
  onBas (fun b => { b with
    memReady := true, moving := true, credit := cr
    frames := (List.range 13).map (fun i => (i, ⟨0, [i], 1, 5, 0, 1500⟩)) }) (wr pgBas 0x104 0 (sQ 5 ((List.range 13).map (fun i => { qent i with len := 1500 }))))
def sDeepQ : State := sQ 5 [{ qent 0 with deep := [7] }, qent 0]
def qEg : Nat := egressQ 0 0 7
def sGrant : State :=
  wr pgPcr 8 1 (tput tbNode 0 0 1 (tput tbNode 262144 0 1 (tput tbNode 524288 0 1 (tput tbNode 786432 0 1 (sQ qEg [qent 0])))))
def chain0 : Chain := ⟨qEg, 0, 0, 0, 0⟩
def sRet : State := onPcr (fun p => { p with ret := [(7, 9), (8, 1)], creditUsed := [(7, 30)] }) State.reset
/-- Channel 255 with a list of two openings in a cycle of 1000 ns. -/
def sGate (f : GateCh → GateCh) : State :=
  setGate 255 (fun g => f { g with en := true }) (wr pgGate 8 1 (wr pgGate (0x1004 + 16 * 255) 1000 (wr pgGate (0x100C + 16 * 255) 2
    (tput tbGcl (gclIdx 255 0 0) 0 3 (tput tbGcl (gclIdx 255 0 0) 1 400 (tput tbGcl (gclIdx 255 0 1) 1 600 State.reset))))))
/-- PAUSE on channel 255 with XOFF 256 bytes. -/
def sPfc (n : Nat) : State :=
  onBas (fun b => { b with frames := [(0, ⟨0, [3], 1, 255, 0, n⟩)] }) (wr 0x1A6 (0x1000 + 4 * 255) 0x3FF (wr 0x1A6 0x200 1 (wr 0x1A6 8 1 State.reset)))
/-- The host's pool holds its minimum and its maximum. -/
def sBerthFull : State := onBas (fun b => { b with poolUsed := [(0, 9)] }) (wr pgBas 0x500 9 (sBerth false []))
/-- Every bank has granted in this cycle. -/
def sBerthNone : State := onBas (fun b => { b with cycle := 0, banks := List.range 64 }) (sBerth false [])
def sRelDeep : State := onBas (fun b => { b with deepUsed := [7, 9], relDeep := [(7, 0)], poolDeep := [(0, 2)] }) State.reset
def sWeirDrop : State := onBas (fun b => { b with q := [(5, [{ id := 3, len := 600 }])] }) (sBerth false [3])
/-- The cycle has no network grant left. -/
def sSpent : State := onPcr (fun p => { p with cycle := 0, granted := upto 1 24 }) State.reset
/-- Channel 255 paused since uptime 0, with XON 256 bytes and a refresh time. -/
def sPaus (n r3 : Nat) : State := onPcr (fun p => { p with off := [(2040, 0)] }) (wr 0x1A6 0x204 1 (wr 0x1A6 0x208 0x90005 (wr 0x1A6 0x20C (w32 r3) (sPfc n))))
/-! ## The fabric -/

def onFab (f : Fab → Fab) (s : State) : State := { s with fab := f s.fab }
def sFab : State := wr pgFab 8 1 State.reset
/-- Lane 3 with the given state and address 9 of this device. -/
def sLane (l : FabLane) : State := onFab (fun f => { f with lanes := [(3, l)], addr := some 9 }) sFab
def barIdle : Bytes := barEncode { type := 0 } 15 0
def bulkBar (n : Nat) : Barge := { type := 1, dest := 9, src := 8, sof := true, eof := true, seq := n, pay := [1, 2, 3] }
def bulkBytes (n : Nat) : Bytes := barEncode (bulkBar n) 15 0
def xBar : Barge := { type := 2, dest := 8, src := 9, sof := true, eof := false, fid := 7, pay := goose }
def ctlBar : Barge := { type := 9, src := 9, pay := zeros 32 }
def creditL : Tab Nat := [(0, 100), (1, 100), (2, 5), (3, 6)]
def lnX : FabLane := { st := 2, xq := [xBar], ctl := [ctlBar], credit := creditL, freed := [(4, 5)] }
def lnC : FabLane := { st := 2, ctl := [ctlBar], credit := creditL }
/-- Device 8 is reached over link 3 in one hop. -/
def sRoute : State := tput tbRt 8 0 1 (tput tbRt 8 4 (w32 (3 + 256 + 1024 + 32768)) (sLane { st := 2, link := 3, addr := some 8, credit := creditL }))
def sOpenX (s : State) : State := onFab (fun f => { f with lanes := [(3, { st := 2, openX := some (0, 0) })] }) s
def xCopy : XCopy := { dst := .chan 5, cut := true }
def xFrm : XFrame := { src := srcFab, contract := 4096, bank := 0, cls := 5, maxlen := 1500, mcast := false, copies := [xCopy], fab := true }
def frmX : State :=
  { newFrm { src := srcFab, bytes := goose } sFab with exp := { State.reset.exp with frames := [(0, xFrm)] } }
def sOpenT (live : Bool) : State :=
  onFab (fun f => { f with lanes := [(255, { st := 2, openT := some (0, 0, 4095) })] }) (if live then newFrm { src := srcFab, bytes := goose } sFab else sFab)
def sFabGap : State := onFab (fun f => { f with ctx := [(512, { next := 65535, timer := some 0 })] }) sFab
def sNoPath : State := tput tbFPort 300 0 (w32 (1 + 2 * 8)) (onFab (fun f => { f with noPath := [(8, 0)] }) sFab)
/-- The rest of a frame, and its bytes. -/
def midBytes (eof : Bool) (n : Nat) : Bytes := barEncode { bulkBar n with sof := false, eof := eof } 15 0
/-- Frame 0 is in progress in context 512. -/
def sMid (live : Bool) : State :=
  onFab (fun f => { f with lanes := [(3, { st := 2 })], addr := some 9, ctx := [(512, { next := 65535, cur := some 0 })] })
    (if live then newFrm { src := srcFab, bytes := goose } sFab else sFab)
/-- A lane with credit and what waits on it. -/
def lnB : FabLane := { st := 2, bulk := [bulkBar 1], tree := [{ bulkBar 2 with type := 3 }], credit := (List.range 7).map (fun p => (p, 100)) }
def lnT : FabLane := { lnB with treeTurn := true }
def sentAt (n : Nat) (s : State) : State := onFab (fun f => { f with sent := [(9, n), (10, n), (11, n)] }) s
/-! ## The HBM controllers -/

def onMem (c : Nat) (x : MemCtl) (s : State) : State :=
  { s with mem := { s.mem with ctl := [(c, x)], cells := [(12 * 32, [1]), (12 * 32 + 32, [2])] } }
def memRd : MemRead := { req := 1, lu := 1, first := 30, n := 2, at_ := 0, order := 0 }
def memWrt : MemWrite := { req := 1, lu := 1, first := 30, data := [zeros 64, goose], at_ := 0, order := 0 }
/-- Controller 0 in the given state, enabled, its queues given. -/
def sMem (x : MemCtl) : State := wr (memPage 0) 8 1 (onMem 0 x State.reset)
def memDone : MemRead := { memRd with issued := true, data := [(30, [3]), (31, goose)], fwd := [30] }
/-- Unit 12: local unit 1 of controller 0. -/
def adr12 : Nat := 12 * 2048 + 30 * 64
/-- Poison, and a frame of queue 5 read from the deep berth of unit 12. -/
def sPoison : State :=
  { wr pgMem 0x100 1 (sMem { st := 3, reads := [(5, memDone)] }) with bas := { State.reset.bas with deepUsed := [12], q := [(5, [{ id := 3, len := 64, deep := [12], read := true }, { id := 4, len := 64 }])] } }
/-! ## The archive -/

def onArc (f : Arc → Arc) (s : State) : State := { s with arc := f s.arc }
def allReady (s : State) : State := { s with mem := { s.mem with ctl := (List.range 12).map (fun c => (c, { st := 3 })) } }
def sArc : State := wr pgArc 8 1 (allReady State.reset)
def fillE : Extent := { st := 1, ext := 7, used := 96, first := 3, last := 4, records := 1, marks := [⟨3, 5, 4⟩] }
def sExt (f : Extent → Extent) : State := onArc (fun a => { a with slots := [(9, f fillE)], order := 1 }) sArc
def recB : Bytes := capRecord 5 0 0 true (zeros 16) { stamp := 0, bytes := zeros 16, len := 16 }
def capDesc : BDesc := { req := .capture, dest := .drop, cls := 0, berths := [3] }
def sRec (f : Extent → Extent) (n : Nat) : State :=
  onArc (fun a => { a with epochs := [(0, n)] }) (onBas (fun b => { b with desc := [(0, capDesc)], used := [3] }) (newFrm { bytes := recB } (sExt f)))
/-- Slot 9 in the given extent; target 63 enabled and UP, its port a queue of the destination map. -/
def sSend (e : Extent) : State :=
  tput tbTgt 63 0 (w32 (1 + 16 + 8 * 256)) (tput tbTgt 63 1 (w32 (42 + 14 * 256)) (tput tbDst 8 0 (w32 (1 + 4 * 4))
    (onArc (fun a => { a with slots := [(9, e)], targets := [(63, { st := 2 })] }) sArc)))
def sentE : Extent := { fillE with st := 3, target := 63, attempt := 1, todo := [0, 2] }
/-- A reply of a type with 8 bytes after its header, in a UDP datagram. -/
def atpReplyFrame (ty why : Nat) (more : Bytes) : Bytes :=
  let m := splice (atpHeader ty 63 7 1 1 0 0 State.reset) 22 (toBE 2 why) ++ more
  zeros 12 ++ [0x08, 0x00, 0x45, 0] ++ toBE 2 (28 + m.length) ++ [0, 0, 0, 0, 64, 17, 0, 0, 1, 2, 3, 4, 5, 6, 7, 8, 0, 9, 0, 9] ++ toBE 2 (8 + m.length) ++
    [0, 0] ++ m ++ zeros 4
def sReplyE (ty why : Nat) (e : Extent) (more : Bytes) : State :=
  setQ (puntQ 0) [{ id := 0, len := 100 }] (newFrm { bytes := atpReplyFrame ty why more } (sSend e))
def sReply (ty st : Nat) (more : Bytes) : State := sReplyE ty 0 { sentE with st := st } more
def sRefused (why st : Nat) : State := sReplyE 0x83 why { sentE with st := st } []
def atpMsg (s : State) : Bytes := ((atpTake s).getD ([], s)).1
def atpAft (s : State) : State := ((atpTake s).getD ([], s)).2
def rplRec : Bytes := capRecord 5 0 0 true goose { stamp := 0, cls := some 7, bytes := goose, len := 64 }
def rpl0 : Replay := ⟨9, 5, 255, 64, 0⟩
def sRpl (e : Extent) : State :=
  wr pgArc 0x140 9 (wr pgArc 0x164 1000 (onArc (fun a => { a with rpl := some rpl0 }) (hbmWrite (slotBase 9 State.reset + 64) rplRec (sExt (fun _ => e)))))
def sLate : State := sReplyE 0x83 2 { sentE with st := 4, sends := 15 } []
/-- A reply for an extent that is not here. -/
def sNoExt : State := sReplyE 0x81 0 { sentE with ext := 8 } []
def sFull (n : Nat) : State :=
  onArc (fun a => { a with slots := (List.range 256).map (fun i => (i, { fillE with st := n })) }) (sRec id 2)
/-- A lookup under way over the seconds before 9. -/
def sLook : State := wr pgArc 0x13C 2000000 (onArc (fun a => { a with retBusy := true, marks := [(7, [⟨3, 5, 4⟩])] }) (wr pgArc 0x148 512 (idxWrite 9 1 (sExt id))))
/-! ## Paired operation -/

def onPair (f : Pair → Pair) (s : State) : State := { s with pair := f s.pair }
/-- Baton lanes 0 and 7 UP, epoch 9 in force, the given pair logic. -/
def sPair (f : Pair → Pair) : State :=
  onPair f (onTim (fun x => { x with inForce := some 9 })
    { State.reset with lic := { State.reset.lic with bl := [(0, { st := 3 }), (7, { st := 3 })] } })
def ackTally : Bytes := tally 3 7 false 9 0 (toBE 8 5)
def recE : EpochRec := [(1, [[0, 7, 3]])]
def sSyncIn (n : Nat) : State :=
  sPair (fun p => { p with role := .sync, copyDone := [0, 1, 2, 3, 4, 5], okRecs := n, syncS := 4, info := { p.info with oldest := 5 } })
def tl (ty : Nat) (pay : Bytes) : Bytes := tally ty 7 false 9 0 pay
/-- A tally whose header check is right and whose payload check is not. -/
def badTally (b : Bytes) : Bytes := b.set (b.length - 1) (b.getD (b.length - 1) 0 + 1)
def sOn (r : Role) : State := sPair (fun p => { p with role := r })
def sRecIn (r : Role) (f : Pair → Pair) : State := sPair (fun p => f { p with role := r, rx := [(7, { whole := some recE })], applied := [(7, recHead recE 2)] })
def dueAt : Nat := 8000 * 2 ^ 16
def helloIn : Bytes := helloPairPay (sPair (fun p => { p with role := .link }))
/-- Five microseconds before the end of the epoch. -/
def sNear : State := onTim (fun x => { x with now := 1245000 * 2 ^ 32 }) (sOn .standby)
def copyAll : Pair → Pair := fun p => { p with copyDone := [0, 1, 2, 3, 4, 5] }
def recBody : EpochRec := []
def recBack : EpochRec := (decodeRec (recBytes 8 3 recBody State.reset)).getD []
/-! ## The marshal and the safety partition -/

def onMsh (f : Msh → Msh) (s : State) : State := { s with msh := f s.msh }
def key16 : List Nat := List.range 16
def authKey : KeySlot := { valid := true, key := key16, uses := 4, loads := 2, lastCounter := 8 }
/-- KEY_ERASE of slot 255 under slot 7, counter 9. -/
def eraseBody : Bytes :=
  toBE 4 0x54500101 ++ zeros 8 ++ zeros 8 ++ toBE 8 9 ++ [7, 0] ++ toBE 2 72 ++ zeros 8 ++ toBE 2 1 ++ zeros 6 ++ [5, 0, 0, 8, 255, 0, 0, 0]
def eraseCmd : MshCmd := ⟨1, eraseBody ++ toBE 16 (gmac key16 9 (natsOf eraseBody)), 0⟩
def sMsh (c : MshCmd) : State :=
  onBoot (fun b => { b with ordersEnded := true }) (onMsh (fun m => { m with queue := [c], st := 1, keys := [(7, authKey), (255, authKey)] }) State.reset)
def sErase : State := sMsh eraseCmd
def sPet (f : Msh → Msh) : State :=
  onMsh f (tput tbPet 5 3 9 (wr pgPet 0x104 8 (onMsh (fun m => { m with petOwner := some 0x40, st := 1 }) State.reset)))
/-- A towpath message in a frame of 64 bytes, to the address zero of reset. -/
def tpBytes : Bytes :=
  let d := zeros 6 ++ zeros 6 ++ toBE 2 0x88B5 ++ toBE 4 0x54500101 ++ zeros 42
  d ++ fcsOf d
def tpB : State := wr pgTp 0x108 0 (wr pgTp 0x104 0 (wr pgTp 0x100 (w32 (6 + 65536)) State.reset))
def sOrders (mute : Nat) : State :=
  onPair (fun p => { p with mute := mute }) (onBoot (fun b => { b with recovery := true }) State.reset)
def conKey : KeySlot := { valid := true, key := key16, uses := 48, ivFixed := 5, ivCtr := 6 }
/-- The console with an operation over 4 bytes of data and 3 of text, under slot 3. -/
def sCon (op : Nat) : State :=
  tput tbConI 0 1 0x0B0C0D (tput tbConI 0 0 0x01020304 (wr pgCon 0x104 (w32 (op + 12)) (wr pgCon 0x108 4 (wr pgCon 0x10C 3
    (onMsh (fun m => { m with keys := [(3, conKey)], con := { m.con with owner := some 0x40 } }) State.reset)))))
def sConJob : State :=
  onMsh (fun m => { m with con := { m.con with busy := true, owner := some 0x40, job := some (0, [1], some (2 ^ 128 - 1), some (2 ^ 96 - 2)) } }) State.reset
def sConOwned (o : Nat) : State := wr pgCon 0x13C 5 (tput tbConI 7 1 5 (onMsh (fun m => { m with con := { m.con with owner := some o, output := [1] } }) State.reset))
def sHeat (drain : Bool) : State :=
  { onMsh (fun m => { m with heat := { m.heat with cur := some 3 } }) State.reset with pac := { State.reset.pac with draining := drain } }
def sRetired : State := { State.reset with pac := { State.reset.pac with retired := [3] } }
/-- The command with another word. -/
def cmdWith (f : Bytes → Bytes) (src : Nat) : MshCmd := ⟨src, f eraseCmd.bytes, 7⟩
def signed (b : Bytes) : Bytes := b ++ toBE 16 (gmac key16 (beAt b 20 8) (natsOf b))
/-- KEY_ERASE of slot 0, with a right tag. -/
def badErase : MshCmd := ⟨1, signed (eraseBody.set (eraseBody.length - 4) 0), 0⟩
def lastOf (m : Bytes) : MshLast := { counter := beAt m 20 8, tag := beAt m (m.length - 16) 16, response := [7] }
def sPetAt (n : Nat) : State := sPet (fun m => { m with petSt := n })
def goodFrame (n : Nat) : Bytes :=
  let d := toBE 6 (tpMac tpB) ++ zeros 6 ++ toBE 2 0x88B5 ++ toBE 4 0x54500101 ++ zeros n
  d ++ fcsOf d
def sConBusy : State := onMsh (fun m => { m with con := { m.con with busy := true } }) (sCon 0)
def sConKey (f : KeySlot → KeySlot) (op : Nat) : State := onMsh (fun m => { m with keys := [(3, f conKey)] }) (sCon op)
def sConTag (op : Nat) : State :=
  wr pgCon 0x110 0 (let t := gcmTag key16 (conIv (sCon op)) (natsOf (tblBytes tbConI 7 (sCon op))) []
    wr pgCon 0x130 (w32 (t / 2 ^ 96)) (wr pgCon 0x134 (w32 (t / 2 ^ 64 % 2 ^ 32)) (wr pgCon 0x138 (w32 (t / 2 ^ 32 % 2 ^ 32)) (wr pgCon 0x13C (w32 (t % 2 ^ 32)) (sCon op)))))
def sHeatAt (drain : Bool) (n : Nat) : State := onMsh (fun m => { m with heat := { m.heat with startAt := n } }) (sHeat drain)
def sCore (st : Nat) : State := onMsh (fun m => { m with petOwner := some 0x43, petSt := st, queue := [⟨0, [], 0⟩, ⟨1, [], 0⟩] }) (sConOwned 0x43)
/-! ## The host interface -/

def onHif (f : Hif → Hif) (s : State) : State := { s with hif := f s.hif }
/-- VF 63 enabled, the link up, pair 511 of VF 63 with 16 descriptors a side. -/
def sHif (f : Qp → Qp) : State :=
  onHif (fun h => { h with active := true, numVfs := 63, vfEnable := true, qp := [(511, f {})] }) (tput tbQp 511 0 0x443 (wr pgHif 8 1 State.reset))
def descRx (len : Nat) : List Word := [0x1000, 1, w32 len, 0]
def sRx : State :=
  { setQ (puntQ 511) [qent 0] (newFrm { src := 5, bytes := goose } (sHif (fun q => { q with rxHead := 15, rxTail := 3 }))) with pair := State.reset.pair }
def rxId : Nat := ((dequeue (puntQ 511) sRx).getD (0, qent 0, sRx)).1
def rxEnt : QEnt := ((dequeue (puntQ 511) sRx).getD (0, qent 0, sRx)).2.1
def rxAft : State := ((dequeue (puntQ 511) sRx).getD (0, qent 0, sRx)).2.2
def sTx : State :=
  tput tbBq 262143 0 1 (tput tbFn 63 0 3 (tput tbFn 63 1 262143 (tput tbFn 63 2 1 (sHif (fun q => { q with txHead := 15, txTail := 0 })))))
def descTx (w2 : Nat) : List Word := [0x1000, 1, w32 w2, 262143]
def sMbx (k : Nat) (x : Mbx) : State := onHif (fun h => { h with mbx := [(8 * 63 + k, x)] }) (tput tbMbx (8 * 63 + k) 63 7 (wr 0x01A 0x100 63 State.reset))
def sDirty : State := onHif (fun h => { h with cache := [⟨63, 8, 1⟩, ⟨2, 16, 3⟩] }) State.reset
/-- A pair of the PF, 0, with 16 transmit descriptors and one to fetch. -/
def sTx0 : State :=
  onHif (fun h => { h with active := true, qp := [(0, { txHead := 15, txTail := 0 })] }) (tput tbQp 0 0 0x443 (wr pgHif 8 1 State.reset))
/-- The source FIFO of bulk frames of the host is full. -/
def sTxFull : State := onPac (fun p => { p with fifo := [(576, List.replicate 4 9), (577, List.replicate 16 9)] }) sTx0
def sTxErr : State := sHif (fun q => { q with txHead := 15, txTail := 0 })
def sPend (l : Option Nat) : State := sHif (fun q => { q with pend := true, lastMsg := l })
/-- VF 63 with its view enabled. -/
def sView (k : Nat) (x : Mbx) : State := tput tbFn 63 0 1 (onHif (fun h => { h with numVfs := 63, vfEnable := true }) (sMbx k x))
def descRx0 : List Word := descRx 65
/-! ## Reset, boot, fuses, firmware, JTAG, the die-to-die link -/

def onFixed (f : Fixed → Fixed) (s : State) : State := { s with fixed := f s.fixed }
def onJtag (f : Jtag → Jtag) (s : State) : State := { s with jtag := f s.jtag }
def onLink (f : DieLink → DieLink) (s : State) : State := { s with link := f s.link }
def sSelf : State := onBoot (fun b => { b with inReset := true, selfHold := true, cause := 3 }) State.reset
/-- Fuse sensing still to come, on a part whose lifecycle word reads `n`. -/
def sSense (n m : Nat) : State :=
  onFixed (fun f => { f with fuse := [(0, w32 n), (1, w32 n), (2, w32 n), (165, w32 m), (166, w32 m), (167, w32 m)] }) (onBoot (fun b => { b with sensed := false }) State.reset)
/-- A part in production whose JTAG is locked. -/
def sLocked : State := onBoot (fun b => { b with resolved := [(0, 0xFFFF), (55, 1)], sensed := true }) State.reset
/-- Bank B runs, with one start-up record left. -/
def sBank (r : StartRec) : State :=
  onBoot (fun b => { b with active := some 1, startup := [⟨0, 0, 2, 0⟩, r], startIdx := 1 }) State.reset
def recW (p : Nat) : StartRec := ⟨p, 0x104, 0, 0x0A0A0A0A⟩
def sFlash (op a : Nat) : State :=
  tput tbFlash 0 63 7 (onFixed (fun f => { f with flash := [(5, 1), (0x1FF00, 3), (0x1FFFF, 2), (0x20005, 9), (0x2FFFF, 8), (0x30000, 4)] })
    (onBoot (fun b => { b with active := some 1, flashBusy := true, flashOp := op, flashAddr := a }) State.reset))
def sBurn : State := onBoot (fun b => { b with fuseBusy := true, fuseReq := 0x102, secVer := 3 }) State.reset
def sBlankFuse : State := onFixed (fun f => { f with fuse := [] }) State.reset
def sStuck (n : Nat) : State := onLink (fun l => { l with uncorr := [(63, n), (127, n)] }) State.reset
def sReplay : State :=
  onLink (fun l => { l with awaiting := [(dieKey 1 .chM, [[.message .logEntry 5]])], replayBuf := [(dieKey 1 .chM, [[.message .status 1], [.message .logEntry 5]])] }) State.reset
/-- A signed manifest of three images, a configuration of one record, and the hash of the key that signed it. -/
def bankMan : Bytes := toBE 496 0x4E4D46310001000300000040000001F0000002030002000F0000FFFF000000040000000900010007000000000000000000000000000000000000000000000000000100010000000100001000000000010000FFFF000000000000000000000000742778AD96C7C733145A22879994E03573FCDA2447A3F806EA0836BDDBC77FBBEE2591C2888EFDA42F99369221492C3D000200010000000100002000000000010000FFFF000000000000000000000000036FAB2EE4B04A087C8C58FCDDBC1123C9FE5B55B2B73023CE3F1F7E638E759E9909B1F47101D368277737BA633E2E730003000100000001000030000000001C0000FFFF00000000000000000000000057934187AB147D296C9D939A94D7790F4AEA79EEA536072ACA253C02CEA79680B8A862C65469DA36B7443D651CE29BA77AE9E1DB1160794C70C1EF071BE5191F6C66240F4608FBE8A44ECD36C3ED5DB97500F2E4D84E3FB45850FD6F4303302BD8AC21444CD80D241538D8034B399A0DEE3636EB5CB00B9499D061A571DB0F14BB47ED79453948ED63F3A6CCBBF6E74F8568A35A879B0D506132993C6D911D3136A731409AB8C5D26FD7A01E81425281453A6C6ADF4CD2F38C77A5042815EA48584ED12FA0B698E20B5155DC85EA26A5494C8553310C60A0DD9BBFF5496058A218F3B597267D5DFA2A931809AF781E7C
def bankCfg : Bytes := toBE 28 0x4E53433100010000000100000000000001600104000100000A0A0A0A
def keyHash : Nat := 0x4938B309EFCA0E50CAB9F949AB849D045C5A676AC0163690AB822A7A4E19D90650792C29353C5BF4461F331495630270
/-- Bank A holds a signed set, with its key in root slot 0. -/
def goodFlash : Tab Byte :=
  (List.range 496).map (fun i => (0x100000 + i, bankMan.getD i 0)) ++ [(0x101000, 0x11), (0x102000, 0x22)] ++
    (List.range 28).map (fun i => (0x103000 + i, bankCfg.getD i 0))
def sGood : State :=
  onFixed (fun f => { f with flash := goodFlash })
    (onBoot (fun b => { b with banks := [0, 1], sensed := true, resolved := (List.range 12).map (fun i => (5 + i, w32 (keyHash / 2 ^ (32 * (11 - i)) % 2 ^ 32))) }) State.reset)
def sWaitRec (n : Nat) : State := onBoot (fun b => { b with startAt := 0 }) (sBank ⟨0, 0, 2, n⟩)
def sRwd : State := wr 0x160 8 0 (sBank (recW 0x160))
/-- A frame and a capture record cross the link on channel D and C; slice 1 is the next of channel D. -/
def sCross (f : DieLink → DieLink) : State := newFrm { src := 5, bytes := goose } (onLink f State.reset)
def msg1 : FlitItem := .message .status 4

/-! ## The premises on an access -/

/-- An access that is admitted. -/
theorem admitted_of {o p : Nat} {s : State} (h : held s = false ∧ isVf o = false ∧ pageLive p s = true ∧ p < 512 ∧
    (o == 0x7E && jtagLocked s) = false ∧ heldOrigin p o s = false) : Admitted o p s :=
  ⟨h.1, h.2.1, h.2.2.1, h.2.2.2.1, h.2.2.2.2.1, h.2.2.2.2.2⟩

/-- An access that reaches a register. -/
theorem reaches_of {o p off : Nat} {s : State} (h : (held s = false ∧ isVf o = false ∧ pageLive p s = true ∧ p < 512 ∧
    (o == 0x7E && jtagLocked s) = false ∧ heldOrigin p o s = false) ∧ 0x100 ≤ off ∧ off < 0x4000 ∧
    (isMarshal o = true ∨ sfReg p off = false)) : Reaches o p off s :=
  ⟨admitted_of h.1, h.2.1, h.2.2.1, h.2.2.2⟩

/-- An access that reaches PG_CTL. -/
theorem reachesCtl_of {o p : Nat} {s : State} (h : (held s = false ∧ isVf o = false ∧ pageLive p s = true ∧ p < 512 ∧
    (o == 0x7E && jtagLocked s) = false ∧ heldOrigin p o s = false) ∧ (isMarshal o = true ∨ ctlSf p = false) ∧
    frozenPage p s = false) : ReachesCtl o p s :=
  ⟨admitted_of h.1, h.2.1, h.2.2⟩

/-- At reset no page's entry maps it to vector 40. -/
theorem vecOf_reset (d : Irq) (p : Nat) : vecOf p { State.reset with irq := d } ≠ some 40 := by
  have h : tkey tbIrqMap p 0 % 64 = 0 := by unfold tkey; omega
  suffices hv : ∀ v : Word, v = tblReset (tkey tbIrqMap p 0) →
      (if bitOf v 15 then none else some (fld v 16 1 * 2048 + fld v 0 11)) ≠ some 40 from hv _ rfl
  intro v hv
  unfold tblReset at hv
  simp only [h, if_true] at hv
  repeat' split at hv
  all_goals (subst hv; decide +kernel)

/-- The items that a slice of a channel other than S and M carries: frames of the channel's class, and records. -/
def crossesOn (n : Nat) (i : FlitItem) : Bool :=
  match i with
  | .frame _ x _ => x == (sliceChan n == DieChan.chX)
  | .record _ _ => true
  | .message _ _ => false

/-- A premise about what a place holds, when it holds a pair or a triple. -/
theorem forall_some2 {α β : Type} {o : Option (α × β)} {P : α → β → Prop} (h : ∀ x ∈ o.toList, P x.1 x.2) : ∀ a b, o = some (a, b) → P a b :=
  fun a b e => h (a, b) (by simp [e])
theorem forall_some3 {α β γ : Type} {o : Option (α × β × γ)} {P : α → β → γ → Prop} (h : ∀ x ∈ o.toList, P x.1 x.2.1 x.2.2) :
    ∀ a b c, o = some (a, b, c) → P a b c :=
  fun a b c e => h (a, b, c) (by simp [e])
/-- Every copy of a frame goes to a channel. -/
theorem allChan_of {l : List XCopy} (h : ∀ c ∈ l, (match c.dst with | .chan _ => true | _ => false) = true) (c : XCopy) (hc : c ∈ l) :
    ∃ ch, c.dst = .chan ch := by
  have := h c hc
  cases e : c.dst <;> simp_all

/-- The marshal as it judges a command's operations: the command off the queue and its counter used. -/
def judged (c : MshCmd) (r : List MshCmd) (t : Nat) (s : State) : State :=
  let k := keySlot (byteAt c.bytes 28) s
  setKey (byteAt c.bytes 28) { k with lastCounter := max k.lastCounter (beAt c.bytes 20 8) }
    (setMsh (fun x => { x with queue := r, petSt := if c.source = 0 then 2 else x.petSt }) (advance t s))

/-! ## Values outside the model: the spec's worked examples and the published vectors of the algorithms it names -/

def ascii (s : String) : Bytes := s.toList.map (fun c => BitVec.ofNat 8 c.toNat)

/-- The check values of CRC-32C and of the Ethernet FCS over "123456789". -/
theorem test_crc_check_values : crc32c (ascii "123456789") = 0xE3069283 ∧ fcsOf (ascii "123456789") = [0x26, 0x39, 0xF4, 0xCB] := by
  decide +kernel

/-- FIPS 197, appendix B. -/
theorem test_aes_fips197 : aesNat (aesKeys (natBytes 16 0x2B7E151628AED2A6ABF7158809CF4F3C)) 0x3243F6A8885A308D313198A2E0370734 =
    0x3925841D02DC09FBDC118597196A0B32 := by decide +kernel

/-- GCM's test cases 1 and 2 (96-bit IV of zeros, 128-bit key of zeros). -/
theorem test_gcm_vectors : gcmTag (natBytes 16 0) 0 [] [] = 0x58E2FCCEFA7E3061367F1D57A4E7455A ∧
    gcmCrypt (natBytes 16 0) 0 (natBytes 16 0) = natBytes 16 0x0388DACE60B6A392F328C2B971B2FE78 ∧
    gcmTag (natBytes 16 0) 0 [] (natBytes 16 0x0388DACE60B6A392F328C2B971B2FE78) = 0xAB6E47D42CEC13BDF53A67B21257BDDF := by decide +kernel

/-- FIPS 180-4, the digest of "abc". -/
theorem test_sha384_abc : sha384 (natsOf (ascii "abc")) =
    0xCB00753F45A35E8BB5A03D699AC65007272C32AB0EDED1631A8B605A43FF5BED8086072BA1E7CC2358BAECA134C825A7 := by decide +kernel

/-- Chapter 3, "calibration decides the epoch": the three words of 1,767,225,637 s + 499,999,997.75 ns. -/
theorem test_stamp_words : stampA (mkStamp 1767225637 499999997 0xC000) = 0x1DCD64FD ∧
    stampB (mkStamp 1767225637 499999997 0xC000) = 0xB925C000 ∧ stampC (mkStamp 1767225637 499999997 0xC000) = 0x00006955 := by
  decide +kernel

/-- The same example: RX_FIXED 124.00 ns, RX_USER 2.5 ns and V 7.75 ns take 500,000,132.00 ns to 499,999,997.75 ns. -/
theorem test_rx_stamp : rxStamp 40 (mkStamp 1767225637 500000132 0) 1984
    (tput tbCal 40 0 0x7C00 (tput tbCal 40 2 0x280 State.reset)) = mkStamp 1767225637 499999997 0xC000 := by decide +kernel

/-- Chapter 3, "a forward step": T = 700 s with a step of 3.0000625 s; the next boundary is 703 s + 125 µs. -/
theorem test_forward_step :
    (boundaryOpen ⟨14137805600000, mkStamp 1767225700 0 0, some (mkStamp 3 62500 0)⟩ State.reset).tim.nextIssue = 14137805624001 ∧
    (boundaryOpen ⟨14137805600000, mkStamp 1767225700 0 0, some (mkStamp 3 62500 0)⟩ State.reset).tim.now =
      mkStamp 1767225703 62500 0 * 65536 := by decide +kernel

/-- Chapter 18, "three weak words": value, weak, RESTRICTED, hold. -/
theorem test_fuse_words : fuseResolve 54 [0x3F, 0x3F, 0x3F, 0x3F, 0x1F, 0x3F] = (0x3F, true, false, false) ∧
    fuseResolve 55 [1, 1, 3, 1, 3, 0] = (3, true, true, false) ∧
    fuseResolve 70 [0x8421, 0x8421, 0x8420, 0x8420, 0x8420, 0x8420] = (0x8420, true, false, false) := by decide +kernel

/-- Chapter 11, "colour-aware metering": the five frames' colours and the levels after each, in bytes. -/
theorem test_policer_example :
    polMark true 0 1500 (scaled 3000) (scaled 6000) = (0, scaled 1500, scaled 4500) ∧
    polMark true 0 1500 (scaled 1580) (scaled 4660) = (0, scaled 80, scaled 3160) ∧
    polMark true 0 1500 (scaled 160) (scaled 3320) = (1, scaled 160, scaled 1820) ∧
    polMark true 1 1500 (scaled 240) (scaled 1980) = (1, scaled 240, scaled 480) ∧
    polMark true 3 1500 (scaled 320) (scaled 640) = (2, scaled 320, scaled 640) ∧ rateBytes 1000 (10000 * nsU) = scaled 80 := by
  decide +kernel

/-- Chapter 4, "one PFC frame, three outcomes": B7 for 256 quanta, B5 released, no other class named; 256 quanta end 327.68 ns later. -/
def sPfcMap : State := wr (licPage 64) 0x110 0x9B234567 (wr (licPage 64) 0x100 7 State.reset)
def pfcBytes : Bytes := zeros 16 ++ toBE 2 0x0085 ++ toBE 2 0x0100 ++ zeros 12 ++ toBE 2 0xFFFF
theorem test_pfc_frame : (List.range 8).map (fun k => pfcTime 64 k pfcBytes sPfcMap) = [none, none, none, none, none, some 0, none, some 0x100] ∧
    holdEnd 64 256 (10000 * nsU) 0 sPfcMap = 10000 * nsU + 21474837 := by decide +kernel

/-- Chapter 6, "an entry and a tie": DSCP 46 takes entry 9,000, DSCP 0 entry 9,100, and another source neither. -/
def sTie : State :=
  [(9000, 0, 0x04000001), (9000, 8, 0x00080402), (9000, 12, 0x2E00), (9000, 18, 0x00081FFF), (9000, 22, 0x3F00),
   (9100, 0, 0x04000001), (9100, 8, 0x00080402), (9100, 18, 0x00081FFF)].foldl (fun s (e : Nat × Nat × Word) => tput tbCls e.1 e.2.1 e.2.2 s) State.reset
theorem test_classifier_tie : clsSearch 0 false (0x00080402 + 46 * 2 ^ 136) sTie = some 9000 ∧
    clsSearch 0 false 0x00080402 sTie = some 9100 ∧ clsSearch 0 false 0x00080412 sTie = none := by decide +kernel

/-- Chapter 8, "watching queue 320": 345.25 ns falls in bin 10 and 444 ns in bin 16, and MIN and MAX read 0x1594 and 0x1BC0. -/
def sHist320 : State := tput tbHist 3 0 0x501 (tput tbHist 3 1 0x100 (tput tbHist 3 2 0xC80 State.reset))
theorem test_histogram_bins :
    let u := histCount 320 0 (444 * nsU) 0 (histCount 320 0 (345 * nsU + nsU / 4) 0 sHist320)
    (look {} u.exp.hist 3).bins = [(10, 1), (16, 1)] ∧ (look {} u.exp.hist 3).min = 0x1594 ∧ (look {} u.exp.hist 3).max = 0x1BC0 := by
  decide +kernel

/-- Chapter 14, "capturing a 100G port": the words W3 and W4 of the B4 and the E2 record, and their lengths. -/
def capB4 : Bytes := capRecord 80 0 0 false (zeros 128) { stamp := 0, cls := some 4, bytes := [], len := 1518 }
def capE2 : Bytes := capRecord 80 0 0 true (zeros 300) { stamp := 0, cls := some 10, bytes := [], len := 300 }
theorem test_capture_records : capB4.length = 160 ∧ sub capB4 12 8 = toLE 4 0x00000850 ++ toLE 4 0x008005EE ∧
    capE2.length = 336 ∧ sub capE2 12 8 = toLE 4 0x00003450 ++ toLE 4 0x012C012C := by decide +kernel

/-- Chapter 19, "locating a port's balls", on both variants. -/
theorem test_package_balls :
    ballAt false 3 13 = .lane (.network 12) false false ∧ ballAt false 4 14 = .lane (.network 12) true true ∧ ballAt false 3 15 = .ground ∧
    (ballName (PinLane.fabric 200).cell, ballAt false 52 62, ballAt false 51 63) = ("BN61", .lane (.fabric 200) true true, .ground) ∧
    ballAt false 4 31 = .supply .vddFe ∧ ballAt false 3 31 = .ground ∧ (PinLane.network 130).cell = (33, 7) ∧ rowName 34 = "AT" ∧
    ballAt true 34 8 = .unconnected := by decide +kernel

/-! ## Well-formedness -/

/-- A command that each check of `Instr.wf` refuses. -/
theorem test_ill_formed_refused :
  ([.flitReceive 0 2 0 .good [], .flitReceive 0 0 64 .good [], .flitReceive 0 0 0 .good [.message .status 63], .epochPreannounce [0, 512],
    .memoryRequest 0 0x44 0 0 false false [0] [15] [], .memoryRequest 0 0 512 0 false false [0] [15] [], .memoryRequest 0 0 0 0x102 false false [0] [15] [], .memoryRequest 0 0 0 0 false false [] [] [],
    .memoryRequest 0 0 0 0 false false (List.replicate 17 0) (List.replicate 17 15) [], .memoryRequest 0 0 0 0 false false [0] [15, 15] [], .memoryRequest 0 0 0 0 false false [0] [16] [], .memoryRequest 0 0 0 0 false false [0] [15] [1]] : List Instr).all (fun c => !c.wf) = true ∧
  ([.registerWrite 0 0 0 0 0 16, .pmOverflow 0 0 8, .eoi 0 0 2048, .irqHoldoffExpiry 0 2 0,
    .refSelect 0 0 4, .referenceSwitch 0 8, .referenceLoss 0 3, .lanesReady 0 256 0,
    .lanesReady 0 0 16, .laneLoss 0 256 false, .localFault 0 0 4, .pauseExpiry 0 0 9] : List Instr).all (fun c => !c.wf) = true ∧
  ([.flaneUp 0 true 8 false, .flaneDown 0 false 0 3, .eyeUpdate 0 3 0 0 0 0 0, .eyeUpdate 0 0 0 256 0 0 0,
    .sdhFrame 0 32 [], .tuMultiframe 0 16128, .pwPayloadClose 0 16384, .reorderCompletion 0 289 0 false,
    .histClear 0 0 64, .nodeAge 0 16384, .sealVerdict 0 64 none false, .deepRead 0 1049088] : List Instr).all (fun c => !c.wf) = true ∧
  ([.refillVisit 0 5 0, .bargeReceive 0 256 false [], .floodRefresh 0 256, .unreachTimeout 0 1024,
    .retrain 0 0 12, .segmentQueue 0 256, .batonTally 0 8 [], .keySlotScrub 0 256 false,
    .doorbell 0 64 0 0 false false, .itrExpiry 0 512, .mbxPost 0 0 0 65, .vfFlr 0 0] : List Instr).all (fun c => !c.wf) = true ∧
  ([.vfFlr 0 64, .pcieLinkChange 0 false 0 0 64, .resetRelease 0 4, .pageStateChange 0 512 false,
    .bypass 0 256, .managementCoreReset 0 4, .grant 0 1280 none] : List Instr).all (fun c => !c.wf) = true := by decide +kernel

/-- A command at the last value that each check admits. -/
theorem test_limits_admitted :
  ([.flitReceive 0 1 0 .good [], .flitReceive 0 0 63 .good [], .flitReceive 0 0 0 .good [.message .status 62], .epochPreannounce [511],
    .memoryRequest 0 0x43 0 0 false false [0] [15] [], .memoryRequest 0 0 511 0 false false [0] [15] [], .memoryRequest 0 0 0 0xFFFC false false [0] [15] [], .memoryRequest 0 0 0 0 false false [0] [15] [0],
    .registerWrite 0 0 0 0 0 15, .pmOverflow 0 0 7, .eoi 0 0 2047, .irqHoldoffExpiry 0 1 0] : List Instr).all (fun c => c.wf) = true ∧
  ([.refSelect 0 0 3, .referenceSwitch 0 7, .referenceLoss 0 2, .lanesReady 0 255 0,
    .lanesReady 0 0 15, .laneLoss 0 255 false, .localFault 0 0 3, .pauseExpiry 0 0 8,
    .flaneUp 0 true 7 false, .flaneDown 0 false 0 2, .eyeUpdate 0 2 0 0 0 0 0, .eyeUpdate 0 0 0 255 0 0 0] : List Instr).all (fun c => c.wf) = true ∧
  ([.sdhFrame 0 31 [], .tuMultiframe 0 16127, .pwPayloadClose 0 16383, .reorderCompletion 0 288 0 false,
    .histClear 0 0 63, .nodeAge 0 16383, .sealVerdict 0 63 none false, .deepRead 0 1049087,
    .refillVisit 0 4 0, .bargeReceive 0 255 false [], .floodRefresh 0 255, .unreachTimeout 0 1023] : List Instr).all (fun c => c.wf) = true ∧
  ([.retrain 0 0 11, .segmentQueue 0 255, .batonTally 0 7 [], .keySlotScrub 0 255 false,
    .doorbell 0 63 0 0 false false, .itrExpiry 0 511, .mbxPost 0 0 0 64, .vfFlr 0 1,
    .vfFlr 0 63, .pcieLinkChange 0 false 0 0 63, .resetRelease 0 3, .pageStateChange 0 511 false] : List Instr).all (fun c => c.wf) = true ∧
  ([.bypass 0 255, .managementCoreReset 0 3, .grant 0 1279 none] : List Instr).all (fun c => c.wf) = true := by decide +kernel

/-! ## Every premise is met somewhere -/

/-- `StepRunsFront` and `StepKeepsInv`: a command at the front of a queue that meets the invariant, and the state after it. -/
theorem witness_stepRunsFront : ∃ (c : Instr) (rest : List Instr) (s : State), s.pending = c :: rest ∧ Inv s ∧ ∃ u, step s = .next u :=
  ⟨.snap 0 0, [.lockBegin 0 0], { State.reset with pending := [.snap 0 0, .lockBegin 0 0] }, rfl,
   ⟨Or.inr ⟨rfl, rfl⟩, by decide +kernel⟩, ⟨_, rfl⟩⟩

/-- `IdleCyclesAddEightNs`. -/
theorem witness_idleCyclesAddEightNs : State.reset.pending = [] ∧ held State.reset = false ∧ rd pgTim 0x110 State.reset = 0 ∧
    State.reset.tim.frac = 0 := ⟨by decide +kernel, by decide +kernel, by decide +kernel, by decide +kernel⟩

/-- `HeldDeviceIgnores`. -/
theorem witness_heldDeviceIgnores : held sHeld = true ∧ actsHeld (.lockBegin 0 0) = false := ⟨by decide +kernel, by decide +kernel⟩

/-- States and operands that meet the hypotheses of each clause of `ServoCommands`. -/
theorem witness_servoCommands :
    (∃ (s : State) (ofs : Int), held s = false ∧ s.tim.pendOfs = some ofs ∧ servoDrives s = true) ∧
    (∃ (s : State), held s = false ∧ s.tim.servo = ServoState.locked) ∧
    (∃ (s : State), held s = false ∧ s.tim.servo = ServoState.acquiring) ∧
    (∃ (s : State), held s = false ∧ s.tim.servo = ServoState.holdover) ∧
    (∃ (o : Nat) (s : State), Reaches o pgTim 276 s) :=
  ⟨⟨sServo, 4096, by decide +kernel⟩,
   ⟨sServoIn .locked, by decide +kernel⟩,
   ⟨sServoIn .acquiring, by decide +kernel⟩,
   ⟨sServoIn .holdover, by decide +kernel⟩,
   ⟨0, State.reset, reaches_of (by decide +kernel)⟩⟩

/-- States and operands that meet the hypotheses of each clause of `ReferenceCommands`. -/
theorem witness_referenceCommands :
    (∃ (s : State), held s = false) ∧
    (∃ (o sel : Nat) (s : State), Reaches o pgRef 256 s ∧ sel < 3 ∧ sel ≠ rf pgRef 256 0 2 s) ∧
    (∃ (o : Nat) (s : State), Reaches o pgRef 256 s) ∧
    (∃ (s : State), held s = false) ∧
    (∃ (r : Nat) (s : State), held s = false ∧ r < 3 ∧ nbit s.tim.refStat r = true) ∧
    (∃ (s : State), held s = false ∧ bitOf (rclkCfg false s) 20 = true ∧ bitOf (rclkCfg false s) 21 = true ∧ s.tim.sqA = false ∧
    rclkLaneOk false s = false) ∧
    (∃ (s : State), held s = false ∧ bitOf (rclkCfg true s) 20 = true ∧ bitOf (rclkCfg true s) 21 = true ∧ s.tim.sqB = false ∧ rclkLaneOk
    true s = false) ∧
    (∃ (outB : Bool) (s : State), held s = false ∧ rclkLaneOk outB s = true) ∧
    (∃ (s : State), held s = false ∧ rb pgRef 284 0 s = true ∧ s.tim.ppsIn = none ∧ s.tim.servo ≠ ServoState.locked) ∧
    (∃ (s : State), held s = false ∧ (have w := rd pgRef 272 s; bitOf w 0 = true ∧ (bitOf w 1 = false ∨ s.tim.servo = ServoState.locked ∨
    s.tim.servo = ServoState.holdover))) ∧
    (∃ (s : State), held s = false ∧ (have m := rd pgRef 280 s; bitOf m 0 = true ∧ (bitOf m 1 = false ∨ s.tim.servo = ServoState.locked ∨
    s.tim.servo = ServoState.holdover))) :=
  ⟨⟨State.reset, by decide +kernel⟩,
   ⟨0, 2, State.reset, reaches_of (by decide +kernel), by decide +kernel⟩,
   ⟨0, State.reset, reaches_of (by decide +kernel)⟩,
   ⟨sRefPend, by decide +kernel⟩,
   ⟨2, sRefUp, by decide +kernel⟩,
   ⟨sRclk, by decide +kernel⟩,
   ⟨sRclk, by decide +kernel⟩,
   ⟨true, sRclkOk, by decide +kernel⟩,
   ⟨sPpsIn, by decide +kernel⟩,
   ⟨sPpsOut, by decide +kernel⟩,
   ⟨sTenOut, by decide +kernel⟩⟩

/-- States and operands that meet the hypotheses of each clause of `PpsInputEdge`. -/
theorem witness_ppsInputEdge :
    (∃ (s : State), held s = false ∧ rb pgRef 284 0 s = true) ∧
    (∃ (s : State), held s = false ∧ rb pgRef 284 0 s = true) :=
  ⟨⟨sPpsLast, by decide +kernel⟩,
   ⟨sPpsLocked, by decide +kernel⟩⟩

/-- States and operands that meet the hypotheses of each clause of `EpochRegisterCommands`. -/
theorem witness_epochRegisterCommands :
    (∃ (o : Nat) (s : State), Reaches o pgTim 308 s ∧ s.tim.run = false) ∧
    (∃ (o : Nat) (s : State), Reaches o pgTim 308 s ∧ s.tim.run = true) ∧
    (∃ (o : Nat) (s : State), Reaches o pgTim 304 s ∧ s.tim.run = true ∧ s.tim.step = none ∧ s.lock.paired = false) ∧
    (∃ (o : Nat) (s : State), Reaches o pgTim 304 s ∧ s.tim.run = false ∧ s.tim.step = none ∧ s.lock.paired = false) ∧
    (∃ (o : Nat) (s : State), Reaches o pgTim 304 s ∧ (s.lock.paired = true ∨ s.tim.step.isSome = true)) ∧
    (∃ (o : Nat) (s : State), Reaches o pgTim 304 s) ∧
    (∃ (o : Nat) (s : State), Reaches o pgTim 304 s) ∧
    (∃ (o : Nat) (s : State), Reaches o pgPtp 292 s) :=
  ⟨⟨0, State.reset, reaches_of (by decide +kernel), by decide +kernel⟩,
   ⟨0, sRun, reaches_of (by decide +kernel), by decide +kernel⟩,
   ⟨0, sRun, reaches_of (by decide +kernel), by decide +kernel⟩,
   ⟨0, State.reset, reaches_of (by decide +kernel), by decide +kernel⟩,
   ⟨0, sStep, reaches_of (by decide +kernel), by decide +kernel⟩,
   ⟨0, State.reset, reaches_of (by decide +kernel)⟩,
   ⟨0, sRun, reaches_of (by decide +kernel)⟩,
   ⟨0, State.reset, reaches_of (by decide +kernel)⟩⟩

/-- States and operands that meet the hypotheses of each clause of `EpochBoundaries`. -/
theorem witness_epochBoundaries :
    (∃ (s : State), held s = false ∧ s.tim.run = true ∧ s.tim.issued = none ∧ s.lock.st ≠ LockState.level ∧ s.lock.st ≠ LockState.ready) ∧
    (∃ (s : State) (b : Pre), held s = false ∧ s.tim.issued = some b ∧ s.lock.st ≠ LockState.ready ∧ b.step = none) ∧
    (∃ (s : State) (b : Pre) (d : Nat), held s = false ∧ s.tim.issued = some b ∧ s.lock.st ≠ LockState.ready ∧ b.step = some d) :=
  ⟨⟨sRun, by decide +kernel⟩,
   ⟨sIssued, ⟨1, 125000 * 65536, none⟩, by decide +kernel⟩,
   ⟨onTim (fun t => { t with issued := some ⟨1, 125000 * 65536, some 65536⟩ }) sRun, ⟨1, 125000 * 65536, some 65536⟩, 65536,
   by decide +kernel⟩⟩

/-- States and operands that meet the hypotheses of each clause of `BoundaryOpensEpoch`. -/
theorem witness_boundaryOpensEpoch :
    (∃ (b : Pre), b.step = none) ∧
    (∃ (b : Pre) (d : Nat), b.step = some d) :=
  ⟨⟨⟨1, 125000 * 65536, none⟩, by decide +kernel⟩,
   ⟨⟨1, 125000 * 65536, some 65536⟩, 65536, by decide +kernel⟩⟩

/-- States and operands that meet the hypotheses of each clause of `PortStateCommands`. -/
theorem witness_portStateCommands :
    (∃ (c : Nat) (s : State), held s = false ∧ (port c s).st = PortState.acquire ∧ (∀ (n : Nat), n ∈ upto c (chLanes c s) → (nlane n
    s).powered = true) ∧ (rb (licPage c) 256 8 s = false ∨ (port c s).anDone = true)) ∧
    (∃ (c : Nat) (s : State), held s = false ∧ chSpeed c s = 1 ∧ rb (licPage c) 256 8 s = true ∧ (port c s).st = PortState.acquire ∧
    lanesReady c s = true) ∧
    (∃ (c n : Nat) (s : State), held s = false ∧ (port c s).st = PortState.acquire ∧ n ∈ upto c (chLanes c s) ∧ (nlane n s).adapt = false) ∧
    (∃ (c : Nat) (s : State), held s = false ∧ (port c s).st = PortState.align ∧ (∀ (n : Nat), n ∈ upto c (chLanes c s) → polOk 0 n s =
    true)) ∧
    (∃ (c : Nat) (s : State), held s = false ∧ (port c s).st = PortState.align ∧ (∀ (n : Nat), n ∈ upto c (chLanes c s) → polOk 0 n s =
    true)) ∧
    (∃ (n c : Nat) (s : State), held s = false ∧ laneOwner n s = some c) ∧
    (∃ (n c : Nat) (s : State), held s = false ∧ laneOwner n s = some c) ∧
    (∃ (c : Nat) (s : State), held s = false ∧ s.jtag.outOfService = false ∧ ((port c s).st = PortState.up ∨ (port c s).st =
    PortState.remoteFault) ∧ quietMac c s = true) ∧
    (∃ (c : Nat) (s : State), held s = false ∧ s.jtag.outOfService = false ∧ ((port c s).st = PortState.up ∨ (port c s).st =
    PortState.remoteFault) ∧ quietMac c s = true) ∧
    (∃ (c : Nat) (s : State), held s = false ∧ s.jtag.outOfService = false ∧ (port c s).st = PortState.up ∧ quietMac c s = true) ∧
    (∃ (c : Nat) (s : State), held s = false ∧ (port c s).st = PortState.localFault) ∧
    (∃ (c : Nat) (s : State), held s = false ∧ (port c s).st = PortState.localFault) ∧
    (∃ (c : Nat) (s : State), held s = false ∧ (port c s).st = PortState.remoteFault) ∧
    (∃ (c : Nat) (s : State), held s = false ∧ (port c s).st = PortState.remoteFault) :=
  ⟨⟨4, sAcquire, by decide +kernel⟩,
   ⟨4, sAnDue, by decide +kernel⟩,
   ⟨4, 4, sAcquire, by decide +kernel⟩,
   ⟨4, sAlign, by decide +kernel⟩,
   ⟨4, sAlign, by decide +kernel⟩,
   ⟨4, 4, sAlign, by decide +kernel⟩,
   ⟨4, 4, sUp, by decide +kernel⟩,
   ⟨4, sUp, by decide +kernel⟩,
   ⟨4, sUpLit, by decide +kernel⟩,
   ⟨4, sUp, by decide +kernel⟩,
   ⟨4, sPort (fun p => { p with st := .localFault, lfRx := true }), by decide +kernel⟩,
   ⟨4, setNl 4 (fun _ => lit) (sPort (fun p => { p with st := .localFault, lfRx := true })), by decide +kernel⟩,
   ⟨4, sPort (fun p => { p with st := .remoteFault, rfRx := true }), by decide +kernel⟩,
   ⟨4, setNl 4 (fun _ => lit) (sPort (fun p => { p with st := .remoteFault, rfRx := true })), by decide +kernel⟩⟩

/-- States and operands that meet the hypotheses of each clause of `VerifyAndPauseCommands`. -/
theorem witness_verifyAndPauseCommands :
    (∃ (c skew : Nat) (s : State), held s = false ∧ (port c s).st = PortState.align ∧ (∀ (n : Nat), n ∈ upto c (chLanes c s) → polOk 0 n s
    = true) ∧ skew ≤ 180) ∧
    (∃ (c skew : Nat) (s : State), held s = false ∧ (port c s).st = PortState.align ∧ (∀ (n : Nat), n ∈ upto c (chLanes c s) → polOk 0 n s
    = true) ∧ skew ≤ 180) ∧
    (∃ (t c k e : Nat) (s : State), held s = false ∧ find? (port c s).hold k = some e ∧ e ≤ nowStamp (advance t s)) ∧
    (∃ (c : Nat) (s : State), held s = false ∧ (port c s).verify = 2 ∧ (port c s).st = PortState.up ∧ (port c s).tries < 3) ∧
    (∃ (c : Nat) (s : State), held s = false ∧ (port c s).verify = 2 ∧ (port c s).st = PortState.up ∧ 3 ≤ (port c s).tries) :=
  ⟨⟨4, 0, sAlign, by decide +kernel⟩,
   ⟨4, 180, sAlignV 0x29, by decide +kernel⟩,
   ⟨9, 4, 7, 9, sPaused, by decide +kernel⟩,
   ⟨4, sVerify 2, by decide +kernel⟩,
   ⟨4, sVerify 3, by decide +kernel⟩⟩

/-- States and operands that meet the hypotheses of each clause of `LaneCommands`. -/
theorem witness_laneCommands :
    (∃ (o c : Nat) (s : State), Reaches o (licPage c) 280 s ∧ c < 256 ∧ quietMac c s = true) ∧
    (∃ (o c : Nat) (s : State), Reaches o (licPage c) 280 s ∧ c < 256 ∧ quietMac c s = true) ∧
    (∃ (o c off : Nat) (v : Word) (r : RegRow) (s : State), Reaches o (licPage c) off s ∧ regAt (licPage c) off = some r ∧ r.acc = Acc.rw
    ∧ c < 256 ∧ licRefuses off v = false) ∧
    (∃ (o c off : Nat) (v : Word) (r : RegRow) (s : State), Reaches o (licPage c) off s ∧ (off = 516 ∨ off = 772 ∨ off = 1028) ∧ regAt
    (licPage c) off = some r ∧ c < 256 ∧ licRefuses off v = false) ∧
    (∃ (o c off : Nat) (v : Word) (r : RegRow) (s : State), Reaches o (licPage c) off s ∧ (off = 516 ∨ off = 772 ∨ off = 1028) ∧ regAt
    (licPage c) off = some r ∧ c < 256 ∧ licRefuses off v = false) ∧
    (∃ (o c off : Nat) (v : Word) (r : RegRow) (s : State), Reaches o (licPage c) off s ∧ regAt (licPage c) off = some r ∧ c < 256 ∧
    licRefuses off v = true ∧ r.acc = Acc.rw) ∧
    (∃ (n : Nat) (s : State), held s = false ∧ s.jtag.outOfService = false ∧ ((flane n s).st = 1 ∨ (flane n s).st = 2)) ∧
    (∃ (n : Nat) (s : State), held s = false ∧ s.jtag.outOfService = false ∧ ((flane n s).st = 1 ∨ (flane n s).st = 2)) ∧
    (∃ (n : Nat) (s : State), held s = false ∧ s.jtag.outOfService = false ∧ ((flane n s).st = 2 ∨ (flane n s).st = 3) ∧ (fabLane n s).st
    = 0) ∧
    (∃ (n : Nat) (s : State), held s = false ∧ s.jtag.outOfService = false ∧ ((flane n s).st = 2 ∨ (flane n s).st = 3) ∧ (fabLane n s).st
    = 0) ∧
    (∃ (n : Nat) (s : State), held s = false ∧ s.jtag.outOfService = false ∧ ((blane n s).st = 1 ∨ (blane n s).st = 2)) ∧
    (∃ (n : Nat) (s : State), held s = false ∧ s.jtag.outOfService = false ∧ ((blane n s).st = 1 ∨ (blane n s).st = 2)) ∧
    (∃ (n : Nat) (s : State), held s = false ∧ s.jtag.outOfService = false ∧ ((blane n s).st = 2 ∨ (blane n s).st = 3)) ∧
    (∃ (n : Nat) (s : State), held s = false ∧ s.jtag.outOfService = false ∧ ((blane n s).st = 2 ∨ (blane n s).st = 3)) ∧
    (∃ (n : Nat) (s : State), held s = false ∧ (nlane n s).powered = true ∧ (nlane n s).adapt = true) ∧
    (∃ (n : Nat) (s : State), held s = false ∧ (flane n s).powered = true ∧ (flane n s).adapt = true ∧ (flane n s).st = 3) ∧
    (∃ (n : Nat) (s : State), held s = false ∧ (flane n s).powered = true ∧ (flane n s).adapt = true ∧ (flane n s).st = 3) ∧
    (∃ (n : Nat) (s : State), held s = false ∧ (blane n s).powered = true ∧ (blane n s).adapt = true) :=
  ⟨⟨0, 255, State.reset, reaches_of (by decide +kernel), by decide +kernel⟩,
   ⟨0, 4, sUp, reaches_of (by decide +kernel), by decide +kernel⟩,
   ⟨0, 4, 0x200, 0x18, rowOf (licPage 4) 0x200, State.reset, reaches_of (by decide +kernel), by decide +kernel⟩,
   ⟨0, 4, 0x204, 0x18, rowOf (licPage 4) 0x204, State.reset, reaches_of (by decide +kernel), by decide +kernel⟩,
   ⟨0, 7, 0x404, 0xFFFF0000, rowOf (licPage 7) 0x404, State.reset, reaches_of (by decide +kernel), by decide +kernel⟩,
   ⟨0, 4, 0x204, 0x3FFF7F3F, rowOf (licPage 4) 0x204, State.reset, reaches_of (by decide +kernel), by decide +kernel⟩,
   ⟨255, sFl 1, by decide +kernel⟩,
   ⟨255, sFl 2, by decide +kernel⟩,
   ⟨255, sFl 3, by decide +kernel⟩,
   ⟨255, sFl 2, by decide +kernel⟩,
   ⟨7, sBl 1, by decide +kernel⟩,
   ⟨7, sBl 1, by decide +kernel⟩,
   ⟨7, sBl 3, by decide +kernel⟩,
   ⟨7, sBl 3, by decide +kernel⟩,
   ⟨4, setNl 4 (fun _ => lit) State.reset, by decide +kernel⟩,
   ⟨255, sFl 3, by decide +kernel⟩,
   ⟨255, sFl 3, by decide +kernel⟩,
   ⟨7, sBl 3, by decide +kernel⟩⟩

/-- States and operands that meet the hypotheses of each clause of `MacCommands`. -/
theorem witness_macCommands :
    (∃ (c : Nat) (s : State), held s = false ∧ s.jtag.outOfService = false ∧ (channels s).contains c = true ∧ macMbps (chSpeed c s) ≠ 0) ∧
    (∃ (c : Nat) (b : Bytes) (s : State), held s = false ∧ s.jtag.outOfService = false ∧ (channels s).contains c = true ∧ macMbps (chSpeed
    c s) ≠ 0 ∧ (port c s).now = RxNow.none ∧ chUp c s = true ∧ List.length b < 128) ∧
    (∃ (c : Nat) (s : State), held s = false ∧ s.jtag.outOfService = false ∧ (channels s).contains c = true ∧ macMbps (chSpeed c s) ≠ 0 ∧
    (port c s).now = RxNow.none ∧ (port c s).st = PortState.up) ∧
    (∃ (c : Nat) (s : State), held s = false ∧ s.jtag.outOfService = false ∧ (channels s).contains c = true ∧ macMbps (chSpeed c s) ≠ 0 ∧
    (port c s).now = RxNow.none ∧ (port c s).st = PortState.up ∧ (port c s).verify = 2) ∧
    (∃ (t c : Nat) (x : TxF) (s : State), held s = false ∧ s.jtag.outOfService = false ∧ (port c s).tx = some x ∧ x.start.preemptable =
    true ∧ preemptAsked c x (advance t s) = true ∧ preemptPoint c x (advance t s) + 64 ≤ List.length (frm x.id s).bytes) ∧
    (∃ (c : Nat) (b : Bytes) (r : List Bytes) (s : State), held s = false ∧ s.jtag.outOfService = false ∧ txIdle c s = true ∧ nextX c s =
    none ∧ (port c s).ctl = b :: r) ∧
    (∃ (c : Nat) (x : XWait) (s : State), held s = false ∧ s.jtag.outOfService = false ∧ txIdle c s = true ∧ nextX c s = some x ∧
    pdelayStops (frm x.id s).src (parseOf (frm x.id s) s).ptp s = false) ∧
    (∃ (t c : Nat) (x : TxF) (s : State), held s = false ∧ s.jtag.outOfService = false ∧ txIdle c s = true ∧ nextX c s = none ∧ (port c
    s).ctl = [] ∧ (port c s).susp = some x ∧ gateOpen c (x.cls - 8) (advance t s) = true) ∧
    (∃ (c : Nat) (x : TxF) (s : State), held s = false ∧ s.jtag.outOfService = false ∧ (port c s).tx = some x ∧ 8 ≤ x.cls) :=
  ⟨⟨4, sUp, by decide +kernel⟩,
   ⟨4, [1,2,3], sUp, by decide +kernel⟩,
   ⟨4, sUp, by decide +kernel⟩,
   ⟨4, sVerify 1, by decide +kernel⟩,
   ⟨0, 4, preTx, sBulkPre, by decide +kernel⟩,
   ⟨4, [1,2], [[3]], sCtl, by decide +kernel⟩,
   ⟨4, ⟨2, 5, 7, 0⟩, sExpTx, by decide +kernel⟩,
   ⟨0, 4, { bulkTx with done := 64, closed := true }, sSusp, by decide +kernel⟩,
   ⟨4, bulkTx, sBulkTx, by decide +kernel⟩⟩

/-- States and operands that meet the hypotheses of each clause of `RegisterAccess`. -/
theorem witness_registerAccess :
    (∃ (o p off : Nat) (r : RegRow) (s : State), Reaches o p off s ∧ regAt p off = some r ∧ (352 ≤ p ∧ p < 368 ∨ p = 422 ∨ 432 ≤ p ∧ p <
    448) ∧ (r.acc = Acc.rw ∨ r.acc = Acc.rwd ∧ rb p 8 0 s = false ∧ frozenPage p s = false)) ∧
    (∃ (o p off : Nat) (r : RegRow) (s : State), Reaches o p off s ∧ regAt p off = some r ∧ (352 ≤ p ∧ p < 368 ∨ p = 422 ∨ 432 ≤ p ∧ p <
    448) ∧ (r.acc = Acc.rw ∨ r.acc = Acc.rwd ∧ rb p 8 0 s = false ∧ frozenPage p s = false)) ∧
    (∃ (t o p off : Nat) (v : Word) (r : RegRow) (s : State), Reaches o p off s ∧ regAt p off = some r ∧ p ≠ pgLog ∧ p ≠ pgCon ∧
    regRefuses p off o v (advance t s) = [] ∧ (r.acc = Acc.rw ∨ r.acc = Acc.rwd ∧ rb p 8 0 s = false ∧ frozenPage p s = false)) ∧
    (∃ (o p off : Nat) (r : RegRow) (s : State), Reaches o p off s ∧ regAt p off = some r ∧ r.acc = Acc.rwd ∧ (rb p 8 0 s = true ∨
    frozenPage p s = true) ∧ p ≠ pgCon) ∧
    (∃ (o p off be : Nat) (s : State), Reaches o p off s ∧ be < 15 ∧ p ≠ pgCon) ∧
    (∃ (t o p off : Nat) (v : Word) (r : RegRow) (s : State), Reaches o p off s ∧ regAt p off = some r ∧ r.acc = Acc.wp ∧ find?
    s.regs.posted p = none ∧ p ≠ pgCon ∧ regRefuses p off o v (advance t s) = []) ∧
    (∃ (o p off : Nat) (r : RegRow) (s : State), Reaches o p off s ∧ regAt p off = some r ∧ (352 ≤ p ∧ p < 368 ∨ p = 422 ∨ 432 ≤ p ∧ p <
    448) ∧ s.jtag.outOfService = false ∧ (r.acc = Acc.rw ∨ r.acc = Acc.rwd ∧ rb p 8 0 s = false ∧ frozenPage p s = false)) ∧
    (∃ (o p : Nat) (s : State), held s = false ∧ s.jtag.outOfService = false ∧ isVf o = false ∧ p ≠ pgCon) ∧
    (∃ (o : Nat) (s : State), Reaches o pgRef 304 s) ∧
    (∃ (o : Nat) (s : State), Reaches o pgTim 256 s ∧ find? s.regs.latch (lkey o (rkey pgTim 256)) = none) ∧
    (∃ (o : Nat) (v : Word) (s : State), Admitted o pgTim s ∧ find? s.regs.posted pgTim = some (272, v, o)) ∧
    (∃ (o p off : Nat) (r : RegRow) (s : State), Admitted o p s ∧ 256 ≤ off ∧ off < 16384 ∧ regAt p off = some r ∧ (r.acc = Acc.rw ∨ r.acc
    = Acc.rwd ∨ r.acc = Acc.sf ∧ isMarshal o = true) ∧ frozenPage p s = false ∧ p ≠ pgCon) :=
  ⟨⟨0, 0x160, 0x114, rowOf 0x160 0x114, State.reset, reaches_of (by decide +kernel), by decide +kernel⟩,
   ⟨0, 0x160, 0x100, rowOf 0x160 0x100, State.reset, reaches_of (by decide +kernel), by decide +kernel⟩,
   ⟨0, 0, pgTim, 0x11C, 5, rowOf pgTim 0x11C, State.reset, reaches_of (by decide +kernel), by decide +kernel⟩,
   ⟨0, 0x160, 0x100, rowOf 0x160 0x100, sPageOn, reaches_of (by decide +kernel), by decide +kernel⟩,
   ⟨0, 0x160, 0x114, 14, State.reset, reaches_of (by decide +kernel), by decide +kernel⟩,
   ⟨0, 0, pgTim, 0x118, 5, rowOf pgTim 0x118, State.reset, reaches_of (by decide +kernel), by decide +kernel⟩,
   ⟨0, 0x160, 0x114, rowOf 0x160 0x114, State.reset, reaches_of (by decide +kernel), by decide +kernel⟩,
   ⟨0, 0x160, State.reset, by decide +kernel⟩,
   ⟨0, sRej, reaches_of (by decide +kernel)⟩,
   ⟨0, State.reset, reaches_of (by decide +kernel), by decide +kernel⟩,
   ⟨0, 0x80000000, sPosted, admitted_of (by decide +kernel), by decide +kernel⟩,
   ⟨0, 0x160, 0x114, rowOf 0x160 0x114, State.reset, admitted_of (by decide +kernel), by decide +kernel⟩⟩

/-- States and operands that meet the hypotheses of each clause of `PageControl`. -/
theorem witness_pageControl :
    (∃ (o p : Nat) (s : State), ReachesCtl o p s ∧ rb p 8 0 s = false) ∧
    (∃ (p : Nat) (s : State), held s = false ∧ p ∈ s.regs.softRst ∧ 352 ≤ p ∧ p < 512) ∧
    (∃ (o p : Nat) (s : State), ReachesCtl o p s) ∧
    (∃ (t o p : Nat) (s : State), ReachesCtl o p s ∧ rb p 8 0 s = false ∧ (readyOf p (advance t s)).fst = 3 ∧ s.lock.members.contains p =
    false ∧ pageCheck p (advance t s) (advance t s) = none ∧ (p < 64 ∨ 320 ≤ p) ∧ p ≠ 400 ∧ p ≠ 432) ∧
    (∃ (t o c : Nat) (s : State), ReachesCtl o (licPage c) s ∧ c < 256 ∧ rb (licPage c) 8 0 s = false ∧ (readyOf (licPage c) (advance t
    s)).fst = 3 ∧ s.lock.members.contains (licPage c) = false ∧ pageCheck (licPage c) (advance t s) (advance t s) = none) ∧
    (∃ (t o c : Nat) (s : State), ReachesCtl o (licPage c) s ∧ c < 256 ∧ rb (licPage c) 8 0 s = false ∧ (readyOf (licPage c) (advance t
    s)).fst = 3 ∧ s.lock.members.contains (licPage c) = false ∧ pageCheck (licPage c) (advance t s) (advance t s) = none) ∧
    (∃ (t o p : Nat) (s : State), ReachesCtl o p s ∧ rb p 8 0 s = true ∧ memKeepsEn p (advance t s) = false ∧ (p < 64 ∨ 320 ≤ p) ∧ p ≠ 432
    ∧ p ≠ pgArc) ∧
    (∃ (o c : Nat) (s : State), ReachesCtl o (licPage c) s ∧ c < 256 ∧ rb (licPage c) 8 0 s = true) ∧
    (∃ (o p : Nat) (s : State), ReachesCtl o p s ∧ lockHost o = true ∧ ctlSf p = false ∧ s.lock.st = LockState.fill ∧ s.lock.ownerMarshal
    = false) :=
  ⟨⟨0, 0x160, State.reset, reachesCtl_of (by decide +kernel), by decide +kernel⟩,
   ⟨0x160, sSoftRst, by decide +kernel⟩,
   ⟨0, 0x160, sFillWord, reachesCtl_of (by decide +kernel)⟩,
   ⟨0, 0, 0x160, sReady 0x160, reachesCtl_of (by decide +kernel), by decide +kernel⟩,
   ⟨0, 0, 4, sLicRdy 4, reachesCtl_of (by decide +kernel), by decide +kernel⟩,
   ⟨0, 0, 255, sReady (licPage 255), reachesCtl_of (by decide +kernel), by decide +kernel⟩,
   ⟨0, 0, 0x160, sPageOn, reachesCtl_of (by decide +kernel), by decide +kernel⟩,
   ⟨0, 4, sUp, reachesCtl_of (by decide +kernel), by decide +kernel⟩,
   ⟨0, 0x160, sFill, reachesCtl_of (by decide +kernel), by decide +kernel⟩⟩

/-- States and operands that meet the hypotheses of each clause of `LockCycle`. -/
theorem witness_lockCycle :
    (∃ (o : Nat) (s : State), Reaches o pgLock 256 s ∧ lockBusy s = false) ∧
    (∃ (o : Nat) (s : State), Reaches o pgLock 256 s ∧ lockBusy s = false) ∧
    (∃ (o : Nat) (s : State), Reaches o pgLock 256 s ∧ lockBusy s = true) ∧
    (∃ (o : Nat) (s : State), Reaches o pgLock 256 s ∧ s.lock.st = LockState.fill ∧ s.lock.ownerMarshal = false ∧ s.tim.run = true ∧
    (hostEpoch s = 0 ∧ s.lock.paired = false ∨ epochNow s + 4 ≤ hostEpoch s ∧ s.tim.nextIssue ≤ hostEpoch s) ∧ lockDirty s ≠ []) ∧
    (∃ (o : Nat) (s : State), Reaches o pgLock 256 s ∧ s.lock.st = LockState.fill ∧ s.lock.ownerMarshal = false ∧ s.tim.run = true ∧
    (hostEpoch s = 0 ∧ s.lock.paired = false ∨ epochNow s + 4 ≤ hostEpoch s ∧ s.tim.nextIssue ≤ hostEpoch s) ∧ lockDirty s ≠ []) ∧
    (∃ (o : Nat) (s : State) (k : Nat), Reaches o pgLock 256 s ∧ s.lock.st = LockState.fill ∧ s.lock.ownerMarshal = false ∧ s.lock.held =
    none ∧ ((if s.tim.run = false then some 7 else if hostEpoch s ≠ 0 ∧ hostEpoch s < epochNow s + 4 then some 2 else if hostEpoch s ≠ 0 ∧
    hostEpoch s < s.tim.nextIssue then some 7 else if hostEpoch s = 0 ∧ s.lock.paired = true then some 10 else if lockDirty s = [] then
    some 3 else none) = some k)) ∧
    (∃ (o : Nat) (s : State) (k : Nat), Reaches o pgLock 256 s ∧ s.lock.st = LockState.fill ∧ s.lock.ownerMarshal = false ∧ s.lock.held =
    none ∧ ((if s.tim.run = false then some 7 else if hostEpoch s ≠ 0 ∧ hostEpoch s < epochNow s + 4 then some 2 else if hostEpoch s ≠ 0 ∧
    hostEpoch s < s.tim.nextIssue then some 7 else if hostEpoch s = 0 ∧ s.lock.paired = true then some 10 else if lockDirty s = [] then
    some 3 else none) = some k)) ∧
    (∃ (o : Nat) (s : State), Reaches o pgLock 256 s ∧ (s.lock.st ≠ LockState.fill ∨ s.lock.ownerMarshal = true)) ∧
    (∃ (o : Nat) (s : State), Reaches o pgLock 256 s ∧ (s.lock.st ≠ LockState.fill ∨ s.lock.ownerMarshal = true)) ∧
    (∃ (o : Nat) (s : State), Reaches o pgLock 256 s ∧ (s.lock.st = LockState.fill ∨ s.lock.st = LockState.level ∨ s.lock.st =
    LockState.ready ∧ s.lock.bound = none) ∧ s.lock.held = none) ∧
    (∃ (o : Nat) (s : State), Reaches o pgLock 256 s ∧ (s.lock.st = LockState.fill ∨ s.lock.st = LockState.level ∨ s.lock.st =
    LockState.ready ∧ s.lock.bound = none) ∧ s.lock.held = none) ∧
    (∃ (o : Nat) (s : State), Reaches o pgLock 256 s ∧ s.lock.st ≠ LockState.fill ∧ s.lock.st ≠ LockState.level ∧ (s.lock.st =
    LockState.ready → s.lock.bound.isSome = true)) ∧
    (∃ (o : Nat) (s : State), Reaches o pgLock 256 s ∧ s.lock.st ≠ LockState.fill ∧ s.lock.st ≠ LockState.level ∧ (s.lock.st =
    LockState.ready → s.lock.bound.isSome = true)) ∧
    (∃ (o : Nat) (s : State), Reaches o pgLock 256 s ∧ (s.lock.st = LockState.done ∨ s.lock.st = LockState.refused)) ∧
    (∃ (o : Nat) (s : State), Reaches o pgLock 256 s ∧ (s.lock.st = LockState.done ∨ s.lock.st = LockState.refused)) ∧
    (∃ (o : Nat) (s : State), Reaches o pgLock 256 s ∧ s.lock.st ≠ LockState.done ∧ s.lock.st ≠ LockState.refused) ∧
    (∃ (s : State), Reaches 80 pgMsh 288 s ∧ lockBusy s = false ∧ s.tim.run = true ∧ (BitVec.toNat (rd 32 296 s) * 2 ^ 32 + BitVec.toNat
    (rd 32 292 s) = 0 ∧ s.lock.paired = false ∨ epochNow s + 4 ≤ BitVec.toNat (rd 32 296 s) * 2 ^ 32 + BitVec.toNat (rd 32 292 s) ∧
    s.tim.nextIssue ≤ BitVec.toNat (rd 32 296 s) * 2 ^ 32 + BitVec.toNat (rd 32 292 s)) ∧ List.filter (fun k => (List.filter (fun p =>
    pageLive p s) (List.filter (fun p => rb 32 (320 + 4 * (p / 32)) (p % 32) s) (List.range 512))).contains (k / 65536) && sfReg (k /
    65536) (k % 65536)) (rem s.regs.dirty (rkey 32 288)) ≠ []) ∧
    (∃ (s : State), Reaches 80 pgMsh 288 s ∧ lockBusy s = true ∧ s.lock.ownerMarshal = false ∧ s.lock.held = none) ∧
    (∃ (r : LockReq) (s : State), held s = false ∧ s.lock.st = LockState.fill ∧ s.lock.ownerMarshal = false ∧ s.lock.held = some r ∧ 16 ≤
    s.lock.heldEpochs) :=
  ⟨⟨0, State.reset, reaches_of (by decide +kernel), by decide +kernel⟩,
   ⟨0, sLockIn .refused, reaches_of (by decide +kernel), by decide +kernel⟩,
   ⟨0, sFillWord, reaches_of (by decide +kernel), by decide +kernel⟩,
   ⟨0, sFillWord, reaches_of (by decide +kernel), by decide +kernel⟩,
   ⟨0, onTim (fun t => { t with nextIssue := 8 }) (wr pgLock 0x108 8 sFillWord), reaches_of (by decide +kernel), by decide +kernel⟩,
   ⟨0, sFill, 7, reaches_of (by decide +kernel), by decide +kernel⟩,
   ⟨0, onTim (fun t => { t with run := true }) sFill, 3, reaches_of (by decide +kernel), by decide +kernel⟩,
   ⟨0, sLockIn .done, reaches_of (by decide +kernel), by decide +kernel⟩,
   ⟨0, onLock (fun l => { l with ownerMarshal := true }) sFill, reaches_of (by decide +kernel), by decide +kernel⟩,
   ⟨0, sFill, reaches_of (by decide +kernel), by decide +kernel⟩,
   ⟨0, sRdy, reaches_of (by decide +kernel), by decide +kernel⟩,
   ⟨0, sRdyBound, reaches_of (by decide +kernel), by decide +kernel⟩,
   ⟨0, sLockIn .open_, reaches_of (by decide +kernel), by decide +kernel⟩,
   ⟨0, sLockIn .done, reaches_of (by decide +kernel), by decide +kernel⟩,
   ⟨0, sLockIn .refused, reaches_of (by decide +kernel), by decide +kernel⟩,
   ⟨0, sFill, reaches_of (by decide +kernel), by decide +kernel⟩,
   ⟨sMarReq, reaches_of (by decide +kernel), by decide +kernel⟩,
   ⟨wr 0x020 0x140 8 sFill, reaches_of (by decide +kernel), by decide +kernel⟩,
   ⟨⟨[3], 0⟩, sBehind, by decide +kernel⟩⟩

/-- States and operands that meet the hypotheses of each clause of `LockWordsTakeEffect`. -/
theorem witness_lockWordsTakeEffect :
    (∃ (ks : List Nat) (k : Nat), ks.Nodup ∧ k ∈ ks) ∧
    (∃ (t : Nat) (s : State), (∀ (n : Nat), 1 ≤ n → n ≤ 8 → (∃ p, p ∈ s.lock.members ∧ crossPages n p = true) → crossCheck n (newCfg
    (advance t s)) = none) ∧ held s = false ∧ s.lock.st = LockState.level ∧ (∀ (p : Nat), p ∈ s.lock.members → pageCheck p (advance t s)
    (newCfg (advance t s)) = none ∧ (readyOf p (advance t s)).fst = 3) ∧ ¬pgExp ∈ s.lock.members) ∧
    (∃ (t p : Nat) (rest : List Nat) (r : Nat) (s : State), held s = false ∧ s.lock.st = LockState.level ∧ s.lock.members = p :: rest ∧
    s.lock.held = none ∧ pageCheck p (advance t s) (newCfg (advance t s)) = some r) ∧
    (∃ (s : State), held s = false ∧ s.lock.st = LockState.level ∧ 2 ≤ s.lock.levelEpochs ∧ s.lock.held = none) ∧
    (∃ (s : State), held s = false ∧ s.tim.run = true ∧ s.tim.issued = none ∧ s.lock.st = LockState.ready ∧ s.lock.bound = none ∧
    (s.lock.applyEpoch = s.tim.nextIssue ∨ s.lock.applyEpoch = 0) ∧ s.link.fault = false ∧ memFrozen s = false ∧ oldFrames s = false ∧
    s.pair.role = Role.solo) ∧
    (∃ (b : Pre) (s : State), held s = false ∧ s.tim.issued = some b ∧ s.tim.missPages = [] ∧ b.step = none ∧ s.lock.st = LockState.ready
    ∧ s.lock.bound = some b.epoch) ∧
    (∃ (s : State), held s = false ∧ s.lock.st = LockState.open_ ∧ s.lock.held = none) ∧
    (∃ (s : State), held s = false ∧ oldFrames s = false) :=
  ⟨⟨[rkey 0x160 0x114], rkey 0x160 0x114, by decide +kernel⟩,
   ⟨0, sLevel, by
    intro n h1 h2 _
    obtain rfl | rfl | rfl | rfl | rfl | rfl | rfl | rfl : n = 1 ∨ n = 2 ∨ n = 3 ∨ n = 4 ∨ n = 5 ∨ n
   = 6 ∨ n = 7 ∨ n = 8 := by omega
    all_goals decide +kernel, by decide +kernel⟩,
   ⟨0, 0x160, [], 2, onRegs (fun r => { r with dirty := [rkey 0x160 0x104] }) (setChm (rkey 0x160 0x104) 0x8100 sLevel),
   by decide +kernel⟩,
   ⟨sLvlLate, by decide +kernel⟩,
   ⟨sRdy, by decide +kernel⟩,
   ⟨⟨1, 125000 * 65536, none⟩, sRdyBound, by decide +kernel⟩,
   ⟨onLock (fun l => { l with st := .open_ }) sFillWord, by decide +kernel⟩,
   ⟨onRegs (fun r => { r with oldPages := [3], oldLive := [(rkey 3 0x100, 1)] }) State.reset, by decide +kernel⟩⟩

/-- States and operands that meet the hypotheses of each clause of `LogAndCounterCommands`. -/
theorem witness_logAndCounterCommands :
    (∃ (o k : Nat) (s : State), Reaches o pgLog 264 s ∧ k ≤ s.log.wrSeq - s.log.rdSeq ∧ k ≤ 65536) ∧
    (∃ (o : Nat) (v : Word) (s : State), Reaches o pgLog 264 s ∧ logRdBad v s = true) ∧
    (∃ (r : LogRec) (s : State), held s = false ∧ s.jtag.outOfService = false ∧ rb pgLog 256 0 s = true ∧ 8 ≤ rf pgLog 296 0 5 s ∧ rf
    pgLog 296 0 5 s ≤ 16 ∧ dmaNext s < s.log.wrSeq ∧ find? s.log.ring (dmaNext s % 65536) = some r) ∧
    (∃ (p k : Nat) (s : State), held s = false ∧ pageLive p s = true ∧ k < 8 ∧ p ≠ 4 ∧ p ≠ 24 ∧ pmRuns p s = true ∧ rf p (48 + 4 * k) 0 16
    s ≠ 0 ∧ look 0 s.regs.pm (p * 8 + k) = 2 ^ 48 - 1) ∧
    (∃ (p : Nat) (s : State), held s = false ∧ p ∈ s.regs.ovfPend ∧ p < 512) ∧
    (∃ (o p : Nat) (s : State), Admitted o p s) ∧
    (∃ (o : Nat) (s : State), Reaches o pgSnap 256 s) ∧
    (∃ (o v : Nat) (s : State), Reaches o pgIrq (512 + 4 * (v / 32 % 64)) s) ∧
    (∃ (o v : Nat) (s : State), Reaches o pgIrq (512 + 4 * (v / 32 % 64)) s ∧ (∀ (p : Nat), vecOf p s ≠ some v) ∧ (o < 64 ∨ 67 < o) ∧ v <
    2048) ∧
    (∃ (t o v : Nat) (s : State), Reaches o pgIrq (512 + 4 * (v / 32 % 64)) s ∧ (o < 64 ∨ 67 < o) ∧ v < 2048 ∧ vecOr v s = true ∧
    holdoffOver v (advance t s) = true) ∧
    (∃ (t g v : Nat) (s : State), held s = false ∧ has s.irq.waiting (g * 2048 + v) = true ∧ holdoffOver (g * 2048 + v) (advance t s) =
    true) ∧
    (∃ (o c : Nat) (s : State), Admitted o pgPtp s ∧ c < 256) :=
  ⟨⟨0, 65536, sLogTwo, reaches_of (by decide +kernel), by decide +kernel⟩,
   ⟨0, 0, sLogTwo, reaches_of (by decide +kernel), by decide +kernel⟩,
   ⟨resetRecord 1, sLogDma, by decide +kernel⟩,
   ⟨0x160, 7, sPmFull, by decide +kernel⟩,
   ⟨0x1FF, sOvf, by decide +kernel⟩,
   ⟨0, 0x160, sPmFull, admitted_of (by decide +kernel)⟩,
   ⟨0, State.reset, reaches_of (by decide +kernel)⟩,
   ⟨0, 40, State.reset, reaches_of (by decide +kernel)⟩,
   ⟨0, 40, onIrq (fun i => { i with disarmed := [40] }) State.reset, reaches_of (by decide +kernel), vecOf_reset _, by decide +kernel⟩,
   ⟨0, 0, 5, sIrqOn, reaches_of (by decide +kernel), by decide +kernel⟩,
   ⟨0, 0, 2047, sWaiting, by decide +kernel⟩,
   ⟨0, 255, State.reset, admitted_of (by decide +kernel), by decide +kernel⟩⟩

/-- States and operands that meet the hypotheses of each clause of `SdhLineCommands`. -/
theorem witness_sdhLineCommands :
    (∃ (c : Nat) (s : State), held s = false ∧ s.jtag.outOfService = false ∧ sdhEn c s = true ∧ (sch c s).los = false) ∧
    (∃ (c : Nat) (s : State), held s = false ∧ s.jtag.outOfService = false ∧ sdhEn c s = true ∧ (sch c s).los = false) ∧
    (∃ (c : Nat) (s : State), held s = false ∧ s.jtag.outOfService = false ∧ sdhEn c s = true ∧ (sch c s).los = true ∧ (sch c s).frame =
    0) ∧
    (∃ (c : Nat) (s : State), held s = false ∧ s.jtag.outOfService = false ∧ sdhEn c s = true ∧ (sch c s).los = false) ∧
    (∃ (c : Nat) (s : State), held s = false ∧ s.jtag.outOfService = false ∧ sdhEn c s = true ∧ (sch c s).los = true) ∧
    (∃ (c : Nat) (s : State), held s = false ∧ s.jtag.outOfService = false ∧ sdhEn c s = true) ∧
    (∃ (k c a : Nat) (s : State), held s = false ∧ s.jtag.outOfService = false ∧ slotOwner (k / 63) s = some (c, a) ∧ tribUsed k s = true
    ∧ tb tbTrib k 0 2 s = true ∧ tb tbTrib k 0 1 s = false ∧ 144 ≤ List.length (trib k s).raw) ∧
    (∃ (k c a : Nat) (s : State), held s = false ∧ s.jtag.outOfService = false ∧ slotOwner (k / 63) s = some (c, a) ∧ tribUsed k s = true
    ∧ tb tbTrib k 0 2 s = true ∧ tb tbTrib k 0 1 s = true ∧ 3096 ≤ List.length (trib k s).raw) ∧
    (∃ (k c a : Nat) (v : List Byte) (s : State), held s = false ∧ s.jtag.outOfService = false ∧ slotOwner (k / 63) s = some (c, a) ∧
    tribUsed k s = true ∧ tb tbTrib k 0 2 s = true ∧ tb tbTrib k 0 1 s = false ∧ 144 ≤ List.length (trib k s).raw ∧ tb tbTrib k 0 22 s =
    false ∧ (Vc.feed 1 140 105 (ptrRead (trib k s).vc.ptr 140 (byteAt (trib k s).raw 0) (byteAt (trib k s).raw 36)) (sub (trib k s).raw 1
    35) (sub (trib k s).raw 37 35) (sub (trib k s).raw 72 1) (sub (trib k s).raw 73 35 ++ sub (trib k s).raw 109 35) (trib k s).vc).snd =
    [v] ∧ v.length = 140 ∧ tb tbPw (tf tbTrib k 0 8 14 s) 0 0 s = true ∧ tb tbPw (tf tbTrib k 0 8 14 s) 0 1 s = true ∧ tf tbPw (tf tbTrib
    k 0 8 14 s) 0 3 14 s = k) ∧
    (∃ (c : Nat) (s : State), held s = false ∧ s.jtag.outOfService = false ∧ sdhEn c s = true) :=
  ⟨⟨0, sFrm 0 0, by decide +kernel⟩,
   ⟨0, sFrm 0 0, by decide +kernel⟩,
   ⟨0, sSdh (fun x => { x with los := true, oofRun := 23 }), by decide +kernel⟩,
   ⟨0, sFrm 2 0, by decide +kernel⟩,
   ⟨0, sSdh (fun x => { x with los := true }), by decide +kernel⟩,
   ⟨0, sSdh (fun x => { x with los := true }), by decide +kernel⟩,
   ⟨0, 0, 0, sTu12, by decide +kernel⟩,
   ⟨0, 0, 0, sTu3, by decide +kernel⟩,
   ⟨0, 0, 0, vc12, sTu12, by decide +kernel⟩,
   ⟨0, sSdh (fun x => { x with m1Next := 7, lineAct := true }), by decide +kernel⟩⟩

/-- States and operands that meet the hypotheses of each clause of `PseudowireCommands`. -/
theorem witness_pseudowireCommands :
    (∃ (t k : Nat) (b : Bytes) (ch : Nat) (r s : State), held s = false ∧ s.jtag.outOfService = false ∧ pwClose k (advance t s) = some (b,
    ch, r) ∧ (∀ (i : Nat), i < 2 → (look [] s.pac.fifo ((256 + ch) * 2 + i)).length < 4)) ∧
    (∃ (k : Nat) (pay : Nat × Bytes) (s : State), held s = false ∧ s.jtag.outOfService = false ∧ tb tbPw k 0 0 s = true ∧ tb tbPw k 0 2 s
    = true ∧ (pwOf k s).st = 2 ∧ find? (pwOf k s).jb (pwOf k s).next = some pay) ∧
    (∃ (k : Nat) (s : State), held s = false ∧ s.jtag.outOfService = false ∧ tb tbPw k 0 0 s = true ∧ tb tbPw k 0 2 s = true ∧ (pwOf k
    s).st = 2 ∧ find? (pwOf k s).jb (pwOf k s).next = none ∧ (pwOf k s).missing + 1 ≠ lopsEntry k s) ∧
    (∃ (k : Nat) (s : State), held s = false ∧ s.jtag.outOfService = false ∧ tb tbPw k 0 0 s = true ∧ tb tbPw k 0 2 s = true ∧ (pwOf k
    s).st = 2 ∧ find? (pwOf k s).jb (pwOf k s).next = none ∧ (pwOf k s).missing + 1 = lopsEntry k s) ∧
    (∃ (k : Nat) (s : State), held s = false ∧ s.jtag.outOfService = false ∧ tb tbPw k 0 0 s = true ∧ tb tbPw k 0 2 s = true ∧ (pwOf k
    s).st = 3) ∧
    (∃ (c : Nat) (s : State), held s = false ∧ s.jtag.outOfService = false ∧ sdhEn c s = true) ∧
    (∃ (c : Nat) (s : State), held s = false ∧ s.jtag.outOfService = false ∧ sdhEn c s = true ∧ s.sdh.wait15 = true) ∧
    (∃ (o : Nat) (s : State), Reaches o 320 4096 s) :=
  ⟨⟨0, 0, pwClosed.1, pwClosed.2.1, pwClosed.2.2, sGap, by decide +kernel⟩,
   ⟨0, (7, List.replicate 32 1), sPlay, by decide +kernel⟩,
   ⟨0, sGap, by decide +kernel⟩,
   ⟨0, sLopsNext, by decide +kernel⟩,
   ⟨0, sPw (fun x => { x with st := 3 }), by decide +kernel⟩,
   ⟨0, sBins, by decide +kernel⟩,
   ⟨0, sWait15, by decide +kernel⟩,
   ⟨0, State.reset, reaches_of (by decide +kernel)⟩⟩

/-- States and operands that meet the hypotheses of each clause of `PipelineCommands`. -/
theorem witness_pipelineCommands :
    (∃ (x id : Nat) (r : List Nat) (q : Nat) (qs : List Nat) (s : State), held s = false ∧ s.jtag.outOfService = false ∧ rb 352 8 0 s =
    true ∧ List.filter (fun x => pipeActive x s) (List.map (fun i => (s.pac.lastPipe + 1 + i) % 17) (List.range 17)) = q :: qs ∧
    nextSource true s.pac.rrUrgent [] s = some x ∧ look [] s.pac.fifo (x * 2) = id :: r) ∧
    (∃ (q : Nat) (s : State), held s = false ∧ s.pac.heat = some q ∧ s.pac.draining = true ∧ (∀ (e : InPipe), e ∈ s.pac.inPipe → e.pipe ≠
    q) ∧ (∀ (i : Nat), i ∈ s.pac.lookups → ∀ (d : Decision), find? s.pac.dec i = some d → d.pipe ≠ q)) ∧
    (∃ (e : InPipe) (rest : List InPipe) (s : State), held s = false ∧ s.jtag.outOfService = false ∧ s.pac.inPipe = e :: rest) ∧
    (∃ (src seq : Nat) (x : Bool) (c : Compl) (s : State), held s = false ∧ s.jtag.outOfService = false ∧ List.find? (fun c => c.src ==
    src && c.express == x && c.seq == seq) s.pac.comps = some c ∧ seq = look 0 s.pac.seqOut (src * 2 + b2n !x) ∧ (∀ (d : Compl), d ∈
    s.pac.held → d.src = src → d.express ≠ x)) ∧
    (∃ (src seq : Nat) (x : Bool) (c : Compl) (s : State), held s = false ∧ s.jtag.outOfService = false ∧ List.find? (fun c => c.src ==
    src && c.express == x && c.seq == seq) s.pac.comps = some c ∧ 0 < seqAhead c s ∧ seqAhead c s < 2048 ∧ (x = true ∨ stageFull c.pipe s
    = false) ∧ (∀ (d : Compl), d ∈ s.pac.held → d.src = src → d.express = x → d.seq ≠ look 0 s.pac.seqOut (src * 2 + b2n !x)) ∧ seq ≠ look
    0 s.pac.seqOut (src * 2 + b2n !x)) ∧
    (∃ (src seq : Nat) (x : Bool) (c : Compl) (s : State), held s = false ∧ s.jtag.outOfService = false ∧ List.find? (fun c => c.src ==
    src && c.express == x && c.seq == seq) s.pac.comps = some c ∧ 2048 ≤ seqAhead c s) ∧
    (∃ (src : Nat) (d : Compl) (s : State), held s = false ∧ s.jtag.outOfService = false ∧ d ∈ s.pac.held ∧ d.src = src ∧ d.express =
    false ∧ (∀ (e : Compl), e ∈ s.pac.held → e.src = src → e.express = false → e.seq ≠ (look 0 s.pac.seqOut (src * 2 + 1) + 1) % 4096)) ∧
    (∃ (s : State), held s = false ∧ rb 352 276 0 s = true ∧ rb 352 8 0 s = true) ∧
    (∃ (t part : Nat) (s : State), held s = false ∧ rb 352 276 0 s = true ∧ rb 352 8 0 s = true ∧ s.pac.slotWr ≠ some (s.pac.scanNext,
    cycUp 352 (advance t s).tim.up) ∧ part ≤ 2 ∧ (tb tbCls (if bitOf (rd 352 264 s) (s.pac.scanNext / 8192) = true then s.pac.scanNext / 2
    * 2 else s.pac.scanNext) 0 0 s = true)) :=
  ⟨⟨5, 9, [], 1, [2,3,4,5,6,7,8,9,10,11,12,13,14,15,16], sPac, by decide +kernel⟩,
   ⟨3, sDrain, by decide +kernel⟩,
   ⟨⟨0, 5, 4⟩, [⟨7, 5, 5⟩], sInPipe, by decide +kernel⟩,
   ⟨5, 0, true, ⟨5, true, 0, some 9, 0⟩, sComps, by decide +kernel⟩,
   ⟨5, 3, false, ⟨5, false, 3, some 8, 1⟩, sComps, by decide +kernel⟩,
   ⟨5, 2100, false, ⟨5, false, 2100, some 7, 2⟩, sComps, by decide +kernel⟩,
   ⟨5, ⟨5, false, 3, some 9, 0⟩, sHeldBulk, by decide +kernel⟩,
   ⟨wr 0x160 0x114 1 sScan, by decide +kernel⟩,
   ⟨0, 1, tput tbCls 131071 0 1 (wr 0x160 0x114 1 sScan), by decide +kernel⟩⟩

/-- States and operands that meet the hypotheses of each clause of `TableCommandsEnd`. -/
theorem witness_tableCommandsEnd :
    (∃ (tab i : Nat) (s : State), held s = false ∧ nextSlot tab s = some i ∧ (ftbSlot i s).op = 1) ∧
    (∃ (tab i : Nat) (s : State), held s = false ∧ nextSlot tab s = some i ∧ (ftbSlot i s).op = 2) :=
  ⟨⟨4, 127, sCmd 4 1 [0, 16, 0], by decide +kernel⟩,
   ⟨1, 127, sCmd 1 2 [], by decide +kernel⟩⟩

/-- States and operands that meet the hypotheses of each clause of `TableCommandsAct`. -/
theorem witness_tableCommandsAct :
    (∃ (i : Nat) (s : State), held s = false ∧ nextSlot 4 s = some i ∧ (ftbSlot i s).table = 4 ∧ (ftbSlot i s).op = 1 ∧ badArg (ftbSlot i
    s) = false ∧ resultOk 4 (slotFn i) (ftbSlot i s).data s = true ∧ find? s.ftb.mpls ((ftbSlot i s).w 2 % 2 ^ 20) = none) ∧
    (∃ (i : Nat) (s : State), held s = false ∧ nextSlot 4 s = some i ∧ (ftbSlot i s).table = 4 ∧ (ftbSlot i s).op = 2) ∧
    (∃ (i : Nat) (s : State), held s = false ∧ nextSlot 4 s = some i ∧ (ftbSlot i s).table = 4 ∧ (ftbSlot i s).op = 2) ∧
    (∃ (tab i : Nat) (s : State), held s = false ∧ nextSlot tab s = some i ∧ (ftbSlot i s).table = tab ∧ (ftbSlot i s).op = 3) ∧
    (∃ (i : Nat) (s : State), held s = false ∧ nextSlot 0 s = some i ∧ (ftbSlot i s).table = 0 ∧ (ftbSlot i s).op = 5 ∧ (nbit ((ftbSlot i
    s).w 0) 15 = true → partFid (slotFn i) (ftbSlot i s).vrf s = true) ∧ resultOk 0 (slotFn i) [(ftbSlot i s).w 12 % 2 ^ 22] s = true) ∧
    (∃ (tab i : Nat) (s : State), held s = false ∧ nextSlot tab s = some i ∧ (ftbSlot i s).table = tab ∧ (ftbSlot i s).op = 4 ∧ (∀ (w :
    Walk), find? s.ftb.walks tab = some w → w.slot = i) ∧ List.find? (fun k => decide ((ftbSlot i s).w 2 % 2 ^ 23 ≤ k)) (partIdx tab
    (slotFn i) s) = none) ∧
    (∃ (tab i : Nat) (s : State) (k : Nat), held s = false ∧ nextSlot tab s = some i ∧ (ftbSlot i s).table = tab ∧ (ftbSlot i s).op = 4 ∧
    (∀ (w : Walk), find? s.ftb.walks tab = some w → w.slot = i) ∧ List.find? (fun k => decide ((ftbSlot i s).w 2 % 2 ^ 23 ≤ k)) (partIdx
    tab (slotFn i) s) = some k) ∧
    (∃ (tab i : Nat) (s : State), held s = false ∧ nextSlot tab s = some i ∧ (ftbSlot i s).table = tab ∧ (tab = 2 ∨ tab = 3) ∧ (ftbSlot i
    s).op = 6 ∧ badArg (ftbSlot i s) = false ∧ partVrf (slotFn i) (ftbSlot i s).vrf s = true ∧ lpmBroken (tab == 3) (ftbSlot i s).vrf
    ((ftbSlot i s).addr (tab == 3)) s = false) ∧
    (∃ (tab i : Nat) (s : State), held s = false ∧ nextSlot tab s = some i ∧ (ftbSlot i s).table = tab ∧ (tab = 2 ∨ tab = 3) ∧ (ftbSlot i
    s).op = 6 ∧ badArg (ftbSlot i s) = false ∧ partVrf (slotFn i) (ftbSlot i s).vrf s = true ∧ lpmBroken (tab == 3) (ftbSlot i s).vrf
    ((ftbSlot i s).addr (tab == 3)) s = false) ∧
    (∃ (tab i : Nat) (s : State), held s = false ∧ nextSlot tab s = some i ∧ (ftbSlot i s).table = tab ∧ (ftbSlot i s).op = 7 ∧ (∀ (w :
    Walk), find? s.ftb.walks tab = some w → w.slot = i)) :=
  ⟨⟨127, sCmd 4 1 [0, 16, 0], by decide +kernel⟩,
   ⟨127, onFtb (fun f => { f with mpls := [(16, ⟨[], 0⟩)] }) (sCmd 4 2 [0, 16, 0]), by decide +kernel⟩,
   ⟨127, sCmd 4 2 [0, 16, 0], by decide +kernel⟩,
   ⟨0, 127, sCmd 0 3 [], by decide +kernel⟩,
   ⟨127, setSlot 127 (slotD 0 5 [0,0,0,0,0,0,0,0,0,0,0,6]) sMac, by decide +kernel⟩,
   ⟨0, 127, setSlot 127 (slotD 0 4 [0, 9]) sMac, by decide +kernel⟩,
   ⟨0, 127, setSlot 127 (slotD 0 4 [0, 0]) sMac, 0, by decide +kernel⟩,
   ⟨2, 127, onFtb (fun f => { f with v4 := [(0, ⟨0, 8, 0x0A000000, [], 0⟩)] }) (sCmd 2 6 [0x200000, 0x0A000001]), by decide +kernel⟩,
   ⟨2, 127, sCmd 2 6 [0x200000, 0x0A000001], by decide +kernel⟩,
   ⟨4, 127, onFtb (fun f => { f with walks := [(4, ⟨127, 0, 0⟩)] }) (sCmd 4 7 []), by decide +kernel⟩⟩

/-- States and operands that meet the hypotheses of each clause of `TableEngineCommands`. -/
theorem witness_tableEngineCommands :
    (∃ (id : Nat) (d : Decision) (s : State), held s = false ∧ s.jtag.outOfService = false ∧ has s.pac.lookups id = true ∧ find? s.pac.dec
    id = some d) ∧
    (∃ (id : Nat) (d : Decision) (s : State), held s = false ∧ s.jtag.outOfService = false ∧ has s.pac.lookups id = true ∧ find? s.pac.dec
    id = some d ∧ d.act.op = 3 ∧ pairOf (frm id s).gen (frm id s).src s = none) ∧
    (∃ (r : LearnReq) (q : List LearnReq) (i : Nat) (e : MacE) (s : State), held s = false ∧ pairPassive s = false ∧ s.ftb.learnQ = r :: q
    ∧ macFind r.fid r.mac s = some (i, e) ∧ r.move = true ∧ e.static = false ∧ e.dest ≠ r.dport ∧ r.mode ≠ 2) ∧
    (∃ (r : LearnReq) (q : List LearnReq) (s : State), held s = false ∧ pairPassive s = false ∧ s.ftb.learnQ = r :: q ∧ macFind r.fid
    r.mac s = none ∧ r.move = false ∧ r.mode ≠ 2 ∧ learnFn r.fid s = none) ∧
    (∃ (e : MacE) (s : State), held s = false ∧ pairPassive s = false ∧ rf 368 280 0 16 s ≠ 0 ∧ find? s.ftb.mac s.ftb.ageNext = some e ∧
    e.static = false) ∧
    (∃ (e : MacE) (s : State), held s = false ∧ pairPassive s = false ∧ rf 368 280 0 16 s ≠ 0 ∧ find? s.ftb.mac s.ftb.ageNext = some e ∧
    e.static = false) ∧
    (∃ (e : FlowE) (s : State), held s = false ∧ pairPassive s = false ∧ rf 368 280 0 16 s ≠ 0 ∧ rb 368 280 16 s = true ∧ find? s.ftb.flow
    s.ftb.flowNext = some e ∧ nbit (e.data.getD 2 0) 9 = true) ∧
    (∃ (e : FlowE) (s : State), held s = false ∧ pairPassive s = false ∧ rf 368 280 0 16 s ≠ 0 ∧ rb 368 280 16 s = true ∧ find? s.ftb.flow
    s.ftb.flowNext = some e ∧ nbit (e.data.getD 2 0) 9 = true) ∧
    (∃ (t tab : Nat) (w : Walk) (s : State), held s = false ∧ find? s.ftb.walks tab = some w ∧ w.last + 10 ^ 9 * 2 ^ 32 ≤ (advance t
    s).tim.up) ∧
    (∃ (t tab : Nat) (w : Walk) (s : State), held s = false ∧ find? s.ftb.walks tab = some w ∧ (advance t s).tim.up < w.last + 10 ^ 9 * 2
    ^ 32) ∧
    (∃ (c : Nat) (r : List Nat) (s : State), held s = false ∧ s.ftb.downFlush = c :: r) ∧
    (∃ (s : State), held s = false ∧ s.ftb.badNodes ≠ []) ∧
    (∃ (idx bad : Nat) (e : MacE) (s : State), held s = false ∧ rb 368 288 0 s = true ∧ bad ≠ 0 ∧ find? s.ftb.mac idx = some e) ∧
    (∃ (o : Nat) (s : State), Reaches o 368 320 s) ∧
    (∃ (o off i : Nat) (s : State), Admitted o 372 s ∧ cntWin off s = some (i, 0)) :=
  ⟨⟨0, ⟨{}, some 8, {}, false, 0, 3, 1, none⟩, sDec, by decide +kernel⟩,
   ⟨0, ⟨{}, some 8, { w0 := 3, w1 := 7 }, false, 0, 3, 1, none⟩, sRedir, by decide +kernel⟩,
   ⟨⟨3, true, 1, 0x10, 9, 1⟩, [], 0, ⟨1, 0x10, 5, false, true, false, 0⟩, sLearn, by decide +kernel⟩,
   ⟨⟨3, false, 9999, 0x10, 9, 1⟩, [], onFtb (fun f => { f with learnQ := [⟨3, false, 9999, 0x10, 9, 1⟩] }) sMac, by decide +kernel⟩,
   ⟨⟨1, 0x11, 6, false, false, true, 0⟩, sLearn, by decide +kernel⟩,
   ⟨⟨1, 0x11, 6, false, false, true, 0⟩, sLearn, by decide +kernel⟩,
   ⟨⟨0, 1, [], [1, 2, 512, 0], true, false, 0⟩, sFlowAge, by decide +kernel⟩,
   ⟨⟨0, 1, [], [1, 2, 512, 0], true, false, 0⟩, sFlowAge, by decide +kernel⟩,
   ⟨10 ^ 9 * 65536, 4, ⟨127, 0, 0⟩, sWalk, by decide +kernel⟩,
   ⟨5, 4, ⟨127, 0, 0⟩, sWalk, by decide +kernel⟩,
   ⟨3, [4], onFtb (fun f => { f with downFlush := [3, 4] }) (tput tbPort 3 0 6 sMac), by decide +kernel⟩,
   ⟨onFtb (fun f => { f with badNodes := [⟨false, 1, 0, 0⟩] }) State.reset, by decide +kernel⟩,
   ⟨8, 1, ⟨1, 0x11, 6, false, false, true, 0⟩, sMac, by decide +kernel⟩,
   ⟨0, onFtb (fun f => { f with notify := [⟨1, 1, 1, 1⟩, ⟨2, 1, 1, 1⟩] }) State.reset, reaches_of (by decide +kernel)⟩,
   ⟨0, 0x7FF0, 1023, onFtb (fun f => { f with cnt := [(1023, (7, 8))] }) (wr 0x174 0x104 1 State.reset), admitted_of (by decide +kernel),
   by decide +kernel⟩⟩

/-- States and operands that meet the hypotheses of each clause of `ExpressCommands`. -/
theorem witness_expressCommands :
    (∃ (id : Nat) (rest : List (Nat × Nat)) (d : Decision) (s : State), held s = false ∧ s.jtag.outOfService = false ∧ rb pgExp 8 0 s =
    true ∧ nextCheck s = some (id, rest) ∧ find? s.pac.dec id = some d ∧ find? s.exp.frames id = none ∧ id < s.lic.nextFrame) ∧
    (∃ (id : Nat) (rest : List (Nat × Nat)) (d : Decision) (s : State), held s = false ∧ s.jtag.outOfService = false ∧ rb pgExp 8 0 s =
    true ∧ nextCheck s = some (id, rest) ∧ find? s.pac.dec id = some d ∧ pdelayStops (frm id s).src d.parse.ptp s = false ∧ ((frm id
    s).src < 256 → pairOf (frm id s).gen (frm id s).src s = none) ∧ tb tbCon (conIdx (expBank (frm id s).gen s) d.contract) 0 0 s = true ∧
    tf tbCon (conIdx (expBank (frm id s).gen s) d.contract) 0 1 3 s = 0 ∧ pairOf (frm id s).gen (tf tbCon (conIdx (expBank (frm id s).gen
    s) d.contract) 1 0 20 s % 256) s = none ∧ chUp (tf tbCon (conIdx (expBank (frm id s).gen s) d.contract) 1 0 20 s % 256) s = false ∧ id
    < s.lic.nextFrame) ∧
    (∃ (id : Nat) (rest : List (Nat × Nat)) (d : Decision) (s : State), held s = false ∧ s.jtag.outOfService = false ∧ rb pgExp 8 0 s =
    true ∧ nextCheck s = some (id, rest) ∧ find? s.pac.dec id = some d ∧ pdelayStops (frm id s).src d.parse.ptp s = false ∧ ((frm id
    s).src < 256 → pairOf (frm id s).gen (frm id s).src s = none) ∧ tb tbCon (conIdx (expBank (frm id s).gen s) d.contract) 0 0 s = true ∧
    tf tbCon (conIdx (expBank (frm id s).gen s) d.contract) 0 1 3 s = 0 ∧ pairOf (frm id s).gen (tf tbCon (conIdx (expBank (frm id s).gen
    s) d.contract) 1 0 20 s % 256) s = none ∧ chUp (tf tbCon (conIdx (expBank (frm id s).gen s) d.contract) 1 0 20 s % 256) s = true ∧
    inflight (8 * (tf tbCon (conIdx (expBank (frm id s).gen s) d.contract) 1 0 20 s % 256) + d.cls.getD 0) s < alwInflight (alwIdx
    (expBank (frm id s).gen s) (8 * (tf tbCon (conIdx (expBank (frm id s).gen s) d.contract) 1 0 20 s % 256) + d.cls.getD 0)) s ∧
    (polExpTake (conIdx (expBank (frm id s).gen s) d.contract) d.contract (frm id s).stamp s).fst = true ∧ dupSeal (conIdx (expBank (frm
    id s).gen s) d.contract) s = 0 ∧ List.length (frm id s).bytes ≤ conMaxlen (conIdx (expBank (frm id s).gen s) d.contract) s) ∧
    (∃ (id n : Nat) (x : XFrame) (c : XCopy) (ch : Nat) (s : State), held s = false ∧ s.jtag.outOfService = false ∧ find? s.exp.frames id
    = some x ∧ x.copies[n]? = some c ∧ c.dst = XDst.chan ch ∧ c.committed = false ∧ c.gone = false ∧ c.wait = none ∧ x.held = false ∧
    (c.cut = true ∨ (frm id s).ended = true ∧ x.verdict = some true)) ∧
    (∃ (id n : Nat) (x : XFrame) (c : XCopy) (ch : Nat) (s : State), held s = false ∧ s.jtag.outOfService = false ∧ find? s.exp.frames id
    = some x ∧ x.copies[n]? = some c ∧ c.dst = XDst.chan ch ∧ c.committed = false ∧ c.gone = false ∧ c.wait = none ∧ x.held = false ∧
    (c.cut = true ∨ (frm id s).ended = true ∧ x.verdict = some true)) ∧
    (∃ (t id n : Nat) (x : XFrame) (c : XCopy) (e k : Nat) (s : State), held s = false ∧ find? s.exp.frames id = some x ∧ x.copies[n]? =
    some c ∧ c.wait = some (e, k) ∧ (e ≤ (advance t s).tim.up ∨ linkBusy k x.contract s = false)) ∧
    (∃ (t id n : Nat) (x : XFrame) (c : XCopy) (e k : Nat) (s : State), held s = false ∧ find? s.exp.frames id = some x ∧ x.copies[n]? =
    some c ∧ c.wait = some (e, k) ∧ (advance t s).tim.up < e ∧ linkBusy k x.contract s = true) ∧
    (∃ (id : Nat) (x : XFrame) (s : State), (∀ (c : XCopy), c ∈ x.copies → c.committed = true → ∃ ch, c.dst = XDst.chan ch) ∧ held s =
    false ∧ s.jtag.outOfService = false ∧ find? s.exp.frames id = some x ∧ (frm id s).ended = true ∧ x.units = [] ∧ x.verdict = none ∧
    verdictCause id x s = 0) ∧
    (∃ (id : Nat) (x : XFrame) (s : State), (∀ (c : XCopy), c ∈ x.copies → ∃ ch, c.dst = XDst.chan ch) ∧ held s = false ∧
    s.jtag.outOfService = false ∧ find? s.exp.frames id = some x ∧ (frm id s).ended = true ∧ x.units = [] ∧ x.verdict = none ∧
    verdictCause id x s ≠ 0 ∧ x.mcast = false ∧ id < s.lic.nextFrame ∧ (x.copies.any fun c => c.committed && !c.gone) = true) :=
  ⟨⟨0, [], xdec, sOutX, by decide +kernel⟩,
   ⟨0, [], xdec, sContract, by decide +kernel⟩,
   ⟨0, [], xdec, sContractUp, by decide +kernel⟩,
   ⟨0, 0, xframe, xcopy, 3, sXf (fun x => x), by decide +kernel⟩,
   ⟨0, 0, { xframe with verdict := some true, copies := [{ xcopy with cut := false }] }, { xcopy with cut := false }, 3, sXf (fun x =>
   { x with verdict := some true, copies := [{ xcopy with cut := false }] }), by decide +kernel⟩,
   ⟨1, 0, 0, { xframe with copies := [{ xcopy with wait := some (9, 2) }] }, { xcopy with wait := some (9, 2) }, 9, 2, sXf (fun x =>
   { x with copies := [{ xcopy with wait := some (9, 2) }] }), by decide +kernel⟩,
   ⟨0, 0, 0, xHeld, { xcopy with wait := some (9, 2) }, 9, 2, sHoldBusy, by decide +kernel⟩,
   ⟨0, xframe, sBadX false, (fun c hc _ => allChan_of (by decide +kernel) c hc), by decide +kernel⟩,
   ⟨0, { xframe with copies := [{ xcopy with committed := true }] }, onExp (fun e =>
   { e with frames := [(0, { xframe with copies := [{ xcopy with committed := true }] })] }) (sBadX true), allChan_of (by decide +kernel),
   by decide +kernel⟩⟩

/-- States and operands that meet the hypotheses of each clause of `BadFrameNeverLeaves`. -/
theorem witness_badFrameNeverLeaves :
    ∃ (id : Nat) (x : XFrame) (s : State), held s = false ∧ s.jtag.outOfService = false ∧ find? s.exp.frames id = some x ∧ (frm id
    s).ended = true ∧ x.units = [] ∧ x.verdict = none ∧ verdictCause id x s ≠ 0 ∧ (x.copies.any fun c => c.committed && !c.gone) = false ∧
    (x.copies.any fun c => !c.gone) = true ∧ id < s.lic.nextFrame :=
  ⟨0, xframe, sBadX true, by decide +kernel⟩

/-- States and operands that meet the hypotheses of each clause of `SealAndHistogramCommands`. -/
theorem witness_sealAndHistogramCommands :
    (∃ (u : Nat) (x : XFrame) (s : State), held s = false ∧ s.jtag.outOfService = false ∧ find? s.exp.frames (unit u s).frame = some x ∧
    x.units.contains u = true ∧ ((unit u s).st = 1 ∨ (unit u s).st = 2) ∧ (frm (unit u s).frame s).ended = true) ∧
    (∃ (u : Nat) (x : XFrame) (s : State), held s = false ∧ s.jtag.outOfService = false ∧ find? s.exp.frames (unit u s).frame = some x ∧
    x.units.contains u = true ∧ ((unit u s).st = 1 ∨ (unit u s).st = 2) ∧ (frm (unit u s).frame s).ended = true) ∧
    (∃ (u : Nat) (s : State), Reaches 80 395 284 s ∧ u < 64 ∧ (unit u s).st = 3) ∧
    (∃ (t i : Nat) (n : Node) (s : State), held s = false ∧ find? s.exp.nodes i = some n ∧ n.static = false ∧ n.seen + rf 392 256 16 16 s
    * 10 ^ 9 * 2 ^ 32 ≤ (advance t s).tim.up) ∧
    (∃ (t i : Nat) (n : Node) (s : State), held s = false ∧ find? s.exp.nodes i = some n ∧ (n.static = true ∨ (advance t s).tim.up <
    n.seen + rf 392 256 16 16 s * 10 ^ 9 * 2 ^ 32)) ∧
    (∃ (o h : Nat) (s : State), Admitted o 390 s ∧ h < 64) ∧
    (∃ (o h : Nat) (s : State), Admitted o 390 s ∧ h < 64) :=
  ⟨⟨63, { xframe with units := [63] }, sUnit 1, by decide +kernel⟩,
   ⟨63, { xframe with units := [63] }, sUnit 2, by decide +kernel⟩,
   ⟨63, sUnit 3, reaches_of (by decide +kernel), by decide +kernel⟩,
   ⟨60 * 10 ^ 9 * 65536, 7, aNode, sNode, by decide +kernel⟩,
   ⟨0, 7, aNode, sNode, by decide +kernel⟩,
   ⟨0, 63, sHist, admitted_of (by decide +kernel), by decide +kernel⟩,
   ⟨0, 63, sHist, admitted_of (by decide +kernel), by decide +kernel⟩⟩

/-- States and operands that meet the hypotheses of each clause of `BankCopyDone`. -/
theorem witness_bankCopyDone :
    ∃ (s : State), held s = false ∧ s.exp.copyBusy = true :=
  ⟨sCopyBank, by decide +kernel⟩

/-- States and operands that meet the hypotheses of each clause of `BerthCommands`. -/
theorem witness_berthCommands :
    (∃ (t : Nat) (r : Reqr) (id : Nat) (x : BDesc) (s : State) (b : Nat), held s = false ∧ s.jtag.outOfService = false ∧ rb pgBas 8 0 s =
    true ∧ s.bas.waiting = [] ∧ (find? (if r = Reqr.ingress then ingressArrive id (advance t s) else advance t s).bas.desc id = some x) ∧
    x.req = r ∧ 256 * x.berths.length < List.length (frm id s).bytes ∧ (s.bas.cycle = tmCycle (advance t s) → s.bas.turn ≤ reqrCode r ∧
    look 0 s.bas.ports (reqrCode r) < reqrPorts r) ∧ (poolUsed (reqPool x (frm id s).gen s) s < poolMin (frm id s).gen (reqPool x (frm id
    s).gen s) s ∨ poolUsed (reqPool x (frm id s).gen s) s < poolMax (frm id s).gen (reqPool x (frm id s).gen s) s ∧ s.bas.shared <
    sharedSize s) ∧ (nextBerth s.bas.used (if s.bas.cycle = tmCycle (advance t s) then s.bas.banks else []) s.bas.lastBank 24576 = some
    b)) ∧
    (∃ (t : Nat) (r : Reqr) (id : Nat) (x : BDesc) (s : State), held s = false ∧ s.jtag.outOfService = false ∧ rb pgBas 8 0 s = true ∧
    s.bas.waiting = [] ∧ (find? (if r = Reqr.ingress then ingressArrive id (advance t s) else advance t s).bas.desc id = some x) ∧ x.req =
    r ∧ 256 * x.berths.length < List.length (frm id s).bytes ∧ (s.bas.cycle = tmCycle (advance t s) → s.bas.turn ≤ reqrCode r ∧ look 0
    s.bas.ports (reqrCode r) < reqrPorts r) ∧ (¬(poolUsed (reqPool x (frm id s).gen s) s < poolMin (frm id s).gen (reqPool x (frm id
    s).gen s) s ∨ poolUsed (reqPool x (frm id s).gen s) s < poolMax (frm id s).gen (reqPool x (frm id s).gen s) s ∧ s.bas.shared <
    sharedSize s)) ∧ r ≠ Reqr.capture) ∧
    (∃ (i p : Nat) (s : State), held s = false ∧ i ∈ s.bas.used ∧ List.find? (fun e => e.fst == i) s.bas.rel = some (i, p)) ∧
    (∃ (i p : Nat) (s : State), held s = false ∧ i ∈ s.bas.deepUsed ∧ List.find? (fun e => e.fst == i) s.bas.relDeep = some (i, p) ∧ has
    s.mem.retired i = false) ∧
    (∃ (i : Nat) (deep : Bool) (s : State), held s = false ∧ (has (if deep = true then s.bas.deepUsed else s.bas.used) i = false)) ∧
    (∃ (i : Nat) (deep : Bool) (s : State), held s = false ∧ (has (if deep = true then s.bas.deepUsed else s.bas.used) i = false)) :=
  ⟨⟨0, .host, 0, hostDesc [], sBerth false [], 0, by decide +kernel⟩,
   ⟨0, .host, 0, hostDesc [], sBerthFull, by decide +kernel⟩,
   ⟨3, 0, sRel, by decide +kernel⟩,
   ⟨7, 0, sRelDeep, by decide +kernel⟩,
   ⟨7, false, sRel, by decide +kernel⟩,
   ⟨7, true, sRel, by decide +kernel⟩⟩

/-- States and operands that meet the hypotheses of each clause of `BulkAdmission`. -/
theorem witness_bulkAdmission :
    (∃ (id : Nat) (x : BDesc) (s : State), held s = false ∧ s.jtag.outOfService = false ∧ rb pgBas 8 0 s = true ∧ find? s.bas.desc id =
    some x ∧ admitReady id x s = true ∧ admitAhead id s = [] ∧ ((frm id s).bad || has s.exp.bulkDup id) = true) ∧
    (∃ (id : Nat) (x : BDesc) (q : Nat) (s : State) (m : Bool), held s = false ∧ s.jtag.outOfService = false ∧ rb pgBas 8 0 s = true ∧
    find? s.bas.desc id = some x ∧ admitReady id x s = true ∧ admitAhead id s = [] ∧ (frm id s).bad = false ∧ has s.exp.bulkDup id = false
    ∧ (destCheck id x s).fst = some q ∧ x.policer = none ∧ (weirJudge q (List.length (frm id s).bytes) (if x.colour = 3 then 0 else
    x.colour) x.ect s = WeirOut.pass m) ∧ x.mirror = none ∧ x.copyHost = none ∧ (x.req = Reqr.ingress → x.src < 256 → rxMirror x.src s =
    none)) ∧
    (∃ (id : Nat) (x : BDesc) (q : Nat) (s : State), held s = false ∧ s.jtag.outOfService = false ∧ rb pgBas 8 0 s = true ∧ find?
    s.bas.desc id = some x ∧ admitReady id x s = true ∧ admitAhead id s = [] ∧ (frm id s).bad = false ∧ has s.exp.bulkDup id = false ∧
    (destCheck id x s).fst = some q ∧ x.policer = none ∧ (∀ (m : Bool), weirJudge q (List.length (frm id s).bytes) (if x.colour = 3 then 0
    else x.colour) x.ect s ≠ WeirOut.pass m)) ∧
    (∃ (id : Nat) (x : BDesc) (g : Nat) (s : State), held s = false ∧ s.jtag.outOfService = false ∧ rb pgBas 8 0 s = true ∧ find?
    s.bas.desc id = some x ∧ admitReady id x s = true ∧ admitAhead id s = [] ∧ (frm id s).bad = false ∧ has s.exp.bulkDup id = false ∧
    x.dest = BDest.mcast g ∧ tb tbBGrp g 0 0 s = false) :=
  ⟨⟨0, hostDesc [3], sBerth true [3], by decide +kernel⟩,
   ⟨0, hostDesc [3], 5, sBerth false [3], false, by decide +kernel⟩,
   ⟨0, hostDesc [3], 5, sWeirDrop, by decide +kernel⟩,
   ⟨0, { hostDesc [3] with dest := .mcast 9 }, 9, onBas (fun b => { b with desc := [(0, { hostDesc [3] with dest := .mcast 9 })] })
   (sBerth false [3]), by decide +kernel⟩⟩

/-- States and operands that meet the hypotheses of each clause of `BasinCommands`. -/
theorem witness_basinCommands :
    (∃ (s : State), held s = false ∧ rb pgBas 256 0 s = true ∧ s.bas.memReady = true ∧ rf pgBas 260 0 7 s * berthCount ≤ s.bas.used.length
    * 100) ∧
    (∃ (s : State), held s = false ∧ s.bas.used.length * 100 < rf pgBas 260 8 7 s * berthCount) ∧
    (∃ (q : Nat) (run : List QEnt) (s : State), held s = false ∧ s.bas.moving = true ∧ moverQueue s = some (q, run)) ∧
    (∃ (q : Nat) (run : List QEnt) (s : State), held s = false ∧ s.bas.moving = true ∧ moverQueue s = some (q, run)) ∧
    (∃ (s : State), held s = false) ∧
    (∃ (c : Nat) (r : List Nat) (s : State), held s = false ∧ s.bas.downPend = c :: r) ∧
    (∃ (f : FlushJob) (r : List FlushJob) (s : State), held s = false ∧ s.bas.flushes = f :: r) ∧
    (∃ (q : Nat) (s : State), held s = false ∧ tf tbBq q 0 16 16 s ≠ 0) ∧
    (∃ (o : Nat) (s : State), Reaches o pgBas 296 s ∧ flushBusy s = false) :=
  ⟨⟨sMover, by decide +kernel⟩,
   ⟨State.reset, by decide +kernel⟩,
   ⟨5, ((moverQueue (sMoving 0)).getD (0, [])).2, sMoving 0, by decide +kernel⟩,
   ⟨5, ((moverQueue (sMoving 65536)).getD (0, [])).2, sMoving 65536, by decide +kernel⟩,
   ⟨sDeepQ, by decide +kernel⟩,
   ⟨0, [3], onBas (fun b => { b with downPend := [0, 3] }) (sQ qEg [{ qent 0 with started := true }, qent 0]), by decide +kernel⟩,
   ⟨⟨true, 1⟩, default, onBas (fun b => { b with flushes := [⟨true, 1⟩] }) State.reset, by decide +kernel⟩,
   ⟨5, tput tbBq 5 0 0x10001 (sQ 5 [qent 0, qent 0]), by decide +kernel⟩,
   ⟨0, wr pgBas 0x124 5 (sQ 5 [{ qent 0 with started := true }, qent 0]), reaches_of (by decide +kernel), by decide +kernel⟩⟩

/-- States and operands that meet the hypotheses of each clause of `PacerCommands`. -/
theorem witness_pacerCommands :
    (∃ (t p : Nat) (c : Chain) (s : State), held s = false ∧ s.jtag.outOfService = false ∧ rb pgPcr 8 0 s = true ∧ p < 1280 ∧
    s.pair.egressHold = false ∧ grantLeft p (advance t s) = true ∧ selectDown 4 (liveAt 0 (chainsOf p (syncPort p none (findMiswired p
    (advance t s)))) (syncPort p none (findMiswired p (advance t s)))) (syncPort p none (findMiswired p (advance t s))) = some c ∧
    isEgress c.q = true ∧ txMirror (chanOfQ c.q) s = none) ∧
    (∃ (t p : Nat) (s : State), held s = false ∧ s.jtag.outOfService = false ∧ grantLeft p (advance t s) = false) ∧
    (∃ (k n : Nat) (r : List (Nat × Nat)) (s : State), held s = false ∧ s.pcr.ret = (k, n) :: r) ∧
    (∃ (lvl : Nat) (s : State), held s = false ∧ lvl ≤ 4 ∧ rb pgPcr 8 0 s = true) ∧
    (∃ (t c : Nat) (e : GateEv) (s : State), held s = false ∧ (gateCh c s).pend = none ∧ (gateCh c s).notes.length < 64 ∧ c < 256 ∧ rb
    pgGate 8 0 s = true ∧ gateNext c ((gateCh c s).sent.getD (nowStamp (advance t s) - 1)) s = some e) ∧
    (∃ (t c : Nat) (n : GateNote) (r : List GateNote) (s : State), held s = false ∧ (gateCh c s).pend = none ∧ (gateCh c s).notes = n :: r
    ∧ n.at_ ≤ nowStamp (advance t s)) ∧
    (∃ (t c : Nat) (n : GateNote) (r : List GateNote) (s : State), held s = false ∧ (gateCh c s).pend = none ∧ (gateCh c s).notes = n :: r
    ∧ nowStamp (advance t s) < n.at_) ∧
    (∃ (t c f : Nat) (s : State), held s = false ∧ (gateCh c s).pend = none ∧ (gateCh c s).follow = some f ∧ f ≤ nowStamp (advance t s) ∧
    (gateCh c s).notes = []) :=
  ⟨⟨0, 0, chain0, sGrant, by decide +kernel⟩,
   ⟨0, 0, sSpent, by decide +kernel⟩,
   ⟨7, 9, [(8, 1)], sRet, by decide +kernel⟩,
   ⟨4, wr pgPcr 8 1 State.reset, by decide +kernel⟩,
   ⟨65536, 255, ((gateNext 255 65535 (sGate id)).getD ⟨0, 0⟩), sGate id, by decide +kernel⟩,
   ⟨0, 255, ⟨0, 5, some 9⟩, [⟨9, 1, none⟩], sGate (fun g => { g with notes := [⟨0, 5, some 9⟩, ⟨9, 1, none⟩] }), by decide +kernel⟩,
   ⟨0, 255, ⟨9, 5, some 9⟩, [], sGate (fun g => { g with notes := [⟨9, 5, some 9⟩] }), by decide +kernel⟩,
   ⟨0, 255, 0, sGate (fun g => { g with follow := some 0 }), by decide +kernel⟩⟩

/-- States and operands that meet the hypotheses of each clause of `PauseJudgement`. -/
theorem witness_pauseJudgement :
    (∃ (c : Nat) (s : State), held s = false ∧ c < 256 ∧ rb 422 8 0 s = true ∧ bitOf (rd 422 (4096 + 4 * c) s) 0 = true ∧ bitOf (rd 422
    (4096 + 4 * c) s) 1 = true ∧ find? s.pcr.off (8 * c) = none ∧ (List.map (fun k => heldBytes c k s) (List.filter (fun k => nbit (fld
    (rd 422 (4096 + 4 * c) s) 2 8) k) (List.range 8))).sum < fld (pfcReg (fld (rd 422 (4096 + 4 * c) s) 10 5) 0 s) 0 21 * 256) ∧
    (∃ (c : Nat) (s : State), held s = false ∧ c < 256 ∧ rb 422 8 0 s = true ∧ bitOf (rd 422 (4096 + 4 * c) s) 0 = true ∧ bitOf (rd 422
    (4096 + 4 * c) s) 1 = true ∧ find? s.pcr.off (8 * c) = none ∧ fld (pfcReg (fld (rd 422 (4096 + 4 * c) s) 10 5) 0 s) 0 21 * 256 ≤
    (List.map (fun k => heldBytes c k s) (List.filter (fun k => nbit (fld (rd 422 (4096 + 4 * c) s) 2 8) k) (List.range 8))).sum) :=
  ⟨⟨255, sPfc 64, by decide +kernel⟩,
   ⟨255, sPfc 256, by decide +kernel⟩⟩

/-- States and operands that meet the hypotheses of each clause of `BargeCommands`. -/
theorem witness_bargeCommands :
    (∃ (f : Nat) (r : Bytes) (s : State), held s = false ∧ s.jtag.outOfService = false ∧ f < 256 ∧ rb pgFab 8 0 s = true ∧ (fabLane f
    s).st ≠ 0 ∧ (fabLane f s).hunt = false ∧ barCheck false r s = 0 ∧ (barDecode r).type = 0 ∧ (6 < nfld (beAt r 8 4) 12 4 ∨ (fabLane f
    s).st ≠ 2)) ∧
    (∃ (f : Nat) (r : Bytes) (s : State), held s = false ∧ s.jtag.outOfService = false ∧ f < 256 ∧ rb pgFab 8 0 s = true ∧ (fabLane f
    s).st ≠ 0 ∧ (fabLane f s).hunt = false ∧ barCheck false r s = 0 ∧ (barDecode r).type = 0 ∧ nfld (beAt r 8 4) 12 4 ≤ 6 ∧ (fabLane f
    s).st = 2 ∧ s.fab.bulkOut = []) ∧
    (∃ (f : Nat) (cw : Bool) (r : Bytes) (s : State), held s = false ∧ s.jtag.outOfService = false ∧ f < 256 ∧ rb pgFab 8 0 s = true ∧
    (fabLane f s).st = 2 ∧ (fabLane f s).hunt = false ∧ (∀ (e : Nat × FabLane), e ∈ s.fab.lanes → e.snd.stuck = []) ∧ (cw = true ∨ hcsOk r
    = false) ∧ (cw = false → huntFind headerAt barLen ((List.drop 16 r).length / 16 + 1) (List.drop 16 r) = none)) ∧
    (∃ (f : Nat) (cw : Bool) (r : Bytes) (s : State), held s = false ∧ s.jtag.outOfService = false ∧ f < 256 ∧ rb pgFab 8 0 s = true ∧
    (fabLane f s).st = 2 ∧ (fabLane f s).hunt = false ∧ (∀ (e : Nat × FabLane), e ∈ s.fab.lanes → e.snd.stuck = []) ∧ (cw = true ∨ hcsOk r
    = false) ∧ (cw = false → huntFind headerAt barLen ((List.drop 16 r).length / 16 + 1) (List.drop 16 r) = none)) ∧
    (∃ (f : Nat) (cw : Bool) (r : Bytes) (s : State), held s = false ∧ s.jtag.outOfService = false ∧ (fabLane f s).hunt = true ∧ (cw =
    true ∨ huntFind headerAt barLen (List.length r / 16 + 1) r = none)) ∧
    (∃ (f : Nat) (cw : Bool) (r : Bytes) (s : State), held s = false ∧ s.jtag.outOfService = false ∧ (fabLane f s).hunt = true ∧ (cw =
    true ∨ huntFind headerAt barLen (List.length r / 16 + 1) r = none)) ∧
    (∃ (f : Nat) (r : Bytes) (s : State), held s = false ∧ s.jtag.outOfService = false ∧ f < 256 ∧ rb pgFab 8 0 s = true ∧ (fabLane f
    s).st = 2 ∧ (fabLane f s).hunt = false ∧ (∀ (e : Nat × FabLane), e ∈ s.fab.lanes → e.snd.stuck = []) ∧ barCheck false r s = 0 ∧ nfld
    (beAt r 8 4) 12 4 = 15 ∧ fabData s = true ∧ (barDecode r).type = 1 ∧ s.fab.addr = some (barDecode r).dest ∧ (fctx (ctxOf (barDecode r)
    s) s).held = [] ∧ (fctx (ctxOf (barDecode r) s) s).next = (barDecode r).seq ∧ (barDecode r).sof = true) ∧
    (∃ (f : Nat) (r : Bytes) (s : State) (id : Nat), held s = false ∧ s.jtag.outOfService = false ∧ f < 256 ∧ rb pgFab 8 0 s = true ∧
    (fabLane f s).st = 2 ∧ (fabLane f s).hunt = false ∧ (∀ (e : Nat × FabLane), e ∈ s.fab.lanes → e.snd.stuck = []) ∧ barCheck false r s =
    0 ∧ nfld (beAt r 8 4) 12 4 = 15 ∧ fabData s = true ∧ (barDecode r).type = 1 ∧ s.fab.addr = some (barDecode r).dest ∧ (fctx (ctxOf
    (barDecode r) s) s).held = [] ∧ (fctx (ctxOf (barDecode r) s) s).next = (barDecode r).seq ∧ (barDecode r).sof = false ∧ (fctx (ctxOf
    (barDecode r) s) s).cur = some id ∧ frmLive id s = true) ∧
    (∃ (f : Nat) (s : State) (b : Barge), held s = false ∧ s.jtag.outOfService = false ∧ rb pgFab 8 0 s = true ∧ (fabLane f s).st ≠ 0 ∧
    s.bas.trees = [] ∧ s.fab.bulkOut = [] ∧ (∀ (e : Nat × FabLane), e ∈ s.fab.lanes → e.snd.stuck = []) ∧ Option.filter (fun _ => fabData
    s && (fabLane f s).st != 3) (firstOf f (fabLane f s).txOpenX (fabLane f s).xq s) = some b) ∧
    (∃ (f : Nat) (s : State) (b : Barge), held s = false ∧ s.jtag.outOfService = false ∧ rb pgFab 8 0 s = true ∧ (fabLane f s).st ≠ 0 ∧
    s.bas.trees = [] ∧ s.fab.bulkOut = [] ∧ (∀ (e : Nat × FabLane), e ∈ s.fab.lanes → e.snd.stuck = []) ∧ Option.filter (fun _ => fabData
    s && (fabLane f s).st != 3) (firstOf f (fabLane f s).txOpenX (fabLane f s).xq s) = none ∧ List.find? (fun b => credOk f b s && (b.type
    != 4 || fabData s && (fabLane f s).st != 3)) (fabLane f s).ctl = some b) :=
  ⟨⟨3, barIdle, sLane { st := 1 }, by decide +kernel⟩,
   ⟨3, barEncode { type := 0 } 4 5, sLane { st := 2, credit := [(4, 7)], lastCr := [(4, 4090)] }, by decide +kernel⟩,
   ⟨3, false, zeros 15 ++ [1], sLane { st := 2 }, by decide +kernel⟩,
   ⟨3, true, bulkBytes 3, sLane { st := 2 }, by decide +kernel⟩,
   ⟨3, false, bulkBytes 0, sLane { st := 2, hunt := true }, by decide +kernel⟩,
   ⟨3, true, bulkBytes 0, sLane { st := 2, hunt := true }, by decide +kernel⟩,
   ⟨3, bulkBytes 65535, onFab (fun f => { f with ctx := [(512, { next := 65535 })] }) (sLane { st := 2 }), by decide +kernel⟩,
   ⟨3, midBytes false 65535, sMid true, 0, by decide +kernel⟩,
   ⟨3, sLane lnX, xBar, by decide +kernel⟩,
   ⟨3, sLane lnC, ctlBar, by decide +kernel⟩⟩

/-- States and operands that meet the hypotheses of each clause of `FabricControlCommands`. -/
theorem witness_fabricControlCommands :
    (∃ (t f : Nat) (s : State), held s = false ∧ (fabLane f s).st ≠ 0 ∧ helloDue f (advance t s) = true) ∧
    (∃ (t f : Nat) (s : State), held s = false ∧ (fabLane f s).st ≠ 0 ∧ helloDue f (advance t s) = true) ∧
    (∃ (t f : Nat) (s : State), held s = false ∧ ((fabLane f s).st = 0 ∨ helloDue f (advance t s) = false)) ∧
    (∃ (t f : Nat) (s : State), held s = false ∧ ((fabLane f s).st = 0 ∨ helloDue f (advance t s) = false)) ∧
    (∃ (t f : Nat) (s : State), held s = false ∧ (fabLane f s).st = 2 ∧ (fabLane f s).helloAt + 3 * helloUs s ≤ (advance t s).tim.up ∧ (∀
    (e : Nat × FabLane), e ∈ s.fab.lanes → e.snd.stuck = [])) ∧
    (∃ (t f : Nat) (s : State), held s = false ∧ (fabLane f s).st = 2 ∧ (fabLane f s).helloAt + 3 * helloUs s ≤ (advance t s).tim.up ∧ (∀
    (e : Nat × FabLane), e ∈ s.fab.lanes → e.snd.stuck = [])) ∧
    (∃ (t f : Nat) (s : State), held s = false ∧ ((fabLane f s).st ≠ 2 ∨ (advance t s).tim.up < (fabLane f s).helloAt + 3 * helloUs s)) ∧
    (∃ (t f : Nat) (s : State), held s = false ∧ (fabLane f s).st = 3 ∧ (fabLane f s).holdAt + rf pgFab 260 24 8 s * 10000 * 2 ^ 32 ≤
    (advance t s).tim.up ∧ (∀ (e : Nat × FabLane), e ∈ s.fab.lanes → e.snd.stuck = [])) ∧
    (∃ (t f : Nat) (s : State), held s = false ∧ ((fabLane f s).st ≠ 3 ∨ (advance t s).tim.up < (fabLane f s).holdAt + rf pgFab 260 24 8 s
    * 10000 * 2 ^ 32) ∧ (∀ (e : Nat × FabLane), e ∈ s.fab.lanes → e.snd.stuck = [])) ∧
    (∃ (t : Nat) (s : State), held s = false ∧ floodDue 9 (advance t s) = true) ∧
    (∃ (t : Nat) (s : State), held s = false ∧ floodDue 10 (advance t s) = true ∧ s.fab.isMaster = true) ∧
    (∃ (t a : Nat) (s : State), held s = false ∧ floodDue 11 (advance t s) = true ∧ s.fab.addr = some a) ∧
    (∃ (t ty : Nat) (s : State), held s = false ∧ (floodDue ty (advance t s) = false ∨ ty = 10 ∧ s.fab.isMaster = false ∨ ty = 11 ∧
    s.fab.addr = none)) ∧
    (∃ (t ty : Nat) (s : State), held s = false ∧ (floodDue ty (advance t s) = false ∨ ty = 10 ∧ s.fab.isMaster = false ∨ ty = 11 ∧
    s.fab.addr = none)) ∧
    (∃ (t ty o : Nat) (x : Flood) (s : State), held s = false ∧ find? s.fab.floods (floodKey ty o) = some x ∧ x.seen + 350000000 * 2 ^ 32
    ≤ (advance t s).tim.up ∧ (ty = 9 ∨ ty = 10 ∨ ty = 11)) ∧
    (∃ (t ty o : Nat) (x : Flood) (s : State), held s = false ∧ find? s.fab.floods (floodKey ty o) = some x ∧ x.seen + 350000000 * 2 ^ 32
    ≤ (advance t s).tim.up ∧ (ty = 9 ∨ ty = 10 ∨ ty = 11)) ∧
    (∃ (t ty o : Nat) (s : State), held s = false ∧ (∀ (x : Flood), find? s.fab.floods (floodKey ty o) = some x → (advance t s).tim.up <
    x.seen + 350000000 * 2 ^ 32)) ∧
    (∃ (t : Nat) (s : State), held s = false ∧ (masterNoted s).fab.isMaster = true ∧ (s.fab.settled = true ∨ fabSettled (advance t s) =
    true) ∧ rb pgFab 8 0 s = true) :=
  ⟨⟨0, 3, sLane { st := 1 }, by decide +kernel⟩,
   ⟨10000000000000, 3, sLane { st := 2, helloSent := some 0 }, by decide +kernel⟩,
   ⟨0, 4, sLane { st := 1 }, by decide +kernel⟩,
   ⟨0, 3, sLane { st := 2, helloSent := some 0 }, by decide +kernel⟩,
   ⟨10000000000000, 3, sLane { st := 2 }, by decide +kernel⟩,
   ⟨10000000000000, 3, sLane { st := 2, paired := true }, by decide +kernel⟩,
   ⟨0, 3, sLane { st := 2 }, by decide +kernel⟩,
   ⟨1000000000000000, 3, sLane { st := 3 }, by decide +kernel⟩,
   ⟨0, 3, sLane { st := 3 }, by decide +kernel⟩,
   ⟨0, sLane { st := 2, link := 3 }, by decide +kernel⟩,
   ⟨0, onFab (fun f => { f with isMaster := true }) (sLane { st := 2 }), by decide +kernel⟩,
   ⟨0, 9, sLane { st := 2 }, by decide +kernel⟩,
   ⟨0, 9, sentAt 0 (sLane { st := 2 }), by decide +kernel⟩,
   ⟨0, 10, sLane { st := 2 }, by decide +kernel⟩,
   ⟨350000000 * 2 ^ 16, 11, 8, ⟨3, [0], 0⟩, onFab (fun f =>
   { f with floods := [(floodKey 11 8, ⟨3, [0], 0⟩)], lsas := [(8, [5]), (9, [6])] }) sFab, by decide +kernel⟩,
   ⟨350000000 * 2 ^ 16, 10, 8, ⟨3, [0], 0⟩, onFab (fun f =>
   { f with floods := [(floodKey 10 8, ⟨3, [0], 0⟩)], assign := [(8, 5), (9, 6)] }) sFab, by decide +kernel⟩,
   ⟨0, 11, 8, onFab (fun f => { f with floods := [(floodKey 11 8, ⟨3, [0], 0⟩)], lsas := [(8, [5]), (9, [6])] }) sFab, by decide +kernel⟩,
   ⟨10000000 * 2 ^ 32, wr pgFab 0x100 8 sFab, by decide +kernel⟩⟩

/-- States and operands that meet the hypotheses of each clause of `FabricRouteCommands`. -/
theorem witness_fabricRouteCommands :
    (∃ (s : State), held s = false ∧ rb pgFab 256 1 s = false ∧ rb pgFab 8 0 s = true ∧ (∀ (e : Nat × FabLane), e ∈ s.fab.lanes →
    e.snd.stuck = []) ∧ s.fab.bulkOut = [] ∧ (∀ (v : Nat), v ∈ routeDevs s → v < 1024) ∧ (∀ (k : Nat), k ∈ links s → k < 256)) ∧
    (∃ (s : State), held s = false ∧ rb pgFab 256 1 s = true ∧ (∀ (e : Nat × FabLane), e ∈ s.fab.lanes → e.snd.stuck = []) ∧ s.fab.bulkOut
    = []) ∧
    (∃ (t f id t0 : Nat) (s : State), held s = false ∧ s.jtag.outOfService = false ∧ (fabLane f s).openX = some (id, t0) ∧ t0 + 1000 * 2 ^
    32 ≤ (advance t s).tim.up ∧ frmLive id s = false) ∧
    (∃ (t f id t0 : Nat) (x : XFrame) (s : State), held s = false ∧ s.jtag.outOfService = false ∧ (fabLane f s).openX = some (id, t0) ∧ t0
    + 1000 * 2 ^ 32 ≤ (advance t s).tim.up ∧ frmLive id s = true ∧ id < s.lic.nextFrame ∧ find? s.exp.frames id = some x ∧ x.copies ≠ [] ∧
    x.verdict = none ∧ (∀ (c : XCopy), c ∈ x.copies → c.committed = false ∧ c.gone = false)) ∧
    (∃ (t f : Nat) (s : State), (∀ (id t0 : Nat), (fabLane f s).openX = some (id, t0) → (advance t s).tim.up < t0 + 1000 * 2 ^ 32) ∧ held
    s = false ∧ s.jtag.outOfService = false) ∧
    (∃ (t f id t0 tr : Nat) (s : State), held s = false ∧ s.jtag.outOfService = false ∧ (fabLane f s).openT = some (id, t0, tr) ∧ t0 +
    1000 * 2 ^ 32 ≤ (advance t s).tim.up) ∧
    (∃ (t f id t0 tr : Nat) (s : State), held s = false ∧ s.jtag.outOfService = false ∧ (fabLane f s).openT = some (id, t0, tr) ∧ t0 +
    1000 * 2 ^ 32 ≤ (advance t s).tim.up) ∧
    (∃ (t f : Nat) (s : State), (∀ (id t0 tr : Nat), (fabLane f s).openT = some (id, t0, tr) → (advance t s).tim.up < t0 + 1000 * 2 ^ 32)
    ∧ held s = false ∧ s.jtag.outOfService = false) ∧
    (∃ (t c t0 : Nat) (s : State), held s = false ∧ s.jtag.outOfService = false ∧ (fctx c s).timer = some t0 ∧ t0 + 20000 * 2 ^ 32 ≤
    (advance t s).tim.up ∧ (fctx c s).held = [] ∧ (∀ (e : Nat × FabLane), e ∈ s.fab.lanes → e.snd.stuck = [])) ∧
    (∃ (t c t0 : Nat) (s : State), held s = false ∧ s.jtag.outOfService = false ∧ (fctx c s).timer = some t0 ∧ t0 + 20000 * 2 ^ 32 ≤
    (advance t s).tim.up ∧ (fctx c s).held = [] ∧ (∀ (e : Nat × FabLane), e ∈ s.fab.lanes → e.snd.stuck = [])) ∧
    (∃ (t c : Nat) (s : State), held s = false ∧ s.jtag.outOfService = false ∧ (∀ (t0 : Nat), (fctx c s).timer = some t0 → (advance t
    s).tim.up < t0 + 20000 * 2 ^ 32) ∧ (∀ (e : Nat × FabLane), e ∈ s.fab.lanes → e.snd.stuck = [])) ∧
    (∃ (t c : Nat) (x : Ctx) (p : Path) (r : List Path) (a : Nat) (s : State), held s = false ∧ s.jtag.outOfService = false ∧ find?
    s.fab.ctx c = some x ∧ pathsTo (c / 64) s = p :: r ∧ s.fab.addr = some a ∧ fabData s = true ∧ ackDue x (advance t s) = true) ∧
    (∃ (t c : Nat) (s : State), held s = false ∧ s.jtag.outOfService = false ∧ (ackDue (fctx c s) (advance t s) = false ∨ fabData s =
    false ∨ pathsTo (c / 64) s = [])) ∧
    (∃ (t v t0 : Nat) (s : State), held s = false ∧ find? s.fab.noPath v = some t0 ∧ has s.fab.unreach v = false ∧ t0 + rf pgFab 260 16 8
    s * 1000000 * 2 ^ 32 ≤ (advance t s).tim.up) ∧
    (∃ (t v : Nat) (s : State), held s = false ∧ (has s.fab.unreach v = true ∨ ∀ (t0 : Nat), find? s.fab.noPath v = some t0 → (advance t
    s).tim.up < t0 + rf pgFab 260 16 8 s * 1000000 * 2 ^ 32)) :=
  ⟨⟨sRoute, by decide +kernel⟩,
   ⟨wr pgFab 0x100 2 sRoute, by decide +kernel⟩,
   ⟨1000 * 2 ^ 16, 3, 0, 0, sOpenX sFab, by decide +kernel⟩,
   ⟨1000 * 2 ^ 16, 3, 0, 0, xFrm, sOpenX frmX, by decide +kernel⟩,
   ⟨0, 3, sOpenX frmX, forall_some2 (by decide +kernel), by decide +kernel⟩,
   ⟨1000 * 2 ^ 16, 255, 0, 0, 4095, sOpenT true, by decide +kernel⟩,
   ⟨1000 * 2 ^ 16, 255, 0, 0, 4095, sOpenT false, by decide +kernel⟩,
   ⟨0, 255, sOpenT true, forall_some3 (by decide +kernel), by decide +kernel⟩,
   ⟨20000 * 2 ^ 16, 512, 0, sFabGap, by decide +kernel⟩,
   ⟨20000 * 2 ^ 16, 512, 0, onFab (fun f => { f with ctx := [(512, { next := 65535, timer := some 0, cur := some 0 })] }) (sMid true),
   by decide +kernel⟩,
   ⟨0, 512, sFabGap, by decide +kernel⟩,
   ⟨1000 * 2 ^ 16, 512, { next := 5, acked := 3 }, ⟨0, 3, 1, 1, false⟩, [], 9, onFab (fun f =>
   { f with ctx := [(512, { next := 5, acked := 3 })] }) sRoute, by decide +kernel⟩,
   ⟨0, 512, onFab (fun f => { f with ctx := [(512, { next := 5, acked := 3 })] }) sRoute, by decide +kernel⟩,
   ⟨1000000000 * 2 ^ 16, 8, 0, sNoPath, by decide +kernel⟩,
   ⟨0, 8, sNoPath, by decide +kernel⟩⟩

/-- States and operands that meet the hypotheses of each clause of `MemoryUpkeep`. -/
theorem witness_memoryUpkeep :
    (∃ (c : Nat) (fail : Option (Nat × Nat)) (rwin wwin : Nat) (s : State), held s = false ∧ c < memCount s ∧ ((memCtl c s).st = 1 ∨
    (memCtl c s).st = 2) ∧ fail = none ∧ (fail.isSome = true ∨ rwin % 256 < 24 ∨ wwin % 256 < 24)) ∧
    (∃ (c : Nat) (fail : Option (Nat × Nat)) (rwin wwin : Nat) (s : State), held s = false ∧ c < memCount s ∧ ((memCtl c s).st = 1 ∨
    (memCtl c s).st = 2) ∧ fail = none ∧ 24 ≤ rwin % 256 ∧ 24 ≤ wwin % 256) ∧
    (∃ (c : Nat) (s : State), held s = false ∧ (memCtl c s).st ≠ 1 ∧ (memCtl c s).st ≠ 2) ∧
    (∃ (o c : Nat) (s : State), Reaches o (memPage c) 256 s ∧ c < 12 ∧ (memCtl c s).st = 5) ∧
    (∃ (o c : Nat) (s : State), Reaches o (memPage c) 256 s ∧ c < 12 ∧ (memCtl c s).st ≠ 5) ∧
    (∃ (c : Nat) (s : State), held s = false ∧ (memCtl c s).st = 3) ∧
    (∃ (c : Nat) (s : State), held s = false ∧ (memCtl c s).st ≠ 3) ∧
    (∃ (c bank : Nat) (s : State), held s = false ∧ ((memCtl c s).st = 3 ∨ (memCtl c s).st = 4) ∧ bank < 384) ∧
    (∃ (c bank : Nat) (s : State), held s = false ∧ ((memCtl c s).st = 3 ∨ (memCtl c s).st = 4) ∧ bank < 384) ∧
    (∃ (c bank : Nat) (s : State), held s = false ∧ ((memCtl c s).st ≠ 3 ∧ (memCtl c s).st ≠ 4 ∨ 384 ≤ bank)) ∧
    (∃ (c i : Nat) (s : State), held s = false ∧ rb pgMem 264 0 s = true ∧ (memCtl c s).st = 3 ∧ memFrozen s = false ∧ freeSlot (memCtl c
    s).reads 1024 0 = some i) ∧
    (∃ (c : Nat) (s : State), held s = false ∧ (rb pgMem 264 0 s = false ∨ (memCtl c s).st ≠ 3 ∨ memFrozen s = true ∨ freeSlot (memCtl c
    s).reads 1024 0 = none)) ∧
    (∃ (o c : Nat) (s : State), Reaches o (memPage c) 308 s ∧ c < 12 ∧ memDiagOk c s = true ∧ (memCtl c s).diagBusy = false) ∧
    (∃ (o c : Nat) (s : State), Reaches o (memPage c) 308 s ∧ c < 12 ∧ (memDiagOk c s = false ∨ (memCtl c s).diagBusy = true)) ∧
    (∃ (c : Nat) (s : State), held s = false ∧ (memCtl c s).diagBusy = true) ∧
    (∃ (c : Nat) (s : State), held s = false ∧ (memCtl c s).diagBusy = true) ∧
    (∃ (c : Nat) (s : State), held s = false ∧ (memCtl c s).diagBusy = false) :=
  ⟨⟨11, default, 0, 0, onMem 11 { st := 1 } State.reset, by decide +kernel⟩,
   ⟨11, default, 24, 255, onMem 11 { st := 1 } State.reset, by decide +kernel⟩,
   ⟨11, onMem 11 { st := 3 } State.reset, by decide +kernel⟩,
   ⟨0, 11, onMem 11 { st := 5 } State.reset, reaches_of (by decide +kernel), by decide +kernel⟩,
   ⟨0, 11, onMem 11 { st := 3 } State.reset, reaches_of (by decide +kernel), by decide +kernel⟩,
   ⟨0, sMem { st := 3 }, by decide +kernel⟩,
   ⟨0, sMem { st := 4 }, by decide +kernel⟩,
   ⟨0, 1, sMem { st := 3, reads := [(0, { memRd with lu := 8 })], owed := [(1, 7)], rows := [(1, 4)] }, by decide +kernel⟩,
   ⟨0, 1, sMem { st := 4, reads := [(0, { memRd with lu := 8 })], owed := [(1, 8)], rows := [(1, 4)] }, by decide +kernel⟩,
   ⟨0, 384, sMem { st := 3 }, by decide +kernel⟩,
   ⟨0, 1, wr pgMem 0x108 1 (sMem { st := 3, scrub := 9437183, reads := [(0, memRd)] }), by decide +kernel⟩,
   ⟨0, sMem { st := 4 }, by decide +kernel⟩,
   ⟨0, 0, onMem 0 { st := 3 } State.reset, reaches_of (by decide +kernel), by decide +kernel⟩,
   ⟨0, 0, sMem { st := 3 }, reaches_of (by decide +kernel), by decide +kernel⟩,
   ⟨0, sMem { st := 3, diagBusy := true, diagReq := 1 }, by decide +kernel⟩,
   ⟨0, sMem { st := 3, diagBusy := true, diagReq := 1 }, by decide +kernel⟩,
   ⟨0, sMem { st := 3 }, by decide +kernel⟩⟩

/-- States and operands that meet the hypotheses of each clause of `MemoryRequests`. -/
theorem witness_memoryRequests :
    (∃ (req addr n : Nat) (s : State) (i : Nat), held s = false ∧ memReqOk req false addr n s = true ∧ memServes (unitCtl (addr / 2048) s)
    s = true ∧ freeSlot (memCtl (unitCtl (addr / 2048) s) s).reads 1024 0 = some i) ∧
    (∃ (req addr n : Nat) (s : State), held s = false ∧ (memReqOk req false addr n s = false ∨ memServes (unitCtl (addr / 2048) s) s =
    false ∨ freeSlot (memCtl (unitCtl (addr / 2048) s) s).reads 1024 0 = none)) ∧
    (∃ (req addr : Nat) (b : Bytes) (s : State) (i : Nat), held s = false ∧ memReqOk req true addr (granules b).length s = true ∧
    memServes (unitCtl (addr / 2048) s) s = true ∧ ((upto (addr / 64 % 32) (granules b).length).all fun g => (coverOf (memCtl (unitCtl
    (addr / 2048) s) s) (unitLocal (addr / 2048) s) g).isSome) = false ∧ freeSlot (memCtl (unitCtl (addr / 2048) s) s).writes 512 0 = some
    i) ∧
    (∃ (req addr : Nat) (b : Bytes) (s : State), held s = false ∧ memReqOk req true addr (granules b).length s = true ∧ memServes (unitCtl
    (addr / 2048) s) s = true ∧ ((upto (addr / 64 % 32) (granules b).length).all fun g => (coverOf (memCtl (unitCtl (addr / 2048) s) s)
    (unitLocal (addr / 2048) s) g).isSome) = true) ∧
    (∃ (t c : Nat) (s : State) (i : Nat) (r : MemRead), held s = false ∧ (memCtl c s).st = 3 ∧ find? (memCtl c s).reads i = some r ∧
    ((leastBy (memCtl c s).reads (fun r => !r.issued && (fun at_ => decide (at_ + 400 * 2 ^ 32 < (advance t s).tim.up)) r.at_) fun x =>
    x.order) = some i ∧ Option.all (fun w => decide (r.order < w.order)) ((leastBy (memCtl c s).writes (fun w => (fun at_ => decide (at_ +
    400 * 2 ^ 32 < (advance t s).tim.up)) w.at_ && !writeHeld (memCtl c s) w) fun x => x.order).bind (find? (memCtl c s).writes)) = true ∨
    (leastBy (memCtl c s).reads (fun r => !r.issued && (fun at_ => decide (at_ + 400 * 2 ^ 32 < (advance t s).tim.up)) r.at_) fun x =>
    x.order) = none ∧ (leastBy (memCtl c s).writes (fun w => (fun at_ => decide (at_ + 400 * 2 ^ 32 < (advance t s).tim.up)) w.at_ &&
    !writeHeld (memCtl c s) w) fun x => x.order) = none ∧ (leastBy (memCtl c s).reads (fun r => !r.issued) fun r => ((if find? (memCtl c
    s).rows (luBank r.lu) = some (luRow r.lu) then 0 else 1) * 3 + readClass r.req) * 2 ^ 64 + r.order) = some i ∧ ((memCtl c s).drain =
    false ∨ (leastBy (memCtl c s).writes (fun w => !writeHeld (memCtl c s) w) fun x => x.order) = none))) ∧
    (∃ (t c : Nat) (s : State) (i : Nat) (r : MemRead), held s = false ∧ (memCtl c s).st = 3 ∧ find? (memCtl c s).reads i = some r ∧
    ((leastBy (memCtl c s).reads (fun r => !r.issued && (fun at_ => decide (at_ + 400 * 2 ^ 32 < (advance t s).tim.up)) r.at_) fun x =>
    x.order) = some i ∧ Option.all (fun w => decide (r.order < w.order)) ((leastBy (memCtl c s).writes (fun w => (fun at_ => decide (at_ +
    400 * 2 ^ 32 < (advance t s).tim.up)) w.at_ && !writeHeld (memCtl c s) w) fun x => x.order).bind (find? (memCtl c s).writes)) = true ∨
    (leastBy (memCtl c s).reads (fun r => !r.issued && (fun at_ => decide (at_ + 400 * 2 ^ 32 < (advance t s).tim.up)) r.at_) fun x =>
    x.order) = none ∧ (leastBy (memCtl c s).writes (fun w => (fun at_ => decide (at_ + 400 * 2 ^ 32 < (advance t s).tim.up)) w.at_ &&
    !writeHeld (memCtl c s) w) fun x => x.order) = none ∧ (leastBy (memCtl c s).reads (fun r => !r.issued) fun r => ((if find? (memCtl c
    s).rows (luBank r.lu) = some (luRow r.lu) then 0 else 1) * 3 + readClass r.req) * 2 ^ 64 + r.order) = some i ∧ ((memCtl c s).drain =
    false ∨ (leastBy (memCtl c s).writes (fun w => !writeHeld (memCtl c s) w) fun x => x.order) = none))) ∧
    (∃ (c : Nat) (s : State), held s = false ∧ (memCtl c s).st ≠ 3) ∧
    (∃ (c req i : Nat) (r : MemRead) (s : State), held s = false ∧ (memCtl c s).st = 3 ∧ (leastBy (memCtl c s).reads (fun r => r.req ==
    req) fun x => x.order) = some i ∧ find? (memCtl c s).reads i = some r ∧ r.issued = true) ∧
    (∃ (c req : Nat) (s : State), held s = false ∧ ((memCtl c s).st ≠ 3 ∨ Option.all (fun r => !r.issued) ((leastBy (memCtl c s).reads
    (fun r => r.req == req) fun x => x.order).bind (find? (memCtl c s).reads)) = true)) ∧
    (∃ (c req i : Nat) (r : MemRead) (s : State) (g : Nat), held s = false ∧ c < 12 ∧ (memCtl c s).st = 3 ∧ (leastBy (memCtl c s).reads
    (fun r => r.req == req) fun x => x.order) = some i ∧ find? (memCtl c s).reads i = some r ∧ r.issued = true ∧ ((fun g => r.first ≤ g ∧
    g < r.first + r.n ∧ has r.fwd g = false) g) ∧ req ≠ 6 ∧ (rb pgMem 256 0 s && !s.lock.paired && luRegion c r.lu s == 0 && (decide
    (s.mem.retired.length < 1024) || has s.mem.retired (unitOf c r.lu s))) = false) ∧
    (∃ (c req i : Nat) (r : MemRead) (s : State) (g k : Nat), held s = false ∧ c < 12 ∧ (memCtl c s).st = 3 ∧ (leastBy (memCtl c s).reads
    (fun r => r.req == req) fun x => x.order) = some i ∧ find? (memCtl c s).reads i = some r ∧ r.issued = true ∧ ((fun g => r.first ≤ g ∧
    g < r.first + r.n ∧ has r.fwd g = false) g) ∧ req = 6 ∧ List.length (memCtl c s).writes ≤ 480 ∧ has r.newer g = false ∧ coverOf
    (memCtl c s) r.lu g = none ∧ freeSlot (memCtl c s).writes 512 0 = some k ∧ (rb pgMem 256 0 s && !s.lock.paired && luRegion c r.lu s ==
    0 && (decide (s.mem.retired.length < 1024) || has s.mem.retired (unitOf c r.lu s))) = false) :=
  ⟨⟨1, adr12, 2, sMem { st := 3, writes := [(0, memWrt)], order := 1 }, 0, by decide +kernel⟩,
   ⟨1, adr12, 3, sMem { st := 3, writes := [(0, memWrt)], order := 1 }, by decide +kernel⟩,
   ⟨0, adr12, zeros 128, sMem { st := 3, writes := [(0, { memWrt with data := [goose] })], order := 1 }, 1, by decide +kernel⟩,
   ⟨0, adr12, zeros 128, sMem { st := 3, writes := [(0, memWrt)], order := 1 }, by decide +kernel⟩,
   ⟨0, 0, sMem { st := 3, reads := [(5, memRd)] }, 5, memRd, by decide +kernel⟩,
   ⟨500 * 2 ^ 16, 0, sMem { st := 3, reads := [(5, memRd)], writes := [(0, { memWrt with order := 7 })] }, 5, memRd, by decide +kernel⟩,
   ⟨0, sMem { st := 4, reads := [(5, memRd)] }, by decide +kernel⟩,
   ⟨0, 1, 5, memDone, sMem { st := 3, reads := [(5, memDone)] }, by decide +kernel⟩,
   ⟨0, 1, sMem { st := 3, reads := [(5, memRd)] }, by decide +kernel⟩,
   ⟨0, 1, 5, memDone, sMem { st := 3, reads := [(5, memDone)] }, 31, by decide +kernel⟩,
   ⟨0, 6, 5, { memDone with req := 6 }, sMem
   { st := 3, reads := [(5, { memDone with req := 6 }), (6, { memDone with req := 6, order := 3 })] }, 31, 0, by decide +kernel⟩⟩

/-- States and operands that meet the hypotheses of each clause of `ArchiveStaging`. -/
theorem witness_archiveStaging :
    (∃ (t id : Nat) (x : BDesc) (s : State) (i : Nat), held s = false ∧ find? s.bas.desc id = some x ∧ x.req = Reqr.capture ∧ List.length
    (frm id s).bytes ≤ 256 * x.berths.length ∧ recAhead (recPoint id s) (frm id s).stamp (advance t s) = false ∧ memAllReady s = true ∧
    arcOn s = true ∧ filling s = some i ∧ extRoom (extent i s) (List.length (frm id s).bytes) ((fun e => !e.marks.any fun m => m.epoch ==
    look 0 s.arc.epochs id && m.point == recPoint id s) (extent i s)) = true) ∧
    (∃ (t id : Nat) (x : BDesc) (s : State) (i : Nat), held s = false ∧ find? s.bas.desc id = some x ∧ x.req = Reqr.capture ∧ List.length
    (frm id s).bytes ≤ 256 * x.berths.length ∧ recAhead (recPoint id s) (frm id s).stamp (advance t s) = false ∧ memAllReady s = true ∧
    arcOn s = true ∧ filling s = none ∧ List.find? (fun k => (extent k s).st == 0) (List.range 256) = some i) ∧
    (∃ (t id : Nat) (s : State), held s = false ∧ (∀ (x : BDesc), find? s.bas.desc id = some x → x.req ≠ Reqr.capture ∨ 256 *
    x.berths.length < List.length (frm id s).bytes ∨ recAhead (recPoint id s) (frm id s).stamp (advance t s) = true)) ∧
    (∃ (t i : Nat) (s : State), held s = false ∧ filling s = some i ∧ closeDue (advance t s) = true) ∧
    (∃ (t : Nat) (s : State), held s = false ∧ closeDue (advance t s) = false) ∧
    (∃ (o i : Nat) (s : State), Reaches o pgArc 292 s ∧ filling s = some i) ∧
    (∃ (o : Nat) (s : State), Reaches o pgArc 292 s ∧ filling s = none) ∧
    (∃ (o : Nat) (s : State), Reaches o pgArc 292 s ∧ arcOn s = false) ∧
    (∃ (o : Nat) (s : State), Reaches o pgArc 292 s ∧ arcOn s = false) ∧
    (∃ (o : Nat) (s : State), Reaches o pgArc 292 s ∧ arcOn s = true) ∧
    (∃ (i g : Nat) (s : State), held s = false ∧ arcOn s = true ∧ (leastBy s.arc.slots (fun e => e.st == 2) fun x => x.order) = some i ∧
    nextTarget s = some g) ∧
    (∃ (s : State), held s = false ∧ (arcOn s = false ∨ (leastBy s.arc.slots (fun e => e.st == 2) fun x => x.order) = none ∨ nextTarget s
    = none)) ∧
    (∃ (i q : Nat) (s : State) (k : Nat) (r : List Nat), held s = false ∧ (extent i s).st = 3 ∧ arcOn s = true ∧ queueOf (BDest.dport (tf
    tbTgt (extent i s).target 0 8 16 s)) (tf tbTgt (extent i s).target 0 24 3 s) false s = some q ∧ (extent i s).todo = k :: r ∧ r ≠ [] ∧
    segsQueued (extent i s).target (segsPrune s) < 64) ∧
    (∃ (i q : Nat) (s : State) (k : Nat) (r : List Nat), held s = false ∧ (extent i s).st = 3 ∧ arcOn s = true ∧ queueOf (BDest.dport (tf
    tbTgt (extent i s).target 0 8 16 s)) (tf tbTgt (extent i s).target 0 24 3 s) false s = some q ∧ (extent i s).todo = k :: r ∧ (extent i
    s).todo = [k] ∧ segsQueued (extent i s).target (segsPrune s) < 64) ∧
    (∃ (i : Nat) (s : State), held s = false ∧ ((extent i s).st ≠ 3 ∨ arcOn s = false ∨ (extent i s).todo ≠ [] ∧ 64 ≤ segsQueued (extent i
    s).target (segsPrune s) ∨ queueOf (BDest.dport (tf tbTgt (extent i s).target 0 8 16 s)) (tf tbTgt (extent i s).target 0 24 3 s) false
    s = none)) :=
  ⟨⟨0, 0, capDesc, sRec (fun e => e) 2, 9, by decide +kernel⟩,
   ⟨0, 0, capDesc, onArc (fun a => { a with slots := [] }) (sRec (fun e => e) 2), 0, by decide +kernel⟩,
   ⟨0, 0, onArc (fun a => { a with slots := [] }) sArc, by decide +kernel⟩,
   ⟨60000 * 10 ^ 6 * 2 ^ 16, 9, sExt id, by decide +kernel⟩,
   ⟨0, sExt id, by decide +kernel⟩,
   ⟨0, 9, sExt id, reaches_of (by decide +kernel), by decide +kernel⟩,
   ⟨0, sArc, reaches_of (by decide +kernel), by decide +kernel⟩,
   ⟨0, wr pgArc 8 0 (onArc (fun a => { a with slots := [(8, fillE), (9, { fillE with st := 2, ext := 6 })], rpl := some rpl0 }) sArc),
   reaches_of (by decide +kernel), by decide +kernel⟩,
   ⟨0, wr pgArc 8 0 (onArc (fun a => { a with slots := [(8, fillE), (9, { fillE with st := 2, ext := 6 })] }) sArc), reaches_of
   (by decide +kernel), by decide +kernel⟩,
   ⟨0, onArc (fun a => { a with slots := [(8, fillE), (9, { fillE with st := 2, ext := 6 })] }) sArc, reaches_of (by decide +kernel),
   by decide +kernel⟩,
   ⟨9, 63, sSend { fillE with st := 2 }, by decide +kernel⟩,
   ⟨sArc, by decide +kernel⟩,
   ⟨9, ((queueOf (.dport 8) 0 false (sSend sentE)).getD 0), sSend sentE, 0, [2], by decide +kernel⟩,
   ⟨9, ((queueOf (.dport 8) 0 false (sSend sentE)).getD 0), sSend { sentE with todo := [2] }, 2, default, by decide +kernel⟩,
   ⟨9, onArc (fun a => { a with segs := [(5, 63)] }) (sSend fillE), by decide +kernel⟩⟩

/-- States and operands that meet the hypotheses of each clause of `ArchiveReplies`. -/
theorem witness_archiveReplies :
    (∃ (t : Nat) (m : Bytes) (a : State) (i : Nat) (s : State), held s = false ∧ atpTake (advance t s) = some (m, a) ∧ atpMatch m a = some
    i ∧ atpType m a = some 129 ∧ (extent i a).st = 4) ∧
    (∃ (t : Nat) (m : Bytes) (a : State) (i : Nat) (s : State), held s = false ∧ atpTake (advance t s) = some (m, a) ∧ atpMatch m a = some
    i ∧ atpType m a = some 129 ∧ (extent i a).st ≠ 4) ∧
    (∃ (ty : Nat) (cmd : Instr) (t : Nat) (m : Bytes) (a s : State), (ty, cmd) ∈ [(129, Instr.atpAck t), (130, Instr.atpMissing t), (131,
    Instr.atpRefused t)] ∧ held s = false ∧ atpTake (advance t s) = some (m, a) ∧ (atpType m a = none ∨ atpType m a = some ty ∧ atpMatch m
    a = none ∨ ∃ k, atpType m a = some k ∧ ¬k ∈ [129, 130, 131, 132])) ∧
    (∃ (ty : Nat) (cmd : Instr) (t : Nat) (m : Bytes) (a s : State) (k : Nat), (ty, cmd) ∈ [(129, Instr.atpAck t), (130, Instr.atpMissing
    t), (131, Instr.atpRefused t)] ∧ held s = false ∧ atpTake (advance t s) = some (m, a) ∧ atpType m a = some k ∧ k ≠ ty ∧ k ∈ [129, 130,
    131, 132]) ∧
    (∃ (t i : Nat) (s : State) (q : Nat), held s = false ∧ (extent i s).st = 4 ∧ (extent i s).commitAt + rf pgArc 260 0 8 s * 1000000 * 2
    ^ 32 ≤ (advance t s).tim.up ∧ (extent i s).tries < retryMax s ∧ queueOf (BDest.dport (tf tbTgt (extent i s).target 0 8 16 s)) (tf
    tbTgt (extent i s).target 0 24 3 s) false s = some q) ∧
    (∃ (t i : Nat) (s : State), held s = false ∧ (extent i s).st = 4 ∧ (extent i s).commitAt + rf pgArc 260 0 8 s * 1000000 * 2 ^ 32 ≤
    (advance t s).tim.up ∧ retryMax s ≤ (extent i s).tries) ∧
    (∃ (i : Nat) (s : State), held s = false ∧ (extent i s).st ≠ 4) ∧
    (∃ (t : Nat) (s : State), held s = false ∧ arcOn s = true ∧ probeDue (advance t s) = true) ∧
    (∃ (t : Nat) (s : State), held s = false ∧ (arcOn s = false ∨ probeDue (advance t s) = false)) ∧
    (∃ (t : Nat) (m : Bytes) (a s : State), held s = false ∧ atpTake (advance t s) = some (m, a) ∧ atpType m a = some 132 ∧ (decide
    (byteAt m 28 < 64) && tb tbTgt (byteAt m 28) 0 0 a && decide (40 ≤ List.length m)) = true) ∧
    (∃ (t : Nat) (m : Bytes) (a s : State), held s = false ∧ atpTake (advance t s) = some (m, a) ∧ atpType m a = some 132 ∧ (decide
    (byteAt m 28 < 64) && tb tbTgt (byteAt m 28) 0 0 a && decide (40 ≤ List.length m)) = false) :=
  ⟨⟨0, atpMsg (sReply 0x81 4 []), atpAft (sReply 0x81 4 []), 9, sReply 0x81 4 [], by decide +kernel⟩,
   ⟨0, atpMsg (sReply 0x81 3 []), atpAft (sReply 0x81 3 []), 9, sReply 0x81 3 [], by decide +kernel⟩,
   ⟨0x81, Instr.atpAck 0, 0, atpMsg sNoExt, atpAft sNoExt, sNoExt, by decide +kernel⟩,
   ⟨0x83, Instr.atpRefused 0, 0, atpMsg (sReply 0x82 4 []), atpAft (sReply 0x82 4 []), sReply 0x82 4 [], 0x82, by decide +kernel⟩,
   ⟨60000 * 10 ^ 6 * 2 ^ 16, 9, sSend { sentE with st := 4 }, ((queueOf (.dport 8) 0 false (sSend sentE)).getD 0), by decide +kernel⟩,
   ⟨60000 * 10 ^ 6 * 2 ^ 16, 9, sSend { sentE with st := 4, tries := 15 }, by decide +kernel⟩,
   ⟨9, sSend { sentE with st := 3 }, by decide +kernel⟩,
   ⟨0, sSend sentE, by decide +kernel⟩,
   ⟨0, onArc (fun a => { a with probeAt := some 0 }) (sSend sentE), by decide +kernel⟩,
   ⟨0, atpMsg (sReply 0x84 4 (zeros 8)), atpAft (sReply 0x84 4 (zeros 8)), sReply 0x84 4 (zeros 8), by decide +kernel⟩,
   ⟨0, atpMsg (sReply 0x84 4 (zeros 7)), atpAft (sReply 0x84 4 (zeros 7)), sReply 0x84 4 (zeros 7), by decide +kernel⟩⟩

/-- States and operands that meet the hypotheses of each clause of `ArchiveReading`. -/
theorem witness_archiveReading :
    (∃ (o : Nat) (s : State), Reaches o pgArc 332 s) ∧
    (∃ (o : Nat) (s : State), Reaches o pgArc 332 s ∧ s.arc.retMore = true) ∧
    (∃ (o : Nat) (s : State), Reaches o pgArc 332 s ∧ s.arc.retMore = false) ∧
    (∃ (s : State), held s = false ∧ s.arc.retBusy = true) ∧
    (∃ (s : State), held s = false ∧ s.arc.retBusy = false) ∧
    (∃ (o : Nat) (s : State), Reaches o pgArc 360 s ∧ rplRefused s = false) ∧
    (∃ (o : Nat) (s : State), Reaches o pgArc 360 s ∧ rplRefused s = true) ∧
    (∃ (o : Nat) (r : Replay) (s : State), Reaches o pgArc 360 s ∧ s.arc.rpl = some r) ∧
    (∃ (o : Nat) (s : State), Reaches o pgArc 360 s ∧ s.arc.rpl = none) ∧
    (∃ (t : Nat) (r : Replay) (off : Nat) (b : Bytes) (s : State), held s = false ∧ s.jtag.outOfService = false ∧ s.arc.rpl = some r ∧
    rplNext r s 1048576 r.off = some (off, b) ∧ (rf pgArc 356 0 19 s ≠ 0 ∧ s.pair.egressHold = false ∧ r.nextAt ≤ nowStamp (advance t s) ∧
    List.length b ≤ credit r.chan 7 s)) ∧
    (∃ (t : Nat) (r : Replay) (off : Nat) (b : Bytes) (s : State), held s = false ∧ s.jtag.outOfService = false ∧ s.arc.rpl = some r ∧
    rplNext r s 1048576 r.off = some (off, b) ∧ (¬(rf pgArc 356 0 19 s ≠ 0 ∧ s.pair.egressHold = false ∧ r.nextAt ≤ nowStamp (advance t s)
    ∧ List.length b ≤ credit r.chan 7 s))) ∧
    (∃ (r : Replay) (s : State), held s = false ∧ s.jtag.outOfService = false ∧ s.arc.rpl = some r ∧ rplNext r s 1048576 r.off = none) ∧
    (∃ (s : State), held s = false ∧ s.jtag.outOfService = false ∧ s.arc.rpl = none) :=
  ⟨⟨0, sArc, reaches_of (by decide +kernel)⟩,
   ⟨0, onArc (fun a => { a with retMore := true }) sArc, reaches_of (by decide +kernel), by decide +kernel⟩,
   ⟨0, sArc, reaches_of (by decide +kernel), by decide +kernel⟩,
   ⟨sLook, by decide +kernel⟩,
   ⟨sArc, by decide +kernel⟩,
   ⟨0, wr pgArc 0x160 (8 + 5 * 256) sArc, reaches_of (by decide +kernel), by decide +kernel⟩,
   ⟨0, wr pgArc 0x160 9 (sExt id), reaches_of (by decide +kernel), by decide +kernel⟩,
   ⟨0, rpl0, sRpl { fillE with st := 5 }, reaches_of (by decide +kernel), by decide +kernel⟩,
   ⟨0, sArc, reaches_of (by decide +kernel), by decide +kernel⟩,
   ⟨0, rpl0, 64, goose, sRpl { fillE with st := 2, used := 160 }, by decide +kernel⟩,
   ⟨0, rpl0, 64, goose, wr pgArc 0x164 0 (sRpl { fillE with st := 2, used := 160 }), by decide +kernel⟩,
   ⟨rpl0, sRpl { fillE with st := 0 }, by decide +kernel⟩,
   ⟨sArc, by decide +kernel⟩⟩

/-- States and operands that meet the hypotheses of each clause of `PairRoleCommands`. -/
theorem witness_pairRoleCommands :
    (∃ (o : Nat) (v : Word) (s : State), Reaches o pgPair 256 s ∧ rb pgPair 8 0 s = false ∧ s.pair.role = Role.solo ∧ bitOf v 0 = true) ∧
    (∃ (o : Nat) (v : Word) (s : State), Reaches o pgPair 256 s ∧ rb pgPair 8 0 s = false ∧ s.pair.role = Role.solo ∧ bitOf v 0 = false) ∧
    (∃ (o : Nat) (s : State), Reaches o pgPair 260 s ∧ handoverRefused s = false) ∧
    (∃ (o : Nat) (s : State), Reaches o pgPair 260 s ∧ s.pair.role = Role.active) ∧
    (∃ (o : Nat) (s : State), Reaches o pgPair 260 s ∧ s.pair.role = Role.fault ∧ s.pair.trig = []) ∧
    (∃ (o : Nat) (s : State), Reaches o pgPair 260 s ∧ handoverRefused s = true ∧ s.pair.role ≠ Role.active ∧ (s.pair.role ≠ Role.fault ∨
    s.pair.trig ≠ [])) ∧
    (∃ (t : Nat) (s : State) (ms mu c : Nat) (r : List Nat), (∀ (e c : Nat), s.pair.takeover = some (e, c) → pairBehind s = false ∨
    epochNow s < e) ∧ held s = false ∧ s.jtag.outOfService = false ∧ s.pair.role = Role.active ∧ causes ms mu (advance t s) = c :: r ∧
    (pairBehind s = false ∨ s.pair.takeover.isSome = true) ∧ s.pair.role ≠ Role.solo ∧ (s.pair.role = Role.solo ∨ (advance t s).tim.up <
    s.pair.tallyAt + 12000 * 2 ^ 32) ∧ (pairBehind s = false ∨ s.pair.lost = false ∨ epochNow s < s.pair.tallyEpoch + 3) ∧ (s.pair.role ≠
    Role.link ∨ s.pair.info.hello = true ∨ linkWaited (advance t s) = false) ∧ (∀ (e : Nat), s.pair.handover = some e → epochNow s < e)) ∧
    (∃ (t : Nat) (s : State) (ms mu : Nat), (∀ (e c : Nat), s.pair.takeover = some (e, c) → pairBehind s = false ∨ epochNow s < e) ∧ held
    s = false ∧ s.jtag.outOfService = false ∧ s.pair.role = Role.active ∧ causes ms mu (advance t s) = [] ∧ (pairBehind s = false ∨
    s.pair.takeover.isSome = true) ∧ s.pair.role ≠ Role.solo ∧ (s.pair.role = Role.solo ∨ (advance t s).tim.up < s.pair.tallyAt + 12000 *
    2 ^ 32) ∧ (pairBehind s = false ∨ s.pair.lost = false ∨ epochNow s < s.pair.tallyEpoch + 3) ∧ (s.pair.role ≠ Role.link ∨
    s.pair.info.hello = true ∨ linkWaited (advance t s) = false) ∧ (∀ (e : Nat), s.pair.handover = some e → epochNow s < e)) :=
  ⟨⟨0x50, 0x000A0001, State.reset, reaches_of (by decide +kernel), by decide +kernel⟩,
   ⟨0x50, 0x000A0000, State.reset, reaches_of (by decide +kernel), by decide +kernel⟩,
   ⟨0x50, wr pgPair 0x108 13 (sPair (fun p => { p with role := .active, info := { p.info with role := 3 } })), reaches_of
   (by decide +kernel), by decide +kernel⟩,
   ⟨0x50, sOn .active, reaches_of (by decide +kernel), by decide +kernel⟩,
   ⟨0x50, sPair (fun p => { p with role := .fault, egressHold := true, takeover := some (9, 1) }), reaches_of (by decide +kernel),
   by decide +kernel⟩,
   ⟨0x50, sOn .standby, reaches_of (by decide +kernel), by decide +kernel⟩,
   ⟨0, sPair (fun p => { p with role := .active, trig := [1, 2] }), 0, 0, 1, (causes 0 0 (sPair (fun p =>
   { p with role := .active, trig := [1, 2] }))).drop 1, forall_some2 (by decide +kernel), by decide +kernel⟩,
   ⟨0, sOn .active, 0, 0, forall_some2 (by decide +kernel), by decide +kernel⟩⟩

/-- States and operands that meet the hypotheses of each clause of `PairRecordCommands`. -/
theorem witness_pairRecordCommands :
    (∃ (t : Nat) (s : State) (l : Nat) (b : Bytes), held s = false ∧ s.jtag.outOfService = false ∧ l < 8 ∧ (blane l s).st = 3 ∧
    s.pair.role ≠ Role.solo ∧ has s.pair.hunt l = false ∧ tallyOk b = false ∧ (∀ (b : Nat), s.pair.beatSent = some b → b + 8000 * 2 ^ 32 ≤
    (advance t s).tim.up) ∧ s.pair.role = Role.active ∧ (s.pair.role ≠ Role.active ∨ find? s.pair.own (epochNow s - 1) = none) ∧
    (s.pair.role ≠ Role.active ∨ (s.pair.copyDue || s.pair.macDue) = false) ∧ (look { } s.pair.rx ((epochNow s - 2) % 2 ^ 32)).whole =
    none ∧ (pairBehind s = false ∨ boundaryNear (advance t s) = false ∨ (look { } s.pair.rx ((epochNow s - 1) % 2 ^ 32)).whole.isSome =
    true) ∧ s.pair.role ≠ Role.sync) ∧
    (∃ (t : Nat) (s : State) (l : Nat) (b : Bytes), held s = false ∧ s.jtag.outOfService = false ∧ l < 8 ∧ (blane l s).st = 3 ∧
    s.pair.role ≠ Role.solo ∧ has s.pair.hunt l = false ∧ tallyOk b = false ∧ (∀ (b : Nat), s.pair.beatSent = some b → b + 8000 * 2 ^ 32 ≤
    (advance t s).tim.up) ∧ (s.pair.role ≠ Role.active ∨ find? s.pair.own (epochNow s - 1) = none) ∧ (s.pair.role ≠ Role.active ∨
    (s.pair.copyDue || s.pair.macDue) = false) ∧ (look { } s.pair.rx ((epochNow s - 2) % 2 ^ 32)).whole = none ∧ pairBehind s = true ∧
    (pairBehind s = false ∨ boundaryNear (advance t s) = false ∨ (look { } s.pair.rx ((epochNow s - 1) % 2 ^ 32)).whole.isSome = true) ∧
    s.pair.role ≠ Role.sync) :=
  ⟨⟨0, sOn .active, 7, badTally (tl 1 goose), by decide +kernel⟩,
   ⟨0, sOn .standby, 7, badTally (tl 1 goose), by decide +kernel⟩⟩

/-- States and operands that meet the hypotheses of each clause of `MarshalCommands`. -/
theorem witness_marshalCommands :
    (∃ (c : MshCmd) (r : List MshCmd) (s : State), held s = false ∧ s.msh.queue = c :: r ∧ s.msh.st ≠ 2 ∧ s.boot.ordersEnded = true ∧
    mshForm c.source c.bytes = none) ∧
    (∃ (t : Nat) (c : MshCmd) (r : List MshCmd) (s : State) (ops : List MshOp), held s = false ∧ s.msh.queue = c :: r ∧ s.msh.st ≠ 2 ∧
    s.boot.ordersEnded = true ∧ mshForm c.source c.bytes = some ops ∧ ((if beAt c.bytes 4 8 ≠ s.fixed.ident.serial then 2 else if beAt
    c.bytes 12 8 ≠ if c.source = 3 then 0 else s.msh.bootId then 3 else if ¬((keySlot (byteAt c.bytes 28) s).valid = true ∧ nbit (keySlot
    (byteAt c.bytes 28) s).uses 2 = true) then 4 else if gmac (keySlot (byteAt c.bytes 28) s).key (beAt c.bytes 20 8) (natsOf (List.take
    (List.length c.bytes - 16) c.bytes)) ≠ beAt c.bytes (List.length c.bytes - 16) 16 then 5 else 0) = 0) ∧ Option.any (fun x => x.counter
    == beAt c.bytes 20 8 && x.tag == beAt c.bytes (List.length c.bytes - 16) 16) (find? s.msh.lasts (byteAt c.bytes 28)) = false ∧
    (keySlot (byteAt c.bytes 28) s).lastCounter < beAt c.bytes 20 8 ∧ (mshChecks c.source (byteAt c.bytes 29 % 2 == 1) ops (judged c r t
    s)).1 = 0) ∧
    (∃ (s : State), held s = false ∧ (s.msh.queue = [] ∨ s.msh.st = 2 ∨ s.boot.ordersEnded = false)) ∧
    (∃ (o : Nat) (s : State), Reaches o pgPet 256 s ∧ petRegRefused true o s = false ∧ s.msh.petSt = 0 ∧ s.msh.st ≠ 2) ∧
    (∃ (o : Nat) (s : State), Reaches o pgPet 256 s ∧ petRegRefused true o s = false ∧ s.msh.petSt = 0 ∧ s.msh.st = 2) ∧
    (∃ (o : Nat) (s : State), Reaches o pgPet 256 s ∧ petRegRefused true o s = true) ∧
    (∃ (laneB : Bool) (b : Bytes) (s : State), held s = false ∧ (rb pgTp 256 (b2n laneB) s = true ∧ s.msh.st ≠ 2) ∧ (64 ≤ List.length b ∧
    List.drop (List.length b - 4) b = fcsOf (List.take (List.length b - 4) b) ∧ beAt b 0 6 = tpMac s ∧ beAt b 12 2 = 34997 ∧ beAt (sub b
    14 (List.length b - 18)) 0 2 = 21584 ∧ byteAt (sub b 14 (List.length b - 18)) 3 = 1) ∧ ((List.filter (fun c => c.source == if laneB =
    true then 2 else 1) s.msh.queue).length < 4)) ∧
    (∃ (laneB : Bool) (b : Bytes) (s : State), held s = false ∧ (¬(rb pgTp 256 (b2n laneB) s = true ∧ s.msh.st ≠ 2) ∨ ¬(64 ≤ List.length b
    ∧ List.drop (List.length b - 4) b = fcsOf (List.take (List.length b - 4) b) ∧ beAt b 0 6 = tpMac s ∧ beAt b 12 2 = 34997 ∧ beAt (sub b
    14 (List.length b - 18)) 0 2 = 21584 ∧ byteAt (sub b 14 (List.length b - 18)) 3 = 1))) ∧
    (∃ (s : State), held s = false) ∧
    (∃ (s : State), held s = false) ∧
    (∃ (o : Nat) (s : State), Reaches o pgMsh 304 s) ∧
    (∃ (s : State), held s = false ∧ s.boot.ordersEnded = false ∧ s.msh.st = 0 ∧ (s.boot.active.isSome = true ∨ s.boot.recovery = true) ∧
    (s.boot.recovery = true ∨ s.boot.standing = []) ∧ s.msh.standingFail = false) ∧
    (∃ (s : State), held s = false ∧ (s.boot.ordersEnded = true ∨ s.msh.st ≠ 0 ∨ s.boot.active = none ∧ s.boot.recovery = false)) ∧
    (∃ (t : Nat) (s : State), held s = false ∧ (s.msh.st = 1 ∧ rf pgTp 256 16 16 s ≠ 0 ∧ (s.msh.upA = true ∨ s.msh.upB = true) ∧
    (s.msh.statusDue = true ∨ statusPeriod (advance t s) = true))) ∧
    (∃ (t : Nat) (s : State), held s = false ∧ (s.msh.st = 1 ∧ rf pgTp 256 16 16 s ≠ 0 ∧ (s.msh.upA = true ∨ s.msh.upB = true) ∧
    (s.msh.statusDue = true ∨ statusPeriod (advance t s) = true))) :=
  ⟨⟨⟨2, [1], 0⟩, [], sMsh (⟨2, [1], 0⟩), by decide +kernel⟩,
   ⟨0, eraseCmd, [], sMsh (eraseCmd), [.keyErase 255], by decide +kernel⟩,
   ⟨sMsh eraseCmd |> onMsh (fun m => { m with st := 2 }), by decide +kernel⟩,
   ⟨0x40, sPet id, reaches_of (by decide +kernel), by decide +kernel⟩,
   ⟨0x40, sPet (fun m => { m with st := 2 }), reaches_of (by decide +kernel), by decide +kernel⟩,
   ⟨0x41, sPet id, reaches_of (by decide +kernel), by decide +kernel⟩,
   ⟨true, goodFrame 42, tpB, by decide +kernel⟩,
   ⟨false, goodFrame 42, onMsh (fun m => { m with queue := List.replicate 4 eraseCmd }) tpB, by decide +kernel⟩,
   ⟨tpB, by decide +kernel⟩,
   ⟨tpB, by decide +kernel⟩,
   ⟨0x50, wr pgExp 0x100 0 State.reset, reaches_of (by decide +kernel)⟩,
   ⟨sOrders 2, by decide +kernel⟩,
   ⟨onBoot (fun b => { b with ordersEnded := true }) (sOrders 2), by decide +kernel⟩,
   ⟨0, onMsh (fun m => { m with st := 1, upA := true, upB := true, statusDue := true }) tpB, by decide +kernel⟩,
   ⟨10 ^ 10 * 2 ^ 16, onMsh (fun m => { m with st := 1, upB := true }) tpB, by decide +kernel⟩⟩

/-- States and operands that meet the hypotheses of each clause of `ConsoleCommands`. -/
theorem witness_consoleCommands :
    (∃ (o : Nat) (v : Word) (s : State), Reaches o pgCon 256 s ∧ s.msh.con.owner = none ∧ fld v 0 8 = o) ∧
    (∃ (o h : Nat) (s : State), Reaches o pgCon 256 s ∧ s.msh.con.owner = some h ∧ h ≠ o) ∧
    (∃ (o : Nat) (v : Word) (s : State), Reaches o pgCon 256 s ∧ s.msh.con.owner = none ∧ fld v 0 8 ≠ o) ∧
    (∃ (o : Nat) (s : State), Reaches o pgCon 256 s ∧ s.msh.con.owner = some o) ∧
    (∃ (t h : Nat) (s : State), held s = false ∧ s.msh.con.owner = some h ∧ s.msh.con.accessAt + 100000000 * 2 ^ 32 ≤ (advance t
    s).tim.up) ∧
    (∃ (t h : Nat) (s : State), held s = false ∧ s.msh.con.owner = some h ∧ (advance t s).tim.up < s.msh.con.accessAt + 100000000 * 2 ^
    32) ∧
    (∃ (s : State), held s = false ∧ s.msh.con.owner = none) ∧
    (∃ (c : Nat) (s : State), held s = false ∧ c < 4) ∧
    (∃ (c : Nat) (s : State), held s = false ∧ c < 4) ∧
    (∃ (op t o : Nat) (cmd : Instr) (s : State), Reaches o pgCon 284 s ∧ (op, cmd) ∈ [(0, Instr.gmacGen t o), (1, Instr.gmacVerify t o),
    (2, Instr.gcmEnc t o), (3, Instr.gcmDec t o)] ∧ rf pgCon 260 0 2 s = op ∧ conForeign o s = false ∧ s.msh.con.busy = false ∧ (¬(nbit
    s.msh.fault 3 = true ∨ 4096 < rf pgCon 264 0 13 s + rf pgCon 268 0 13 s)) ∧ ((keySlot (rf pgCon 260 2 8 s) s).valid = true ∧ nbit
    (keySlot (rf pgCon 260 2 8 s) s).uses (if 2 ≤ op then 5 else 4) = true) ∧ op % 2 = 0 ∧ op = 0 ∧ (keySlot (rf pgCon 260 2 8 s) s).ivCtr
    ≠ 4294967295) ∧
    (∃ (op t o : Nat) (cmd : Instr) (s : State), Reaches o pgCon 284 s ∧ (op, cmd) ∈ [(0, Instr.gmacGen t o), (1, Instr.gmacVerify t o),
    (2, Instr.gcmEnc t o), (3, Instr.gcmDec t o)] ∧ rf pgCon 260 0 2 s ≠ op ∧ held s = false) ∧
    (∃ (t res : Nat) (out : Bytes) (tag iv : Option Nat) (s : State), held s = false ∧ s.msh.con.job = some (res, out, tag, iv) ∧
    s.msh.con.jobAt ≤ (advance t s).tim.up) ∧
    (∃ (t res : Nat) (out : Bytes) (tag iv : Option Nat) (s : State), held s = false ∧ s.msh.con.job = some (res, out, tag, iv) ∧ (advance
    t s).tim.up < s.msh.con.jobAt) ∧
    (∃ (s : State), held s = false ∧ s.msh.con.job = none) :=
  ⟨⟨0x40, 0x80000040, State.reset, reaches_of (by decide +kernel), by decide +kernel⟩,
   ⟨0x41, 0x40, sConOwned 0x40, reaches_of (by decide +kernel), by decide +kernel⟩,
   ⟨0x40, 0x80000041, State.reset, reaches_of (by decide +kernel), by decide +kernel⟩,
   ⟨0x40, sConOwned 0x40, reaches_of (by decide +kernel), by decide +kernel⟩,
   ⟨100000000 * 2 ^ 16, 0x40, sConOwned 0x40, by decide +kernel⟩,
   ⟨0, 0x40, sConOwned 0x40, by decide +kernel⟩,
   ⟨State.reset, by decide +kernel⟩,
   ⟨3, sCore 0, by decide +kernel⟩,
   ⟨3, sCore 1, by decide +kernel⟩,
   ⟨0, 0, 0x40, Instr.gmacGen 0 0x40, sCon 0, reaches_of (by decide +kernel), by decide +kernel⟩,
   ⟨0, 0, 0x40, Instr.gmacGen 0 0x40, sCon 1, reaches_of (by decide +kernel), by decide +kernel⟩,
   ⟨0, 0, [1], some (2 ^ 128 - 1), some (2 ^ 96 - 2), sConJob, by decide +kernel⟩,
   ⟨0, 0, [1], some (2 ^ 128 - 1), some (2 ^ 96 - 2), onMsh (fun m => { m with con := { m.con with jobAt := 5 } }) sConJob,
   by decide +kernel⟩,
   ⟨State.reset, by decide +kernel⟩⟩

/-- States and operands that meet the hypotheses of each clause of `SelfTestAndFaults`. -/
theorem witness_selfTestAndFaults :
    (∃ (t : Nat) (s : State), held s = false ∧ s.msh.heat.cur.isSome = true ∧ s.msh.heat.res = none ∧ s.pac.draining = true ∧ heatPast
    1500 (advance t s) = true ∧ (s.pac.draining = true ∨ heatPast 1980001 (advance t s) = true)) ∧
    (∃ (t : Nat) (s : State), held s = false ∧ s.msh.heat.cur.isSome = true ∧ s.msh.heat.res = none ∧ s.pac.draining = true ∧
    (s.pac.draining = false ∨ heatPast 1500 (advance t s) = false) ∧ (s.pac.draining = true ∨ heatPast 1980001 (advance t s) = true)) ∧
    (∃ (s : State), held s = false ∧ (s.msh.heat.cur = none ∨ s.msh.heat.res.isSome = true)) ∧
    (∃ (o : Nat) (v : Word) (s : State), Reaches o pgSt 276 s ∧ fld v 0 5 < pipes s ∧ ¬fld v 0 5 ∈ s.pac.retired) ∧
    (∃ (o : Nat) (v : Word) (s : State), Reaches o pgSt 276 s ∧ (pipes s ≤ fld v 0 5 ∨ fld v 0 5 ∈ s.pac.retired)) ∧
    (∃ (o : Nat) (v : Word) (s : State), Reaches o pgSt 276 s ∧ (pipes s ≤ fld v 0 5 ∨ fld v 0 5 ∈ s.pac.retired)) ∧
    (∃ (o : Nat) (s : State), Reaches o pgSt 280 s) ∧
    (∃ (s : State), held s = false) ∧
    (∃ (slot : Nat) (s : State), held s = false ∧ slot < 256) ∧
    (∃ (s : State), held s = false) ∧
    (∃ (s : State), held s = false ∧ rb pgSt 256 2 s = true) ∧
    (∃ (s : State), held s = false ∧ rb pgSt 256 2 s = true) ∧
    (∃ (s : State), held s = false) ∧
    (∃ (s : State), held s = false) :=
  ⟨⟨1500 * 2 ^ 16, sHeat true, by decide +kernel⟩,
   ⟨0, sHeat true, by decide +kernel⟩,
   ⟨State.reset, by decide +kernel⟩,
   ⟨0x50, 0x80000010, State.reset, reaches_of (by decide +kernel), by decide +kernel⟩,
   ⟨0x50, 0x80000003, sRetired, reaches_of (by decide +kernel), by decide +kernel⟩,
   ⟨0x50, 0x8000001F, State.reset, reaches_of (by decide +kernel), by decide +kernel⟩,
   ⟨0x50, sRetired, reaches_of (by decide +kernel)⟩,
   ⟨State.reset, by decide +kernel⟩,
   ⟨255, sErase, by decide +kernel⟩,
   ⟨sErase, by decide +kernel⟩,
   ⟨wr pgSt 0x100 4 (onMsh (fun m => { m with heat := { m.heat with cellNext := 196607 } }) State.reset), by decide +kernel⟩,
   ⟨wr pgSt 0x100 4 State.reset, by decide +kernel⟩,
   ⟨State.reset, by decide +kernel⟩,
   ⟨State.reset, by decide +kernel⟩⟩

/-- States and operands that meet the hypotheses of each clause of `DmaCommands`. -/
theorem witness_dmaCommands :
    (∃ (f i : Nat) (v : Word) (s : State), held s = false ∧ f < 64 ∧ i < 8 ∧ (f = 0 ∨ vfOn f s = true) ∧ rxEn (8 * f + i) s = true ∧
    BitVec.toNat v < rxSize (8 * f + i) s ∧ txEn (8 * f + i) s = true ∧ BitVec.toNat v < txSize (8 * f + i) s) ∧
    (∃ (f i : Nat) (v : Word) (s : State), held s = false ∧ f < 64 ∧ i < 8 ∧ (f = 0 ∨ vfOn f s = true) ∧ rxEn (8 * f + i) s = true ∧ txEn
    (8 * f + i) s = true ∧ (rxEn (8 * f + i) s = false ∨ rxSize (8 * f + i) s ≤ BitVec.toNat v) ∧ (txEn (8 * f + i) s = false ∨ txSize (8
    * f + i) s ≤ BitVec.toNat v)) ∧
    (∃ (f off : Nat) (whole : Bool) (s : State), held s = false ∧ (63 < f ∨ 128 ≤ off ∨ off % 16 ≠ 0 ∧ off % 16 ≠ 4 ∨ whole = false ∨ f ≠
    0 ∧ vfOn f s = false)) ∧
    (∃ (s : State), held s = false) ∧
    (∃ (t p : Nat) (desc : List Word) (s : State) (id : Nat) (e : QEnt) (a : State), held s = false ∧ (pairFetches p s = true ∧ rxEn p s =
    true ∧ (qp p s).rxHead ≠ (qp p s).rxTail ∧ queue (puntQ p) s ≠ [] ∧ ¬(arcOn s = true ∧ puntQ p = ackQueue s)) ∧ ((fun i =>
    BitVec.toNat (desc.getD i 0)) 2 % 64 = 0 ∧ 64 ≤ (fun i => BitVec.toNat (desc.getD i 0)) 2 ∧ (fun i => BitVec.toNat (desc.getD i 0)) 2
    ≤ 16384) ∧ dequeue (puntQ p) (advance t s) = some (id, e, a)) ∧
    (∃ (p : Nat) (desc : List Word) (s : State), held s = false ∧ (pairFetches p s = true ∧ rxEn p s = true ∧ (qp p s).rxHead ≠ (qp p
    s).rxTail ∧ queue (puntQ p) s ≠ [] ∧ ¬(arcOn s = true ∧ puntQ p = ackQueue s)) ∧ (¬((fun i => BitVec.toNat (desc.getD i 0)) 2 % 64 = 0
    ∧ 64 ≤ (fun i => BitVec.toNat (desc.getD i 0)) 2 ∧ (fun i => BitVec.toNat (desc.getD i 0)) 2 ≤ 16384))) ∧
    (∃ (p : Nat) (s : State), held s = false ∧ (pairFetches p s = false ∨ txEn p s = false ∨ (qp p s).txHead = (qp p s).txTail ∨ (qp p
    s).tx ≠ none)) ∧
    (∃ (p : Nat) (desc : List Word) (s : State), held s = false ∧ pairFetches p s = true ∧ txEn p s = true ∧ (qp p s).txHead ≠ (qp p
    s).txTail ∧ (qp p s).tx = none ∧ tb tbFn (p / 8) 0 2 s = false ∧ txRefusal p ((fun i => BitVec.toNat (desc.getD i 0)) 2) ((fun i =>
    BitVec.toNat (desc.getD i 0)) 3) s ≠ 0) ∧
    (∃ (p : Nat) (desc : List Word) (s : State), held s = false ∧ pairFetches p s = true ∧ txEn p s = true ∧ (qp p s).txHead ≠ (qp p
    s).txTail ∧ (qp p s).tx = none ∧ tb tbFn (p / 8) 0 2 s = false ∧ txRefusal p ((fun i => BitVec.toNat (desc.getD i 0)) 2) ((fun i =>
    BitVec.toNat (desc.getD i 0)) 3) s = 0 ∧ (fun i => BitVec.toNat (desc.getD i 0)) 2 / 16384 % 4 = 1) ∧
    (∃ (p : Nat) (s : State), held s = false ∧ (p < 512 ∧ (rxEn p s = true ∨ txEn p s = true) ∧ (qp p s).err = false) ∧ (¬(txEn p s = true
    ∧ (qp p s).tx = none ∧ (qp p s).txHead ≠ (qp p s).txTail))) ∧
    (∃ (p : Nat) (s : State), held s = false ∧ (p < 512 ∧ (rxEn p s = true ∨ txEn p s = true) ∧ (qp p s).err = false) ∧ (txEn p s = true ∧
    (qp p s).tx = none ∧ (qp p s).txHead ≠ (qp p s).txTail) ∧ tb tbFn (p / 8) 0 2 s = false) ∧
    (∃ (t p : Nat) (s : State), held s = false ∧ (qp p s).pend = true ∧ itrOver p (advance t s) = true) ∧
    (∃ (t p : Nat) (s : State), held s = false ∧ ((qp p s).pend = false ∨ itrOver p (advance t s) = false)) :=
  ⟨⟨63, 7, 15, sHif id, by decide +kernel⟩,
   ⟨63, 7, 16, sHif id, by decide +kernel⟩,
   ⟨64, 0, false, sHif id, by decide +kernel⟩,
   ⟨sHif id, by decide +kernel⟩,
   ⟨0, 511, descRx 64, sRx, rxId, rxEnt, rxAft, by decide +kernel⟩,
   ⟨511, descRx0, sRx, by decide +kernel⟩,
   ⟨511, sHif id, by decide +kernel⟩,
   ⟨511, descTx (59 + 16384), sTx, by decide +kernel⟩,
   ⟨511, descTx (64 + 16384), sTx, by decide +kernel⟩,
   ⟨511, sHif id, by decide +kernel⟩,
   ⟨511, sTxErr, by decide +kernel⟩,
   ⟨0, 511, sPend (some 0), by decide +kernel⟩,
   ⟨0, 511, sHif id, by decide +kernel⟩⟩

/-- States and operands that meet the hypotheses of each clause of `MailboxAndDirtyCommands`. -/
theorem witness_mailboxAndDirtyCommands :
    (∃ (o k len q : Nat) (s : State), Admitted o 26 s ∧ pfSide o = true ∧ k < 8 ∧ len < 128 ∧ q < 256 ∧ (4 ≤ k ∧ (mbx (8 * mbxBase s + k)
    s).posted = false ∧ 1 ≤ len ∧ len ≤ 64) ∧ (¬(k < 4 ∧ (mbx (8 * mbxBase s + k) s).posted = true ∧ (mbx (8 * mbxBase s + k) s).seq =
    q))) ∧
    (∃ (o k len q : Nat) (s : State), Admitted o 26 s ∧ pfSide o = true ∧ k < 8 ∧ len < 128 ∧ q < 256 ∧ (¬(4 ≤ k ∧ (mbx (8 * mbxBase s +
    k) s).posted = false ∧ 1 ≤ len ∧ len ≤ 64)) ∧ (k < 4 ∧ (mbx (8 * mbxBase s + k) s).posted = true ∧ (mbx (8 * mbxBase s + k) s).seq =
    q)) ∧
    (∃ (o k len q : Nat) (s : State), held s = false ∧ isVf o = true ∧ viewAnswers o s = true ∧ pageLive 26 s = true ∧ pageLive pgHif s =
    true ∧ heldOrigin 26 o s = false ∧ k < 8 ∧ len < 128 ∧ q < 256 ∧ (k < 4 ∧ (mbx (8 * o + k) s).posted = false ∧ 1 ≤ len ∧ len ≤ 64) ∧
    (¬(4 ≤ k ∧ (mbx (8 * o + k) s).posted = true ∧ (mbx (8 * o + k) s).seq = q))) ∧
    (∃ (o k len q : Nat) (s : State), held s = false ∧ isVf o = true ∧ viewAnswers o s = true ∧ pageLive 26 s = true ∧ pageLive pgHif s =
    true ∧ heldOrigin 26 o s = false ∧ k < 8 ∧ len < 128 ∧ q < 256 ∧ (¬(k < 4 ∧ (mbx (8 * o + k) s).posted = false ∧ 1 ≤ len ∧ len ≤ 64))
    ∧ (4 ≤ k ∧ (mbx (8 * o + k) s).posted = true ∧ (mbx (8 * o + k) s).seq = q)) ∧
    (∃ (o : Nat) (s : State), held s = false ∧ isVf o = true ∧ viewAnswers o s = false) ∧
    (∃ (o f : Nat) (s : State), Reaches o pgHif 292 s ∧ f < 64 ∧ (fnSt f s).busy = false) ∧
    (∃ (o f : Nat) (s : State), Reaches o pgHif 292 s ∧ f < 64 ∧ (fnSt f s).busy = true) ∧
    (∃ (f : Nat) (s : State), held s = false ∧ (fnSt f s).busy = true) ∧
    (∃ (f : Nat) (s : State), held s = false ∧ (fnSt f s).busy = false) ∧
    (∃ (o f : Nat) (s : State), Admitted o pgHif s ∧ f < 64 ∧ pfSide o = true) ∧
    (∃ (o f : Nat) (s : State), Admitted o pgHif s ∧ f < 64 ∧ pfSide o = false) ∧
    (∃ (f : Nat) (s : State), held s = false ∧ (tb tbFn f 0 3 s = true ∧ (fnSt f s).stopped = false ∧ ∀ (i : Nat), i < 8 → (qp (8 * f + i)
    s).tx = none)) ∧
    (∃ (f : Nat) (s : State), held s = false ∧ (¬(tb tbFn f 0 3 s = true ∧ (fnSt f s).stopped = false ∧ ∀ (i : Nat), i < 8 → (qp (8 * f +
    i) s).tx = none))) :=
  ⟨⟨0x40, 7, 64, 0, sMbx 7 { rst := true, seq := 255 }, admitted_of (by decide +kernel), by decide +kernel⟩,
   ⟨0x40, 3, 0, 255, sMbx 3 { posted := true, seq := 255, len := 64 }, admitted_of (by decide +kernel), by decide +kernel⟩,
   ⟨63, 3, 64, 0, sView 3 { rst := true, seq := 255 }, by decide +kernel⟩,
   ⟨63, 7, 0, 255, sView 7 { posted := true, seq := 255, len := 64 }, by decide +kernel⟩,
   ⟨63, sMbx 3 {}, by decide +kernel⟩,
   ⟨0x40, 63, sDirty, reaches_of (by decide +kernel), by decide +kernel⟩,
   ⟨0x40, 63, onHif (fun h => { h with fn := [(63, { busy := true })] }) State.reset, reaches_of (by decide +kernel), by decide +kernel⟩,
   ⟨63, onHif (fun h => { h with fn := [(63, { busy := true })] }) State.reset, by decide +kernel⟩,
   ⟨63, sDirty, by decide +kernel⟩,
   ⟨0x40, 63, tput tbFn 63 0 5 State.reset, admitted_of (by decide +kernel), by decide +kernel⟩,
   ⟨0x50, 63, State.reset, admitted_of (by decide +kernel), by decide +kernel⟩,
   ⟨63, tput tbFn 63 0 8 State.reset, by decide +kernel⟩,
   ⟨63, State.reset, by decide +kernel⟩⟩

/-- States and operands that meet the hypotheses of each clause of `FunctionResetCommands`. -/
theorem witness_functionResetCommands :
    (∃ (v : Nat) (s : State), held s = false ∧ 1 ≤ v ∧ v < 64) ∧
    (∃ (v : Nat) (s : State), held s = false ∧ 1 ≤ v ∧ v < 64) ∧
    (∃ (v : Nat) (s : State), held s = false ∧ (v = 0 ∨ 63 < v)) ∧
    (∃ (v : Nat) (s : State), held s = false ∧ v ∈ s.hif.flr) ∧
    (∃ (v : Nat) (s : State), held s = false ∧ ¬v ∈ s.hif.flr) ∧
    (∃ (s : State), held s = false) ∧
    (∃ (s : State), held s = false) ∧
    (∃ (s : State), held s = false) ∧
    (∃ (s : State), held s = false) :=
  ⟨⟨63, sHif (fun q => { q with rxHead := 5, txTail := 4 }), by decide +kernel⟩,
   ⟨63,
   { sMbx 3 { posted := true, len := 9 } with msh := { State.reset.msh with con := { State.reset.msh.con with owner := some 63, output := [1] } } },
   by decide +kernel⟩,
   ⟨64, sHif id, by decide +kernel⟩,
   ⟨63, onHif (fun h => { h with flr := [63] }) State.reset, by decide +kernel⟩,
   ⟨63, State.reset, by decide +kernel⟩,
   ⟨sHif (fun q => { q with rxHead := 5, txTail := 4 }), by decide +kernel⟩,
   ⟨{ sMbx 3 { posted := true, len := 9 } with msh := { State.reset.msh with con := { State.reset.msh.con with owner := some 63, output := [1] } } },
   by decide +kernel⟩,
   ⟨onHif (fun h => { h with pfReset := true }) State.reset, by decide +kernel⟩,
   ⟨State.reset, by decide +kernel⟩⟩

/-- States and operands that meet the hypotheses of each clause of `ResetCommands`. -/
theorem witness_resetCommands :
    (∃ (rail : Rail) (uv : Nat), uv < railMinUv rail) ∧
    (∃ (rail : Rail) (uv : Nat), railMinUv rail ≤ uv) ∧
    (∃ (t o : Nat) (s : State), Reaches o pgFw 292 s ∧ rstArmed (advance t s) = false) ∧
    (∃ (t o : Nat) (s : State), Reaches o pgFw 292 s ∧ rstArmed (advance t s) = false) ∧
    (∃ (s : State), jtagLocked s = false) ∧
    (∃ (s : State), jtagLocked s = false) ∧
    (∃ (s : State), s.boot.inReset = true) ∧
    (∃ (s : State), s.boot.inReset = true) ∧
    (∃ (s : State), s.boot.inReset = true ∧ s.boot.selfHold = true ∧ s.boot.rstN = true ∧ s.boot.devPg = true) ∧
    (∃ (s : State), s.boot.inReset = true ∧ s.boot.selfHold = true ∧ s.boot.rstN = true ∧ s.boot.devPg = true) ∧
    (∃ (s : State), s.boot.inReset = false) ∧
    (∃ (s : State), (s.boot.inReset = false ∨ s.boot.selfHold = false)) ∧
    (∃ (s : State), s.boot.inReset = true ∧ s.boot.selfHold = true ∧ (s.boot.rstN = false ∨ s.boot.devPg = false)) ∧
    (∃ (o : Nat) (s : State), Reaches o pgFw 288 s) ∧
    (∃ (o : Nat) (s : State), Reaches o pgFw 288 s) ∧
    (∃ (t : Nat) (s : State) (a : Nat), held s = false ∧ s.boot.armed = some a ∧ (advance t s).tim.up ≤ a) ∧
    (∃ (t : Nat) (s : State) (a : Nat), held s = false ∧ (∀ (a : Nat), s.boot.armed = some a → a < (advance t s).tim.up) ∧ s.boot.armed =
    some a) ∧
    (∃ (s : State), held s = false) :=
  ⟨⟨.vddFe, 3, by decide +kernel⟩,
   ⟨.vddFe, 3000000, by decide +kernel⟩,
   ⟨0, 0x50, sErase, reaches_of (by decide +kernel), by decide +kernel⟩,
   ⟨0, 0x50, sBurn, reaches_of (by decide +kernel), by decide +kernel⟩,
   ⟨sErase, by decide +kernel⟩,
   ⟨sBurn, by decide +kernel⟩,
   ⟨onBoot (fun b => { b with powerLost := true }) sSelf, by decide +kernel⟩,
   ⟨sSelf, by decide +kernel⟩,
   ⟨onBoot (fun b => { b with powerLost := true }) sSelf, by decide +kernel⟩,
   ⟨sSelf, by decide +kernel⟩,
   ⟨State.reset, by decide +kernel⟩,
   ⟨sHeld, by decide +kernel⟩,
   ⟨onBoot (fun b => { b with rstN := false }) sSelf, by decide +kernel⟩,
   ⟨0x50, State.reset, reaches_of (by decide +kernel)⟩,
   ⟨0x50, State.reset, reaches_of (by decide +kernel)⟩,
   ⟨0, onBoot (fun b => { b with armed := some 100 }) State.reset, 100, by decide +kernel⟩,
   ⟨1, onBoot (fun b => { b with armed := some 100 }) State.reset, 100, by decide +kernel⟩,
   ⟨State.reset, by decide +kernel⟩⟩

/-- States and operands that meet the hypotheses of each clause of `BootCommands`. -/
theorem witness_bootCommands :
    (∃ (s : State), s.boot.inReset = false ∧ s.boot.sensed = false) ∧
    (∃ (s : State), s.boot.inReset = false ∧ s.boot.sensed = false) ∧
    (∃ (s : State), (s.boot.inReset = true ∨ s.boot.sensed = true)) ∧
    (∃ (s : State), held s = false ∧ s.boot.banks = []) ∧
    (∃ (t b : Nat) (r : List Nat) (s : State) (err : Nat), held s = false ∧ s.boot.banks = b :: r ∧ err ≠ 2 ∧ (bankCheck b (decide (err =
    1)) (advance t s)).code ≠ 0) ∧
    (∃ (t b : Nat) (r : List Nat) (s : State) (err : Nat), held s = false ∧ s.boot.banks = b :: r ∧ err ≠ 2 ∧ err = 1 ∧ (bankCheck b
    (decide (err = 1)) (advance t s)).code ≠ 0) ∧
    (∃ (s : State), held s = false ∧ (s.boot.active = none ∨ s.boot.startup[s.boot.startIdx]? = none)) ∧
    (∃ (r : StartRec) (s : State) (row : RegRow), Reaches 127 r.page r.off s ∧ held s = false ∧ s.boot.active.isSome = true ∧
    s.boot.startup[s.boot.startIdx]? = some r ∧ r.op = 0 ∧ regAt r.page r.off = some row ∧ (352 ≤ r.page ∧ r.page < 368 ∨ r.page = 422 ∨
    432 ≤ r.page ∧ r.page < 448) ∧ (row.acc = Acc.rw ∨ row.acc = Acc.rwd ∧ rb r.page 8 0 s = false ∧ frozenPage r.page s = false)) ∧
    (∃ (r : StartRec) (s : State) (row : RegRow), Reaches 127 r.page r.off s ∧ held s = false ∧ s.boot.active.isSome = true ∧
    s.boot.startup[s.boot.startIdx]? = some r ∧ r.op = 0 ∧ regAt r.page r.off = some row ∧ (352 ≤ r.page ∧ r.page < 368 ∨ r.page = 422 ∨
    432 ≤ r.page ∧ r.page < 448) ∧ (row.acc = Acc.rw ∨ row.acc = Acc.rwd ∧ rb r.page 8 0 s = false ∧ frozenPage r.page s = false)) ∧
    (∃ (p : Nat) (s : State), held s = false ∧ (pageLive p s = true ∧ p < 512 ∧ look 0 s.boot.ready p = 0)) ∧
    (∃ (p : Nat) (s : State), held s = false ∧ (pageLive p s = true ∧ p < 512 ∧ look 0 s.boot.ready p = 0)) :=
  ⟨⟨onBoot (fun b => { b with sensed := false }) State.reset, by decide +kernel⟩,
   ⟨sSense 0 1, by decide +kernel⟩,
   ⟨onBoot (fun b => { b with sensed := true }) State.reset, by decide +kernel⟩,
   ⟨State.reset, by decide +kernel⟩,
   ⟨0, 0, [1], onBoot (fun b => { b with banks := [0, 1] }) State.reset, 0, by decide +kernel⟩,
   ⟨0, 1, [], onBoot (fun b => { b with banks := [1] }) State.reset, 1, by decide +kernel⟩,
   ⟨State.reset, by decide +kernel⟩,
   ⟨recW 0x160, sBank (recW 0x160), rowOf 0x160 0x104, reaches_of (by decide +kernel), by decide +kernel⟩,
   ⟨recW 0x1B0, sBank (recW 0x1B0), rowOf 0x1B0 0x104, reaches_of (by decide +kernel), by decide +kernel⟩,
   ⟨0x1D4, State.reset, by decide +kernel⟩,
   ⟨0x160, State.reset, by decide +kernel⟩⟩

/-- States and operands that meet the hypotheses of each clause of `BootRecordInForce`. -/
theorem witness_bootRecordInForce :
    (∃ (f : BootRec → BootRec) (s : State), (f (theRec s)).seq = (theRec s).seq ∧ (f (theRec s)).preferred < 256 ∧ (f (theRec s)).try_ <
    256 ∧ (f (theRec s)).left < 256) ∧
    (∃ (f : BootRec → BootRec) (s : State), (f (theRec s)).seq = (theRec s).seq ∧ (f (theRec s)).preferred < 256 ∧ (f (theRec s)).try_ <
    256 ∧ (f (theRec s)).left < 256) :=
  ⟨⟨(fun r => { r with preferred := 1, left := 255 }), State.reset, by decide +kernel⟩,
   ⟨id, sFlash 0 0, by decide +kernel⟩⟩

/-- States and operands that meet the hypotheses of each clause of `FirmwareCommands`. -/
theorem witness_firmwareCommands :
    (∃ (o b : Nat) (s : State), Reaches o pgFw 268 s ∧ s.boot.active = some b ∧ s.boot.recovery = false ∧ s.boot.checkBusy = false) ∧
    (∃ (o b : Nat) (s : State), Reaches o pgFw 268 s ∧ s.boot.active = some b ∧ s.boot.recovery = false ∧ s.boot.checkBusy = true) ∧
    (∃ (o : Nat) (s : State), Reaches o pgFw 268 s ∧ (s.boot.active = none ∨ s.boot.recovery = true)) ∧
    (∃ (b : Nat) (s : State), held s = false ∧ s.boot.active = some b ∧ s.boot.checkBusy = true) ∧
    (∃ (b : Nat) (s : State), held s = false ∧ s.boot.active = some b ∧ s.boot.checkBusy = true) ∧
    (∃ (s : State), held s = false ∧ (s.boot.active = none ∨ s.boot.checkBusy = false)) ∧
    (∃ (o : Nat) (s : State), Reaches o pgFw 308 s ∧ s.boot.flashBusy = false) ∧
    (∃ (o : Nat) (s : State), Reaches o pgFw 308 s ∧ s.boot.flashBusy = true) ∧
    (∃ (s : State), held s = false ∧ s.boot.flashBusy = false) ∧
    (∃ (err : Bool) (s : State), held s = false ∧ s.boot.flashBusy = true ∧ ¬flashProtected s.boot.flashOp s.boot.flashAddr s = true ∧ err
    = false ∧ s.boot.flashOp = 0) ∧
    (∃ (s : State), held s = false ∧ s.boot.flashBusy = true ∧ flashProtected s.boot.flashOp s.boot.flashAddr s = true) ∧
    (∃ (o : Nat) (s : State), Reaches o pgFw 320 s ∧ pkvRefused s = false) ∧
    (∃ (o : Nat) (s : State), Reaches o pgFw 320 s ∧ pkvRefused s = true) ∧
    (∃ (t : Nat) (s : State), held s = false ∧ (s.boot.pkvBusy = true ∧ s.boot.pkvAt + 3199000 * 2 ^ 32 ≤ (advance t s).tim.up)) ∧
    (∃ (t : Nat) (s : State), held s = false ∧ (¬(s.boot.pkvBusy = true ∧ s.boot.pkvAt + 3199000 * 2 ^ 32 ≤ (advance t s).tim.up))) ∧
    (∃ (o : Nat) (s : State), Reaches o pgFuse 276 s) ∧
    (∃ (o : Nat) (s : State), Reaches o pgFuse 276 s) ∧
    (∃ (s : State), held s = false ∧ s.boot.fuseBusy = true) ∧
    (∃ (s : State), held s = false ∧ s.boot.fuseBusy = true) ∧
    (∃ (s : State), held s = false ∧ s.boot.fuseBusy = false) :=
  ⟨⟨0x50, 1, sBank (recW 0), reaches_of (by decide +kernel), by decide +kernel⟩,
   ⟨0x50, 1, onBoot (fun b => { b with checkBusy := true }) (sBank (recW 0)), reaches_of (by decide +kernel), by decide +kernel⟩,
   ⟨0x50, State.reset, reaches_of (by decide +kernel), by decide +kernel⟩,
   ⟨1, onBoot (fun b => { b with active := some 1, checkBusy := true }) State.reset, by decide +kernel⟩,
   ⟨0, onBoot (fun b => { b with active := some 0, checkBusy := true }) State.reset, by decide +kernel⟩,
   ⟨State.reset, by decide +kernel⟩,
   ⟨0x50, wr pgFw 0x130 0xFFFFFF00 State.reset, reaches_of (by decide +kernel), by decide +kernel⟩,
   ⟨0x50, sFlash 0 0, reaches_of (by decide +kernel), by decide +kernel⟩,
   ⟨State.reset, by decide +kernel⟩,
   ⟨false, sFlash 0 0x1FF00, by decide +kernel⟩,
   ⟨sFlash 1 0x1FF00, by decide +kernel⟩,
   ⟨0x50, State.reset, reaches_of (by decide +kernel), by decide +kernel⟩,
   ⟨0x50, onBoot (fun b => { b with pkvBusy := true, pkvNext := 3 }) State.reset, reaches_of (by decide +kernel), by decide +kernel⟩,
   ⟨3199000 * 2 ^ 16, onBoot (fun b => { b with pkvBusy := true, pkvNext := 3 }) State.reset, by decide +kernel⟩,
   ⟨0, onBoot (fun b => { b with pkvBusy := true, pkvNext := 3 }) State.reset, by decide +kernel⟩,
   ⟨0x40, onBoot (fun b => { b with confirmed := true, rootSlot := some 2 }) State.reset, reaches_of (by decide +kernel)⟩,
   ⟨0x40, onBoot (fun b => { b with confirmed := true, rootSlot := some 2 }) State.reset, reaches_of (by decide +kernel)⟩,
   ⟨sBurn, by decide +kernel⟩,
   ⟨sBurn, by decide +kernel⟩,
   ⟨State.reset, by decide +kernel⟩⟩

/-- States and operands that meet the hypotheses of each clause of `JtagCommands`. -/
theorem witness_jtagCommands :
    (∃ (s : State), jtagLocked s = true) ∧
    (∃ (s : State), find? s.regs.latch (lkey 126 (rkey 6 260)) = none) ∧
    (∃ (s : State), find? s.regs.latch (lkey 126 (rkey 6 260)) = none) ∧
    (∃ (p off : Nat) (row : RegRow) (s : State), Reaches 126 p off s ∧ regAt p off = some row ∧ off % 4 = 0 ∧ (352 ≤ p ∧ p < 368 ∨ p = 422
    ∨ 432 ≤ p ∧ p < 448) ∧ (row.acc = Acc.rw ∨ row.acc = Acc.rwd ∧ rb p 8 0 s = false ∧ frozenPage p s = false)) ∧
    (∃ (w : Nat) (s : State), held s = true ∧ (nbit w 63 = true ∨ nfld w 54 9 ≠ 6)) ∧
    (∃ (w : Nat) (s : State), held s = true ∧ (nbit w 63 = true ∨ nfld w 54 9 ≠ 6)) ∧
    (∃ (w : Nat) (s : State), held s = false ∧ jtagLocked s = true ∧ (nbit w 63 = true ∨ nfld w 54 9 ≠ 6) ∧ nfld w 54 9 ≠ pgCon) ∧
    (∃ (w : Nat) (s : State), held s = false ∧ jtagLocked s = true ∧ (nbit w 63 = true ∨ nfld w 54 9 ≠ 6) ∧ nfld w 54 9 ≠ pgCon) :=
  ⟨⟨sLocked, by decide +kernel⟩,
   ⟨sHeld, by decide +kernel⟩,
   ⟨sLocked, by decide +kernel⟩,
   ⟨0x160, 0x104, rowOf 0x160 0x104, State.reset, reaches_of (by decide +kernel), by decide +kernel⟩,
   ⟨0x0140000000000000, sHeld, by decide +kernel⟩,
   ⟨0x8180000000000000, sHeld, by decide +kernel⟩,
   ⟨0x0140000000000000, sLocked, by decide +kernel⟩,
   ⟨0x8140000000000000, sLocked, by decide +kernel⟩⟩

/-- States and operands that meet the hypotheses of each clause of `DieLinkCommands`. -/
theorem witness_dieLinkCommands :
    (∃ (n : Nat) (s : State), held s = false ∧ 64 ≤ n) ∧
    (∃ (n : Nat) (s : State), held s = false ∧ n < 62) ∧
    (∃ (dir n : Nat) (chk : FlitCheck) (s : State), held s = false ∧ s.arc.taps = [] ∧ (n = 62 ∨ n = 63) ∧ chk ≠ FlitCheck.uncorrectable ∧
    look [] s.link.awaiting (dieKey dir (sliceChan n)) = []) ∧
    (∃ (dir n : Nat) (chk : FlitCheck) (s : State), held s = false ∧ s.arc.taps = [] ∧ (n = 62 ∨ n = 63) ∧ chk ≠ FlitCheck.uncorrectable ∧
    look [] s.link.awaiting (dieKey dir (sliceChan n)) ≠ []) ∧
    (∃ (n : Nat) (s : State), held s = false ∧ (n = 62 ∨ n = 63)) ∧
    (∃ (dir n : Nat) (chk : FlitCheck) (s : State), held s = false ∧ s.arc.taps = [] ∧ n < 62 ∧ chk ≠ FlitCheck.uncorrectable ∧
    (chanSlices (sliceChan n)).fst + look 0 s.link.nextPlace (dieKey dir (sliceChan n)) ≠ n ∧ look [] s.link.early (64 * (dir % 2) +
    (chanSlices (sliceChan n)).fst + look 0 s.link.nextPlace (dieKey dir (sliceChan n))) = []) ∧
    (∃ (dir n : Nat) (chk : FlitCheck) (items : List FlitItem) (s : State), held s = false ∧ s.arc.taps = [] ∧ n < 62 ∧ chk ≠
    FlitCheck.uncorrectable ∧ ((chanSlices (sliceChan n)).fst + look 0 s.link.nextPlace (dieKey dir (sliceChan n)) = n ∧ ∀ (i : Nat), i <
    (chanSlices (sliceChan n)).snd → look [] s.link.early (64 * (dir % 2) + (chanSlices (sliceChan n)).fst + i) = []) ∧ items.all
    (crossesOn n) = true) :=
  ⟨⟨64, State.reset, by decide +kernel⟩,
   ⟨5, sReplay, by decide +kernel⟩,
   ⟨1, 62, .corrected, State.reset, by decide +kernel⟩,
   ⟨1, 63, .good, sReplay, by decide +kernel⟩,
   ⟨63, sReplay, by decide +kernel⟩,
   ⟨0, 5, .good, sCross id, by decide +kernel⟩,
   ⟨0, 0, .good, [.frame 0 false 9], sCross id, by decide +kernel⟩⟩

end Sys2Proof.Tests
end

section
/-! The edge at the 1PPS input (R85): which edges are rejected, and the state that an accepted or a rejected edge leaves. -/
namespace Sys2Proof.Machine

/-! ## Registers and frames -/

theorem setFld_word (w : Word) (v : Nat) : setFld w 0 32 v = w32 v := by
  have hw : w.toNat < 2 ^ 32 := w.isLt
  apply BitVec.eq_of_toNat_eq
  simp only [setFld, w32, BitVec.toNat_ofNat]
  omega

theorem fld_word (w : Word) : fld w 0 32 = w.toNat := by
  simp only [fld, Nat.pow_zero, Nat.div_one]
  exact Nat.mod_eq_of_lt w.isLt

/-- A saturating count that fills its register. -/
theorem rd_bump_word (p off k : Nat) (s : State) :
    (rd p off (bump p off 0 32 k s)).toNat = satAdd (rd p off s).toNat k (2 ^ 32 - 1) := by
  have htop : satAdd (rd p off s).toNat k (2 ^ 32 - 1) < 2 ^ 32 := by
    unfold satAdd; split <;> omega
  simp only [bump, wf, rf, rd_wr_self, setFld_word, fld_word, w32, BitVec.toNat_ofNat]
  exact Nat.mod_eq_of_lt htop

theorem regsBut_bump {l : List (Nat × Nat)} (p off lo n k : Nat) (s : State) (h : (p, off) ∈ l) (ho : off < 65536) :
    RegsBut l s (bump p off lo n k s) :=
  regsBut_wr p off _ s h ho

theorem keeps_setTim {ps : List Part} (hp : Part.tim ∈ ps) (x : Tim) (s : State) : KeepsBut ps s { s with tim := x } := by
  intro p hx
  cases p
  case tim => exact absurd hp hx
  case regs => exact ⟨rfl, fun _ _ _ _ _ => rfl, fun _ => rfl⟩
  all_goals rfl

/-- The servo's mode is a register's. -/
theorem servoMode_of_keeps {a b : State} (h : KeepsBut [.tim] a b) : servoMode b = servoMode a := by
  have hcfg : rd pgTim 0x114 b = rd pgTim 0x114 a :=
    (h.regsBut (by decide) []).2 pgTim 0x114 (by simp) (by decide) (by decide) (by decide)
  simp only [servoMode, rf, hcfg]

/-! ## The rejection rules -/

/-- A stamp lies farther than `k` from the nearest whole second when it does so from the one before and from the one after. -/
theorem lt_secondDist (k t : Nat) : k < secondDist t ↔ k < t % secU ∧ k < secU - t % secU := Nat.lt_min

/-- The stamp of an edge at the 1PPS input: the instant it came less TIM_PPS_IN_OFS. -/
def ppsStamp (raw : Nat) (s : State) : Nat := shiftStamp raw (-(sgn (rd pgRef 0x120 s).toNat 32))

/-- The two cases in which R85 rejects an edge: within 500 ms of the last accepted one, or, while LOCKED, more than 100 ms from the whole
second before and from the one after. -/
def PpsRejects (raw : Nat) (s : State) : Prop :=
  (s.tim.ppsIn.isSome = true ∧ (advance raw s).tim.up < s.tim.ppsUp + 500000000 * 2 ^ 32) ∨
    (s.tim.servo = .locked ∧ 100000000 * nsU < ppsStamp raw s % secU ∧ 100000000 * nsU < secU - ppsStamp raw s % secU)

/-- A rejected edge is counted. -/
def ppsRefuse (s : State) : State := ev pgRef 0x0101 1 (bump pgRef 0x130 0 32 1 s)

/-- An accepted edge is recorded with its stamp and the uptime at which it came. -/
def ppsRecord (e : Nat) (s : State) : State :=
  ev pgRef 0x0100 1 { s with tim := { s.tim with ppsIn := some e, ppsUp := s.tim.up } }

/-- An accepted edge is recorded, and in mode 2 leaves its distance from the second for the servo. -/
def ppsAccept (e : Nat) (s : State) : State :=
  let r := ppsRecord e s
  if servoMode r = 2 then { r with tim := { r.tim with pendOfs := some (secondOfs e) } } else r

/-- On a live device with the input enabled, `PpsRejects` decides between the two effects. -/
theorem exec_ppsInEdge {raw : Nat} {s : State} [Decidable (PpsRejects raw s)] (hlive : held s = false) (hen : rb pgRef 0x11C 0 s = true) :
    exec (.ppsInEdge raw) s = .next (owned s
      (if PpsRejects raw s then ppsRefuse (advance raw s) else ppsAccept (ppsStamp raw s) (advance raw s))) := by
  show execPpsInEdge raw s = _
  simp [execPpsInEdge, onLive, hlive, hen, PpsRejects, ppsRefuse, ppsAccept, ppsRecord, ppsStamp, lt_secondDist]

/-! ## What each effect leaves -/

@[simp] theorem ppsRefuse_tim (s : State) : (ppsRefuse s).tim = s.tim := by simp [ppsRefuse]

/-- TIM_PPS_IN_REJ counts the edge and stays at its top. -/
theorem rd_ppsRefuse_count (s : State) :
    (rd pgRef 0x130 (ppsRefuse s)).toNat = satAdd (rd pgRef 0x130 s).toNat 1 (2 ^ 32 - 1) := by
  unfold ppsRefuse
  rw [(ev_kept _ _ _ _).rd (by decide) (by decide), rd_bump_word]

theorem keeps_ppsRefuse (s : State) : KeepsBut [.tim, .regs] s (ppsRefuse s) :=
  KeepsBut.trans (keeps_bump (by decide) _ _ _ _ _ s) ((ev_kept _ _ _ _).keeps _)

theorem regsBut_ppsRefuse (s : State) : RegsBut [(pgRef, 0x130)] s (ppsRefuse s) :=
  (regsBut_bump _ _ _ _ _ s (by simp) (by decide)).trans ((ev_kept _ _ _ _).regsBut _)

theorem keeps_ppsRecord (e : Nat) (s : State) : KeepsBut [.tim] s (ppsRecord e s) :=
  KeepsBut.trans (keeps_setTim (by decide) _ s) ((ev_kept _ _ _ _).keeps _)

theorem ppsAccept_tim (e : Nat) (s : State) :
    (ppsAccept e s).tim = { s.tim with
      ppsIn := some e, ppsUp := s.tim.up, pendOfs := if servoMode s = 2 then some (secondOfs e) else s.tim.pendOfs } := by
  simp only [ppsAccept, servoMode_of_keeps (keeps_ppsRecord e s)]
  split <;> simp [ppsRecord]

theorem keeps_ppsAccept (e : Nat) (s : State) : KeepsBut [.tim] s (ppsAccept e s) := by
  simp only [ppsAccept]
  split
  · exact KeepsBut.trans (keeps_ppsRecord e s) (keeps_setTim (by decide) _ _)
  · exact keeps_ppsRecord e s

end Sys2Proof.Machine

open Sys2Proof Sys2Proof.Machine

/-- Settles O10: the two cases of `PpsRejects`; a rejected edge is counted and leaves the time unit alone, an accepted one leaves every
register alone. -/
theorem ppsInputEdge : Obligations.PpsInputEdge := by
  classical
  intro raw s hlive hen
  refine ⟨_, exec_ppsInEdge hlive hen, ?_⟩
  show (PpsRejects raw s → _) ∧ (¬PpsRejects raw s → _) ∧ _
  by_cases hrej : PpsRejects raw s
  · rw [if_pos hrej]
    refine ⟨fun _ => ?_, (absurd hrej ·), keeps_live (keeps_ppsRefuse _), (regsBut_ppsRefuse _).live⟩
    simp [rd_ppsRefuse_count]
  · rw [if_neg hrej]
    have hkeeps := keeps_ppsAccept (ppsStamp raw s) (advance raw s)
    have hregs (l : List (Nat × Nat)) : RegsBut l (advance raw s) _ := hkeeps.regsBut (by decide) l
    have hcount := ((hregs []).2 pgRef 0x130 (by simp) (by decide) (by decide) (by decide)).trans (rd_advance _ _ raw s)
    have hmode : servoMode (advance raw s) = servoMode s := rf_advance _ _ _ _ raw s
    refine ⟨(absurd · hrej), fun _ => ?_, keeps_live (hkeeps.mono (by simp)), (hregs _).live⟩
    refine ⟨?_, ?_, hcount, ?_⟩ <;> simp [ppsAccept_tim, hmode, ppsStamp]

end

section
/-! The classifier search (R157): which slots it considers, and which of them wins. -/
namespace Sys2Proof.Machine

/-! ## The slots that match -/

/-- A key that does not read as the default is listed. -/
theorem exists_mem_of_look_ne {α : Type} {d : α} {i : Nat} : ∀ {m : Tab α}, look d m i ≠ d → ∃ v, (i, v) ∈ m
  | [], h => absurd rfl h
  | (k, v) :: r, h => by
    by_cases hik : i = k
    · exact ⟨v, hik ▸ List.mem_cons_self⟩
    · obtain ⟨u, hu⟩ := exists_mem_of_look_ne (m := r) (by simpa only [look, if_neg hik] using h)
      exact ⟨u, List.mem_cons_of_mem _ hu⟩

/-- The key of a slot's first word shows the table, the word's number 0 and the slot. -/
theorem tkey_cls_fields {i : Nat} (hi : i < 2 ^ 24) :
    tkey tbCls i 0 / 2 ^ 30 = tbCls ∧ tkey tbCls i 0 % 64 = 0 ∧ tkey tbCls i 0 / 64 % 2 ^ 24 = i := by
  unfold tkey tbCls
  omega

/-- A classifier word is zero after reset. -/
theorem tblReset_eq_zero_of_cls {k : Nat} (hk : k / 2 ^ 30 = tbCls) : tblReset k = 0 := by
  unfold tblReset
  rw [hk]
  rfl

/-- The first word of a slot whose VALID bit is set stands in the table. -/
theorem exists_mem_tbl_of_valid {i : Nat} {s : State} (hi : i < 2 ^ 24) (hvalid : tb tbCls i 0 0 s = true) :
    ∃ v, (tkey tbCls i 0, v) ∈ s.regs.tbl := by
  refine exists_mem_of_look_ne (d := tblReset (tkey tbCls i 0)) fun hreset => ?_
  rw [tb, tw, hreset, tblReset_eq_zero_of_cls (tkey_cls_fields hi).1] at hvalid
  exact absurd hvalid (by decide)

theorem mem_clsValid {i : Nat} {s : State} : i ∈ clsValid s ↔ i < 2 ^ 24 ∧ tb tbCls i 0 0 s = true := by
  simp only [clsValid, List.mem_filter, List.mem_filterMap, Option.ite_none_right_eq_some, Option.some.injEq]
  constructor
  · rintro ⟨⟨e, -, -, rfl⟩, hvalid⟩
    exact ⟨Nat.mod_lt _ (by decide), hvalid⟩
  · rintro ⟨hi, hvalid⟩
    obtain ⟨v, hmem⟩ := exists_mem_tbl_of_valid hi hvalid
    obtain ⟨htab, hword, hslot⟩ := tkey_cls_fields hi
    exact ⟨⟨_, hmem, by simp only [htab, hword, decide_true, Bool.and_self], hslot⟩, hvalid⟩

/-- The slots among which the search for a key looks for the winner. -/
def clsHits (g : Nat) (wide : Bool) (key : Nat) (s : State) : List Nat :=
  (clsValid s).filter (fun i => clsWide g (i / 8192) s == wide && (!wide || i % 2 == 0) && clsMatch wide key i s)

theorem mem_clsHits {g : Nat} {wide : Bool} {key i : Nat} {s : State} :
    i ∈ clsHits g wide key s ↔ i < 2 ^ 24 ∧ tb tbCls i 0 0 s = true ∧ clsWide g (i / 8192) s = wide ∧ (wide = true → i % 2 = 0) ∧
      (key ^^^ clsValue wide i s) &&& clsMask wide i s = 0 := by
  have heven : (!wide || i % 2 == 0) = true ↔ (wide = true → i % 2 = 0) := by cases wide <;> simp
  simp only [clsHits, List.mem_filter, mem_clsValid, Bool.and_eq_true, heven, clsMatch, beq_iff_eq, and_assoc]

theorem clsSearch_eq_clsBest (g : Nat) (wide : Bool) (key : Nat) (s : State) :
    clsSearch g wide key s = clsBest (clsHits g wide key s) s := rfl

/-! ## The winner -/

/-- Slot i wins over slot j: it has the larger PRI, or the same and no higher index. -/
def ClsWins (s : State) (i j : Nat) : Prop := clsPri j s ≤ clsPri i s ∧ (clsPri j s = clsPri i s → i ≤ j)

theorem ClsWins.refl (s : State) (i : Nat) : ClsWins s i i := ⟨Nat.le_refl _, fun _ => Nat.le_refl _⟩

theorem ClsWins.trans {s : State} {i j k : Nat} (hij : ClsWins s i j) (hjk : ClsWins s j k) : ClsWins s i k := by
  unfold ClsWins at *
  omega

/-- The slot that stays when slot k is met and j was the best so far. -/
def clsPick (s : State) (j k : Nat) : Nat := if clsPri j s < clsPri k s ∨ clsPri k s = clsPri j s ∧ k < j then k else j

theorem clsPick_mem (s : State) (j k : Nat) (l : List Nat) : clsPick s j k ∈ j :: k :: l := by
  unfold clsPick
  split
  · exact List.mem_cons_of_mem _ List.mem_cons_self
  · exact List.mem_cons_self

theorem clsPick_wins (s : State) (j k : Nat) : ClsWins s (clsPick s j k) j ∧ ClsWins s (clsPick s j k) k := by
  unfold clsPick ClsWins
  split <;> omega

/-- The model's fold, one slot at a time. -/
theorem clsBest_cons_cons (j k : Nat) (l : List Nat) (s : State) : clsBest (j :: k :: l) s = clsBest (clsPick s j k :: l) s := by
  simp only [clsBest, List.foldl_cons, clsPick, Bool.or_eq_true, Bool.and_eq_true, decide_eq_true_eq, beq_iff_eq]
  split <;> rfl

/-- Of one slot or more, the best is one of them and wins over each. -/
theorem exists_clsBest_cons (s : State) (j : Nat) (l : List Nat) :
    ∃ i, clsBest (j :: l) s = some i ∧ i ∈ j :: l ∧ ∀ k ∈ j :: l, ClsWins s i k := by
  induction l generalizing j with
  | nil => exact ⟨j, rfl, List.mem_singleton.mpr rfl, fun k hk => List.mem_singleton.mp hk ▸ ClsWins.refl s j⟩
  | cons k l ih =>
    obtain ⟨i, hbest, hmem, hwins⟩ := ih (clsPick s j k)
    obtain ⟨hpickj, hpickk⟩ := clsPick_wins s j k
    have hpick : ClsWins s i (clsPick s j k) := hwins _ List.mem_cons_self
    refine ⟨i, (clsBest_cons_cons j k l s).trans hbest, ?_, fun m hm => ?_⟩
    · rcases List.mem_cons.mp hmem with hi | hi
      · exact hi ▸ clsPick_mem s j k l
      · exact List.mem_cons_of_mem _ (List.mem_cons_of_mem _ hi)
    · rcases List.mem_cons.mp hm with rfl | hm
      · exact hpick.trans hpickj
      · rcases List.mem_cons.mp hm with rfl | hm
        · exact hpick.trans hpickk
        · exact hwins m (List.mem_cons_of_mem _ hm)

theorem clsBest_eq_none_iff {l : List Nat} {s : State} : clsBest l s = none ↔ ∀ i, i ∉ l := by
  cases l with
  | nil => exact ⟨fun _ _ => List.not_mem_nil, fun _ => rfl⟩
  | cons j l =>
    obtain ⟨i, hbest, hmem, -⟩ := exists_clsBest_cons s j l
    exact ⟨fun hnone => (nomatch hbest.symm.trans hnone), fun hno => absurd hmem (hno i)⟩

theorem clsBest_eq_some {l : List Nat} {s : State} {i : Nat} (h : clsBest l s = some i) : i ∈ l ∧ ∀ j ∈ l, ClsWins s i j := by
  cases l with
  | nil => nomatch h
  | cons j l =>
    obtain ⟨i', hbest, hspec⟩ := exists_clsBest_cons s j l
    obtain rfl : i' = i := Option.some.inj (hbest.symm.trans h)
    exact hspec

end Sys2Proof.Machine

open Sys2Proof Sys2Proof.Machine

/-- Settles O26: the search answers the best of the matching slots, which wins over each of them. -/
theorem largestPriorityWins : Obligations.LargestPriorityWins := by
  intro g wide key s hit
  have hmem (i : Nat) : i ∈ clsHits g wide key s ↔ hit i := mem_clsHits
  have hsearch : clsSearch g wide key s = clsBest (clsHits g wide key s) s := clsSearch_eq_clsBest g wide key s
  rw [hsearch]
  refine ⟨?_, fun i hi => ?_⟩
  · simp only [clsBest_eq_none_iff, hmem]
  · obtain ⟨hin, hwins⟩ := clsBest_eq_some hi
    exact ⟨(hmem i).mp hin, fun j hj => hwins j ((hmem j).mpr hj)⟩

end
